-- ==== Sys2Proof/Word.lean ====
section
/-! DEFINITION. The plain bit types of the NH-563 model: a byte of shared memory and a 32-bit word of the host ports. -/

namespace Sys2Proof

/-- One byte of shared memory, of the sensor port or of a record. -/
abbrev Byte := BitVec 8

/-- One 32-bit word of the host memory port, of a register or of the post FIFO. -/
abbrev Word := BitVec 32

end Sys2Proof
end

