-- ==== Sys2Proof/Config.lean ====
section
/-! DEFINITION. What is fixed for every run: the memory map of 08_shared_memory_port.md, the sizes the manual gives, and
the free values (constants without a body) for the values the manual does not state. -/

namespace Sys2Proof.Config

/-- First address above shared memory (R150). -/
abbrev memTop : Nat := 0x10000000

/-- First address above the control block (the memory map before R150). -/
abbrev controlTop : Nat := 0x10000

/-- First address of the frame slots (R8's table). -/
abbrev slotsBase : Nat := 0x01000000

/-- Bytes of one frame slot, 24 MiB (R8's section). -/
abbrev slotBytes : Nat := 0x01800000

/-- First address above the frame slots. -/
abbrev slotsTop : Nat := 0x08800000

abbrev setupBase : Nat := 0x200
abbrev layoutBase : Nat := 0x400
abbrev controlBase : Nat := 0x600
abbrev jobBase : Nat := 0x800
abbrev indexBase : Nat := 0x1000
abbrev eventBase : Nat := 0x2000

/-- Capacity of the intake buffer in bytes (R5's section). -/
abbrev bufferBytes : Nat := 8192

/-- Capacity of the record queue in operations (R155). -/
abbrev recordRoom : Nat := 32

/-- Capacity of the post FIFO in words (R167). -/
abbrev fifoRoom : Nat := 8

/-- Greatest value of a saturating 32-bit counter (R4, R5, R73, R162, R163). -/
abbrev counterMax : Nat := 4294967295

/-- What a byte of shared memory that nothing has written reads as (assumption log 1, DESIGN CHOICE, unsafe). -/
abbrev unwrittenByte : Byte := 0

/-- FREE VALUE (assumption log 2): the centre a LIVE frame turn reports for a pane whose source is absent. R84 gives the
centre used only for panes with a present source. Its arguments are the output frame number before the increase and the
pane number; the low half is the horizontal centre, the high half the vertical one. -/
opaque absentPaneCentre : Nat → Nat → BitVec 32

/-- FREE VALUE (assumption log 27): argument A of a SETUP_REFUSED whose setup read was abandoned before the generation number
was read. R163 gives the record with reason MEMORY, and R171 gives its argument A as the generation number read. Its argument
is the uncorrectable error counter. -/
opaque unreadGeneration : Nat → BitVec 32

end Sys2Proof.Config
end

