-- ==== Sys2Proof/Syntax.lean ====
section
/-! DEFINITION. The commands of the NH-563: one constructor of Instr for each row of spec/opcode_table.json, in the table's
order. The rows give no operand fields; an operand below is what the row's own summary and rule say arrives with the event. -/

namespace Sys2Proof

/-- The nine blocks of 00_scope.md, each the owner of its state. -/
inductive Block where
  | intake | monitor | engine | feeder | capture | jobs | memory | post | mode
  deriving DecidableEq, Repr

/-- The five registers of R165. -/
inductive Register where
  | id | sysctl | post | cause | mask
  deriving DecidableEq, Repr

/-- What befalls the DRAM before a burst of the memory port completes: an aligned word (its address divided by four) gains a
correctable error, or an uncorrectable one and then stands as the value given (R161 to R163); or the read that the ENGINE was
making for a strip as its scan-out began, and the strip was abandoned, comes to its end (R102, assumption log 14). -/
inductive Upset where
  | correctable (word : Nat)
  | uncorrectable (word : Nat) (value : Word)
  | cutOff (addr len : Nat)
  deriving DecidableEq, Repr

/-- The transfer an ENGINE burst makes (R157). The manual does not say in which order the engine makes the transfers of a
work unit, so the burst that completes brings its own (assumption log 14). -/
structure EngineBurst where
  write : Bool
  addr : Nat
  len : Nat
  deriving DecidableEq, Repr

/-- The commands, in the order of spec/opcode_table.json. -/
inductive Instr where
  /-- FRAME_START (R2). -/
  | frameStart
  /-- FRAME_END (R2). -/
  | frameEnd
  /-- LINE_START (R3). -/
  | lineStart
  /-- LINE_END (R3). -/
  | lineEnd
  /-- COMPONENT (R5): the byte on the sensor bus. -/
  | component (value : Byte)
  /-- ACCEPTANCE (R6). -/
  | acceptance
  /-- TILE_MEANS_ARRIVAL (R19). -/
  | tileMeansArrival
  /-- PATTERN_TIMEOUT (R23). -/
  | patternTimeout
  /-- CAPTURE_DECISION (R110). -/
  | captureDecision
  /-- SLOT_WAIT_EXPIRY (R114). -/
  | slotWaitExpiry
  /-- DESCRIPTOR_READ_DONE (R117). -/
  | descriptorReadDone
  /-- STRIP_SCANOUT_START (R70): the strip whose scan-out begins, not the last of the frame. -/
  | stripScanoutStart (strip : Nat)
  /-- FRAME_TURN (R72). -/
  | frameTurn
  /-- LAYOUT_READ_DONE (R76). -/
  | layoutReadDone
  /-- STRIP_COMPLETE (R100). -/
  | stripComplete
  /-- CAPTURE_PIECE_COMPLETE (R120). -/
  | capturePieceComplete
  /-- JOB_PIECE_COMPLETE (R141). -/
  | jobPieceComplete
  /-- SIGNATURE_PIECE_COMPLETE (R143). -/
  | signaturePieceComplete
  /-- JOB_SCAN_DONE (R136). -/
  | jobScanDone
  /-- MEMORY_BURST_COMPLETE (R158): what befell the DRAM before the burst, and the transfer made if the grant is the
  ENGINE's. -/
  | memoryBurstComplete (upsets : List Upset) (engine : EngineBurst)
  /-- HOST_MEMORY_READ (R152): the address. -/
  | hostMemoryRead (addr : Word)
  /-- HOST_MEMORY_WRITE (R152): the address, the data and the four byte enables (bit n enables byte n). -/
  | hostMemoryWrite (addr data : Word) (enables : BitVec 4)
  /-- RECORD_QUEUE_ADMIT (R155). -/
  | recordQueueAdmit
  /-- POST_WRITE (R167): the word written. -/
  | postWrite (word : Word)
  /-- POST_UNKNOWN_KIND (R168). -/
  | postUnknownKind
  /-- APPLY_SETUP (R170). -/
  | applySetup
  /-- SETUP_READ_DONE (R171). -/
  | setupReadDone
  /-- TAKE_LAYOUT (R75). -/
  | takeLayout
  /-- CAPTURE_CREDIT (R124). -/
  | captureCredit
  /-- CAPTURE_RESTART (R125). -/
  | captureRestart
  /-- CONTROL_WORDS_READ_DONE (R125). -/
  | controlWordsReadDone
  /-- CAPTURE_NOW (R109). -/
  | captureNow
  /-- LESSON_BEGIN (R105). -/
  | lessonBegin
  /-- LESSON_END (R106). -/
  | lessonEnd
  /-- JOB_ADD (R132). -/
  | jobAdd
  /-- JOB_CANCEL (R133). -/
  | jobCancel
  /-- EVENT_ACK (R175). -/
  | eventAck
  /-- PAGE_FORGET (R41). -/
  | pageForget
  /-- CLEAR_INSTABILITY (R15). -/
  | clearInstability
  /-- EVENT_ARRIVAL (R174): which of the events raised together is taken, counted from the oldest event waiting. -/
  | eventArrival (position : Nat)
  /-- HOLDOFF_EXPIRY (R176). -/
  | holdoffExpiry
  /-- CAUSE_WRITE (R166): the word written. -/
  | causeWrite (value : Word)
  /-- MASK_WRITE (R166): the word written. -/
  | maskWrite (value : Word)
  /-- SOFT_RESET (R165). -/
  | softReset
  /-- MODE_REQUEST_STANDBY (R183). -/
  | modeRequestStandby
  /-- MODE_REQUEST_LIVE (R183). -/
  | modeRequestLive
  /-- REGISTER_WRITE_OTHER (R165): the register and the word written. -/
  | registerWriteOther (register : Register) (value : Word)
  /-- MODE_ENTRY (R182): the block that the announcement reaches. -/
  | modeEntry (block : Block)
  /-- REACTION_TIMER_EXPIRY (R185). -/
  | reactionTimerExpiry
  /-- POWER_WARN (R186). -/
  | powerWarn
  /-- SAFE_ASSERT (R187). -/
  | safeAssert
  /-- RESET_PIN (R180). -/
  | resetPin
  /-- SUPPLY_GOOD_LOSS (R180). -/
  | supplyGoodLoss
  /-- RESET_RELEASE (R180). -/
  | resetRelease
  /-- BOOT_CLEAR_DONE (R154). -/
  | bootClearDone
  /-- BOOT_END (R181). -/
  | bootEnd
  /-- POWER_WARN_INACTIVE (R186). -/
  | powerWarnInactive
  deriving DecidableEq, Repr

end Sys2Proof
end

