-- ==== Sys2Proof/WellFormed.lean ====
section
/-! DEFINITION. Which commands can be sent at all: the checks on a command's own operands. What a command does in the state it
finds is the machine's business, not this file's. -/

namespace Sys2Proof

/-- A burst moves 1 to 64 bytes at consecutive addresses of shared memory and crosses no 64-byte boundary (R157). -/
def EngineBurst.wellFormed (b : EngineBurst) : Bool :=
  decide (1 ≤ b.len) && decide (b.addr % 64 + b.len ≤ 64) && decide (b.addr + b.len ≤ Config.memTop)

/-- An upset names an aligned word of shared memory (R161), or a read that could be a burst (R157). -/
def Upset.wellFormed : Upset → Bool
  | .correctable w => decide (w < Config.memTop / 4)
  | .uncorrectable w _ => decide (w < Config.memTop / 4)
  | .cutOff addr len => (EngineBurst.mk false addr len).wellFormed

/-- A write with no behaviour of its own (R165, REGISTER_WRITE_OTHER): one to ID, or one to SYSCTL whose soft reset bit is 0
and whose mode request field reads as NONE. -/
def writesNothing : Register → Word → Bool
  | .id, _ => true
  | .sysctl, w => !w.getLsbD 31 && (decide ((w >>> 8) &&& 3#32 = 0#32) || decide ((w >>> 8) &&& 3#32 = 3#32))
  | _, _ => false

/-- The widest mode has 150 strips (R68), and the scan-out of a frame's last strip is FRAME_TURN (R72). -/
def stripInRange (k : Nat) : Bool := decide (k < 149)

/-- The checks on a command's operands. -/
def Instr.wellFormed : Instr → Bool
  | .memoryBurstComplete us b => us.all Upset.wellFormed && b.wellFormed
  | .stripScanoutStart k => stripInRange k
  | .registerWriteOther r w => writesNothing r w
  | .modeEntry b => decide (b ≠ .mode)
  | .frameStart | .frameEnd | .lineStart | .lineEnd | .component _ | .acceptance | .tileMeansArrival
  | .patternTimeout | .captureDecision | .slotWaitExpiry | .descriptorReadDone | .frameTurn
  | .layoutReadDone
  | .stripComplete | .capturePieceComplete | .jobPieceComplete | .signaturePieceComplete | .jobScanDone
  | .hostMemoryRead _ | .hostMemoryWrite _ _ _ | .recordQueueAdmit | .postWrite _ | .postUnknownKind | .applySetup
  | .setupReadDone | .takeLayout | .captureCredit | .captureRestart | .controlWordsReadDone | .captureNow
  | .lessonBegin | .lessonEnd | .jobAdd | .jobCancel | .eventAck | .pageForget | .clearInstability
  | .eventArrival _ | .holdoffExpiry | .causeWrite _ | .maskWrite _ | .softReset | .modeRequestStandby
  | .modeRequestLive | .reactionTimerExpiry | .powerWarn | .safeAssert | .resetPin | .supplyGoodLoss
  | .resetRelease | .bootClearDone | .bootEnd | .powerWarnInactive => true

end Sys2Proof
end

