-- ==== Sys2Proof/Machine/State.lean ====
section
/-! DEFINITION. The state of the NH-563 as plain data, one structure for each block that owns state (00_scope.md, Functional
Overview), the shared memory, and the queue of waiting commands. State.reset is the part right after a reset. -/

namespace Sys2Proof.Machine

/-- Shared memory: (address, byte) pairs, addresses strictly rising, no pair equal to what an unlisted address reads as. -/
abbrev Memory := List Host.Cell

/-- The six modes of 10_operating_modes_and_power_events.md. -/
inductive Mode where
  | reset | boot | standby | live | shutting | powerdown
  deriving DecidableEq, Repr

/-! ## Frame intake (R1 to R18) -/

/-- The width and height of an image in pixels. -/
structure Geometry where
  w : Nat
  h : Nat
  deriving DecidableEq, Repr

/-- The intake states of R2. -/
inductive IntakeState where
  | stopped | waiting | receiving | discarding
  deriving DecidableEq, Repr

/-- The fill states of a frame slot (R8). -/
inductive Fill where
  | free | filling | complete
  deriving DecidableEq, Repr

/-- The owners of pins (R8). -/
inductive PinOwner where
  | freeze | capture | job
  deriving DecidableEq, Repr

/-- One frame slot (R8); the newest mark and the display hold are kept as slot numbers in Intake. -/
structure Slot where
  fill : Fill := .free
  geometry : Option Geometry := none
  pinFreeze : Bool := false
  pinCapture : Bool := false
  pinJob : Bool := false
  deriving DecidableEq, Repr

/-- Where the frame being received goes: nowhere (a standby frame, R16), to a slot not chosen yet (R7), or to a slot (R9). -/
inductive Target where
  | standby | deferred | slot (n : Nat)
  deriving DecidableEq, Repr

/-- One byte of the intake buffer (R5): whether it belongs to the frame whose acceptance is pending, its plane, its offset in
the slot, and its value. -/
structure BufferByte where
  ofPending : Bool
  chroma : Bool
  offset : Nat
  value : Byte
  deriving DecidableEq, Repr

/-- The tile means of a frame with the frame's number and geometry (R12, R19). -/
structure TileStats where
  means : List Nat
  frame : Nat
  geometry : Geometry
  deriving DecidableEq, Repr

/-- A complete frame whose last byte has not yet gone to the memory port (R6). -/
structure PendingFrame where
  slot : Nat
  geometry : Geometry
  means : List Nat
  /-- STANDBY has been entered meanwhile, so its slot will not take the newest mark (R16). -/
  noMark : Bool := false
  deriving DecidableEq, Repr

structure Intake where
  view : Mode := .reset
  state : IntakeState := .stopped
  geometry : Option Geometry := none
  linesDone : Nat := 0
  lineOpen : Bool := false
  lineCount : Nat := 0
  sums : List Nat := []
  target : Target := .standby
  buffer : List BufferByte := []
  pendingFrame : Option PendingFrame := none
  slots : List Slot := List.replicate 5 {}
  newest : Option Nat := none
  hold : Option Nat := none
  held : Option TileStats := none
  frameNumber : Nat := 0
  malformed : Nat := 0
  drops : Nat := 0
  instability : Nat := 0
  suspended : Bool := false
  /-- Means handed over and not yet arrived at the page monitor, oldest first (R6 step 5). -/
  meansOut : List TileStats := []
  deriving DecidableEq, Repr

/-! ## Page monitor (R19 to R44) -/

inductive PageState where
  | settled | moving | settling
  deriving DecidableEq, Repr

inductive EntryState where
  | empty | provisional | valid
  deriving DecidableEq, Repr

/-- A black and a white level with the valid flag (R27). -/
structure Levels where
  black : Nat := 0
  white : Nat := 0
  valid : Bool := false
  deriving DecidableEq, Repr

/-- The 192 codes of R28, two bits a tile, tile 0 lowest: read as bytes this is the packing of the record formats. -/
abbrev Signature := BitVec 384

/-- One entry of the page index (R33's section). -/
structure IndexEntry where
  state : EntryState := .empty
  seen : Nat := 0
  page : Nat := 0
  captureFrame : Nat := 0
  lastSeen : Nat := 0
  image : Nat := 0
  signature : Signature := 0#384
  deriving DecidableEq, Repr

structure Monitor where
  view : Mode := .reset
  previous : Option (List Nat × Geometry) := none
  pageState : PageState := .settled
  motionRun : Nat := 0
  stillRun : Nat := 0
  patternAge : Nat := 0
  levels : Levels := {}
  index : List IndexEntry := List.replicate 64 {}
  /-- A pattern has reached the pattern window and PATTERN_TIMEOUT is not yet taken (R23; assumption log 8). -/
  timeoutDue : Bool := false
  deriving DecidableEq, Repr

/-! ## Resampling engine (R45 to R67, R92 to R104) -/

/-- The levels modes of R61. -/
inductive LevelsMode where
  | none | auto | fixed
  deriving DecidableEq, Repr

/-- A colour (Y, Cb, Cr). -/
structure Colour where
  y : Nat
  cb : Nat
  cr : Nat
  deriving DecidableEq, Repr

/-- The parameters of a render (R45) with the destination of R63. `copy` is the copy of AUTO levels where one is carried. -/
structure Render where
  source : Nat
  ws : Nat
  hs : Nat
  wp : Nat
  hp : Nat
  zoom : Nat
  cx : Nat
  cy : Nat
  gain : Nat
  coring : Nat
  mode : LevelsMode
  black : Nat
  white : Nat
  copy : Option Levels
  background : Colour
  destination : Nat
  deriving DecidableEq, Repr

/-- What a work unit covers of one render: its columns and rows, where column 0 and row 0 of the area lie on the raster (for a
strip), and the black and white of the stretch taken at the unit's start, none for no stretch (R61). -/
structure Part where
  render : Render
  stretch : Option (Nat × Nat)
  col : Nat
  cols : Nat
  row : Nat
  rows : Nat
  rasterX : Nat
  deriving DecidableEq, Repr

/-- The four kinds of work unit (R92): the strip with its buffer, or the number of the piece. -/
inductive Work where
  | strip (k : Nat) (buffer : Bool)
  | capturePiece (n : Nat)
  | jobPiece (n : Nat)
  | signaturePiece (n : Nat)
  deriving DecidableEq, Repr

/-- The work unit in progress (R67, R93): the source bytes its read bursts have brought, the addresses its write bursts have
written, and whether it has a transfer still to make (R157). -/
structure EngineUnit where
  work : Work
  parts : List Part
  fetched : List Host.Cell := []
  written : List Nat := []
  ready : Bool := true
  deriving DecidableEq, Repr

/-- The engine (R93), and the strip it abandoned while its read stood at the DRAM, until a burst completes: the memory port still
reports an error that this read meets (R102; the model's own field, assumption log 14). -/
structure Engine where
  unit : Option EngineUnit := none
  cutOff : Option EngineUnit := none
  deriving DecidableEq, Repr

/-- The state of a record read that a block waits for (R155): none, issued, performed with its bytes, or abandoned at an
uncorrectable word with the bytes before it (R163). -/
inductive ReadState where
  | idle | waiting | got (bytes : List Byte) | error (before : List Byte)
  deriving DecidableEq, Repr

/-! ## Display feeder (R68 to R91) -/

/-- The source kinds of a pane (R78). -/
inductive SourceKind where
  | live | freeze | stored
  deriving DecidableEq, Repr

/-- A pane of the working layout (R80). -/
structure Pane where
  x : Nat
  y : Nat
  w : Nat
  h : Nat
  kind : SourceKind
  profile : Nat
  mode : LevelsMode
  rate : Nat
  image : Nat
  imageW : Nat
  imageH : Nat
  target : Nat
  current : Nat
  cx : Nat
  cy : Nat
  black : Nat
  white : Nat
  deriving DecidableEq, Repr

structure Layout where
  generation : Nat
  background : Colour
  panes : List Pane
  deriving DecidableEq, Repr

/-- What a strip buffer holds, or what the display port carries: nothing, one colour on every pixel, or 8 rows of luma and of
chroma bytes. -/
inductive StripImage where
  | empty
  | solid (c : Colour)
  | pixels (luma chroma : List Nat)
  deriving DecidableEq, Repr

/-- An outstanding strip request (R70). -/
structure StripRequest where
  strip : Nat
  buffer : Bool
  deriving DecidableEq, Repr

/-- A pane's source and render as latched for the frame (R84): the rectangle on the raster and the render. -/
structure LatchedPane where
  x : Nat
  y : Nat
  w : Nat
  h : Nat
  render : Render
  deriving DecidableEq, Repr

/-- What can reach the feeder while a frame turn waits for the layout read (R72). A frame turn brings the output mode of the working
setup as its strip's scan-out begins (R68, assumption log 13). -/
inductive FeederEvent where
  | scanout (k : Nat)
  | turn (mode : Nat)
  | takeLayout
  | entry (m : Mode)
  deriving DecidableEq, Repr

/-- The blank of R69. -/
def blankColour : Colour := ⟨16, 128, 128⟩

/-- The active raster of an output mode (R68). -/
def rasterSize : Nat → Geometry
  | 0 => ⟨1280, 720⟩
  | 1 => ⟨1920, 1080⟩
  | _ => ⟨1920, 1200⟩

/-- The default layout for a raster (R91). -/
def defaultLayout (g : Geometry) : Layout :=
  { generation := 0
    background := blankColour
    panes := [{ x := 0, y := 0, w := g.w, h := g.h, kind := .live, profile := 1, mode := .none, rate := 0
                image := 0, imageW := 0, imageH := 0, target := 256, current := 256, cx := 26112, cy := 19584
                black := 0, white := 0 }] }

structure Feeder where
  view : Mode := .reset
  rasterOn : Bool := false
  outputMode : Nat := 1
  /-- The strip whose scan-out begins next: the raster goes from strip 0 to the last strip (R68). -/
  nextStrip : Nat := 0
  layout : Layout := defaultLayout (rasterSize 1)
  posted : Bool := false
  bufferA : StripImage := .empty
  bufferB : StripImage := .empty
  /-- Which buffer is being scanned out: false for A, true for B. -/
  scanning : Bool := false
  request : Option StripRequest := none
  /-- What the strip now being scanned out carries on the display port. -/
  display : StripImage := .solid blankColour
  /-- The frame in progress is one whose strip 0 was requested at a frame turn in LIVE (R87). -/
  liveFrame : Bool := false
  /-- The frame in progress is marked late (R85). -/
  late : Bool := false
  latched : List LatchedPane := []
  underrunRun : Nat := 0
  cleanRun : Nat := 0
  degraded : Bool := false
  frameNumber : Nat := 0
  underruns : Nat := 0
  faults : Nat := 0
  layoutRead : ReadState := .idle
  deferred : List FeederEvent := []
  deriving DecidableEq, Repr

/-! ## Capture unit (R105 to R130) -/

inductive ContextState where
  | idle | waitingPin | waitingSlot | rendering
  deriving DecidableEq, Repr

/-- Whether a decision is AUTO or REQUESTED (R108, R109). -/
inductive Reason where
  | auto | requested
  deriving DecidableEq, Repr

/-- An AUTO decision on its way to the capture unit, with what the unit has taken since the STILL frame (R110). -/
structure Decision where
  frame : Nat
  signature : Signature
  levels : Levels
  sawStandby : Bool := false
  sawShutting : Bool := false
  sawLesson : Bool := false
  deriving DecidableEq, Repr

/-- The host-written fields of a slot descriptor that was taken, with its address (R115). -/
structure Descriptor where
  addr : Nat
  buffer : Nat
  capacity : Nat
  next : Nat
  deriving DecidableEq, Repr

/-- The capture context (R110's table) with the render latched at RENDERING (R119) and the pieces. -/
structure Context where
  state : ContextState := .idle
  page : Nat := 0
  reason : Reason := .auto
  entry : Option Nat := none
  levels : Levels := {}
  pinned : Option Nat := none
  frame : Nat := 0
  descriptor : Option Descriptor := none
  render : Option Render := none
  next : Nat := 0
  done : Nat := 0
  deriving DecidableEq, Repr

structure Capture where
  view : Mode := .reset
  lessonOpen : Bool := false
  counter : Nat := 0
  context : Context := {}
  slotWaiting : Bool := false
  slotCount : Nat := 0
  /-- The slot-wait count has reached the slot wait and SLOT_WAIT_EXPIRY is not yet taken (R114). -/
  slotExpired : Bool := false
  running : Bool := false
  head : Nat := 0
  credit : Nat := 0
  read : ReadState := .idle
  decisions : List Decision := []
  deriving DecidableEq, Repr

/-! ## Job runner (R131 to R149) -/

inductive JobState where
  | idle | pending | running | done | cancelled | failed
  deriving DecidableEq, Repr

/-- The working copy of an entry's outcome (R131). -/
structure JobEntry where
  state : JobState := .idle
  reason : Nat := 0
  pieces : Nat := 0
  index : Nat := 0
  deriving DecidableEq, Repr

/-- The request part of a job entry as a scan read it (R136). -/
structure Request where
  kind : Nat
  priority : Nat
  profile : Nat
  mode : Nat
  black : Nat
  white : Nat
  indexOption : Bool
  page : Nat
  source : Nat
  ws : Nat
  hs : Nat
  destination : Nat
  capacity : Nat
  wd : Nat
  hd : Nat
  zoom : Nat
  cx : Nat
  cy : Nat
  deriving DecidableEq, Repr

inductive JobKind where
  | stored | live | signature
  deriving DecidableEq, Repr

/-- The running job's record (07_render_jobs.md): a signature job's render holds its source and nothing else of use. -/
structure RunningJob where
  entry : Nat
  kind : JobKind
  render : Render
  indexOption : Bool
  page : Nat
  total : Nat
  next : Nat
  done : Nat
  stop : Option Nat
  pin : Option Nat
  sums : List Nat
  deriving DecidableEq, Repr

/-- A scan in progress (R136): the entry whose request is being read, and the requests read so far. It starts nothing when an
entry to STANDBY or SHUTTING was taken or the degraded flag was set during it, nor an entry that a JOB_CANCEL ended during it
(R137). -/
structure Scan where
  reading : Option Nat
  got : List (Nat × Request)
  void : Bool := false
  dropped : List Nat := []
  deriving DecidableEq, Repr

structure Jobs where
  view : Mode := .reset
  entries : List JobEntry := List.replicate 16 {}
  running : Option RunningJob := none
  scan : Option Scan := none
  deriving DecidableEq, Repr

/-! ## Memory port (R150 to R164) -/

inductive Requester where
  | intake | engine | record | host
  deriving DecidableEq, Repr

/-- A grant in progress (R158): its holder, the bursts made, and its limit of 8 or 16. -/
structure Grant where
  who : Requester
  bursts : Nat
  limit : Nat
  deriving DecidableEq, Repr

/-- The pass-over counts of R159. -/
structure PassCounts where
  intake : Nat := 0
  engine : Nat := 0
  record : Nat := 0
  host : Nat := 0
  deriving DecidableEq, Repr

/-- Who waits for a record read (R155); a read whose result is disregarded (R115) has no one waiting. -/
inductive Reader where
  | layout | setup | control | descriptor | job (n : Nat) | none
  deriving DecidableEq, Repr

/-- An operation of the record queue: the runs still to be written, or a read with the bytes read so far. -/
inductive RecordOp where
  | write (runs : List (Nat × List Byte))
  | read (reader : Reader) (addr : Nat) (got : List Byte)
  deriving DecidableEq, Repr

/-- The six interrupt causes, in bit order (Registers). -/
inductive Cause where
  | eventsReady | eventsLost | postOverflow | access | powerSafe | memoryFault
  deriving DecidableEq, Repr

/-- The event kinds of R175's table. -/
inductive EventKind where
  | modeChanged | setupTaken | setupRefused | layoutTaken | layoutRefused | postRefused | lessonBegun | lessonEnded
  | pageSeen | pageCaptured | captureMissed | captureFailed | slotRejected | chainFault | indexEvict | patternTimeout
  | jobEnd | displayDegraded | displayRecovered | sensorUnstable | presence | wakeUnanswered | powerSafe | memoryFault
  deriving DecidableEq, Repr

/-- What a block sends on: a record operation with the block that issues it, an event, a cause, or the post port's word to mode
control that it has taken POWER_SAFE (R187). -/
inductive Sent where
  | op (issuer : Block) (op : RecordOp)
  | event (kind : EventKind) (small a b : Nat)
  | cause (c : Cause)
  | safe
  deriving DecidableEq, Repr

/-- Something sent, with the block whose act it is. -/
structure Output where
  actor : Block
  sent : Sent
  deriving DecidableEq, Repr

/-- A wait for room in the record queue (R155): the blocks that wait, and the operation that waits to be admitted. -/
structure Wait where
  blocks : List Block
  op : RecordOp
  deriving DecidableEq, Repr

/-- The access the host bridge holds (R152). -/
inductive HostAccess where
  | read (addr : Nat)
  | write (addr : Nat) (data : Word) (enables : BitVec 4)
  deriving DecidableEq, Repr

/-- How the last host access ended on the port (R150, R152). -/
inductive HostResponse where
  | none | data (w : Word) | done | error
  deriving DecidableEq, Repr

/-- The stages of BOOT (R181). -/
inductive BootStage where
  | none | clearing | status
  deriving DecidableEq, Repr

structure MemoryPort where
  grant : Option Grant := none
  last : Option Requester := none
  pass : PassCounts := {}
  queue : List RecordOp := []
  /-- The waits for room, in the order in which their operations were issued (R155). -/
  blocked : List Wait := []
  /-- What the blocks that wait send on after the operations that wait, in the order in which it was sent (assumption log 22). -/
  later : List Output := []
  bridge : Option HostAccess := none
  response : HostResponse := .none
  boot : BootStage := .none
  correctable : Nat := 0
  uncorrectable : Nat := 0
  /-- Words (address / 4) that hold a correctable error. -/
  weak : List Nat := []
  /-- Words (address / 4) marked uncorrectable. -/
  bad : List Nat := []
  deriving DecidableEq, Repr

/-! ## Post port (R165 to R179) -/

/-- The working setup (R179). -/
structure Setup where
  width : Nat := 3264
  height : Nat := 2448
  outputMode : Nat := 1
  threshold : Nat := 12
  motionTiles : Nat := 8
  quietTiles : Nat := 2
  motionMin : Nat := 3
  settleFrames : Nat := 10
  tolerance : Nat := 12
  slotWait : Nat := 60
  window : Nat := 300
  hostWait : Nat := 0
  autoWake : Bool := false
  autoCapture : Bool := true
  captureProfile : Nat := 2
  captureAuto : Bool := true
  captureW : Nat := 0
  captureH : Nat := 0
  queueSize : Nat := 64
  watermark : Nat := 1
  holdoff : Nat := 0
  /-- (gain, coring) of profiles 0 to 3. -/
  profiles : List (Nat × Nat) := [(0, 0), (24, 2), (40, 3), (64, 4)]
  mask : BitVec 192 := 0#192
  deriving DecidableEq, Repr

/-- An event raised and not yet taken by the post port (R174), with the input frame number current when it arose (R13); `linked`
when it was raised together with the one before. -/
structure RaisedEvent where
  owner : Block
  kind : EventKind
  small : Nat
  a : Nat
  b : Nat
  frame : Nat
  linked : Bool
  deriving DecidableEq, Repr

structure PostPort where
  cause : BitVec 6 := 0#6
  mask : BitVec 6 := 0#6
  fifo : List Word := []
  inHand : Option Word := none
  /-- The mode in which the APPLY_SETUP in hand, or the word in hand whose owner waits for room, was taken (R168). -/
  handMode : Mode := .reset
  setup : Setup := {}
  setupGeneration : Nat := 0
  put : Nat := 0
  get : Nat := 0
  fill : Nat := 0
  lost : Nat := 0
  sequence : Nat := 0
  unsignalled : Nat := 0
  /-- The holdoff timer: none when stopped. -/
  timer : Option Nat := none
  /-- The timer has reached the holdoff at a frame turn and HOLDOFF_EXPIRY is not yet taken (R176; assumption log 9). -/
  holdoffDue : Bool := false
  raised : List RaisedEvent := []
  setupRead : ReadState := .idle
  controlRead : ReadState := .idle
  deriving DecidableEq, Repr

/-! ## Mode control (R180 to R188) -/

/-- An announcement of a mode on its way to a block (R182). -/
structure Announcement where
  block : Block
  mode : Mode
  deriving DecidableEq, Repr

structure ModeControl where
  mode : Mode := .reset
  warned : Bool := false
  timerOn : Bool := false
  timerCount : Nat := 0
  /-- The host wait in force when the timer started (R185). -/
  timerWait : Nat := 0
  safe : Bool := false
  /-- POWER_SAFE has been taken, and this many record operations issued up to it are not yet performed (R187). -/
  safeAfter : Option Nat := none
  /-- Output frames counted since the entry to SHUTTING (R187). -/
  shuttingFrames : Nat := 0
  announcements : List Announcement := []
  /-- The level of the POWER_WARN input. -/
  warnLevel : Bool := false
  /-- The reset pin is active. -/
  pinActive : Bool := true
  /-- SUPPLY_GOOD is high. -/
  supplyGood : Bool := true
  deriving DecidableEq, Repr

/-! ## The whole part -/

structure State where
  control : ModeControl := {}
  intake : Intake := {}
  monitor : Monitor := {}
  engine : Engine := {}
  feeder : Feeder := {}
  capture : Capture := {}
  jobs : Jobs := {}
  port : MemoryPort := {}
  post : PostPort := {}
  mem : Memory := []
  pending : List Instr := []
  deriving DecidableEq, Repr

/-- The reasons the part stops with a fault: none. The manual gives every event of the table an effect in every state, and an
error is an error response, a cause, a counter or an event record of the part that goes on, so no command stops the
machine. -/
inductive Fault where
  deriving DecidableEq, Repr

/-- The reasons the model refuses a command. -/
inductive Refusal where
  /-- Raised only by an arm of exec whose command has no meaning yet (there is none). Safe: nothing is claimed of it. -/
  | notModelled (mnemonic : String)
  deriving DecidableEq, Repr

/-- What a command answers. -/
abbrev Result := Host.Outcome State Fault Refusal

/-- The part right after a reset: every field at the value of R18, R44, R67, R91, R130, R149, R164, R179 and R180, shared
memory with nothing written (assumption log 1), the reset pin still active (assumption log 3) and no command waiting. -/
def State.reset : State := {}

end Sys2Proof.Machine
end

