-- ==== Sys2Proof/Machine/Bytes.lean ====
section
/-! DEFINITION. Bytes of records (R189) and the operations on shared memory as a list in canonical form. -/

namespace Sys2Proof.Machine

/-- The `n` bytes of a field, least significant first (R189). -/
def leBytes : Nat → Nat → List Byte
  | 0, _ => []
  | n + 1, v => BitVec.ofNat 8 v :: leBytes n (v / 256)

/-- The number that little-endian bytes stand for (R189). -/
def ofLe : List Byte → Nat
  | [] => 0
  | b :: bs => b.toNat + 256 * ofLe bs

/-- The field of `size` bytes at offset `off` of a record (R189); bytes beyond the record count as 0. -/
def fieldAt (record : List Byte) (off size : Nat) : Nat := ofLe ((record.drop off).take size)

/-- A zero byte `n` times: the reserved bytes of a device-written record (R189); which operations write them is assumption log 42. -/
def zeros (n : Nat) : List Byte := List.replicate n 0#8

/-- The byte at an address; an unlisted address reads as Config.unwrittenByte. -/
def Memory.read : Memory → Nat → Byte
  | [], _ => Config.unwrittenByte
  | (k, v) :: m, a => if k = a then v else Memory.read m a

/-- Every listed address is above `a` (the list strictly rises from there) and no listed byte is the unlisted one. -/
def Memory.sortedFrom : Option Nat → Memory → Bool
  | _, [] => true
  | lo, (k, v) :: m =>
    (match lo with
      | none => true
      | some a => decide (a < k)) && decide (v ≠ Config.unwrittenByte) && Memory.sortedFrom (some k) m

/-- The canonical form of shared memory: addresses strictly rising, no entry equal to what an unlisted address reads as, and
every address in shared memory (R150). -/
def Memory.wf (m : Memory) : Bool := Memory.sortedFrom none m && m.all (fun c => decide (c.1 < Config.memTop))

/-- Puts a byte at an address, removing the entry where the byte is what an unlisted address reads as. -/
def Memory.put : Memory → Nat → Byte → Memory
  | [], a, b => if b = Config.unwrittenByte then [] else [(a, b)]
  | (k, v) :: m, a, b =>
    if a < k then (if b = Config.unwrittenByte then (k, v) :: m else (a, b) :: (k, v) :: m)
    else if a = k then (if b = Config.unwrittenByte then m else (a, b) :: m)
    else (k, v) :: Memory.put m a b

/-- Writes one byte. An address outside shared memory reaches no memory (R150). -/
def Memory.write (m : Memory) (a : Nat) (b : Byte) : Memory := if a < Config.memTop then m.put a b else m

/-- Writes bytes at consecutive addresses. -/
def Memory.writeBytes : Memory → Nat → List Byte → Memory
  | m, _, [] => m
  | m, a, b :: bs => Memory.writeBytes (m.write a b) (a + 1) bs

/-- The `n` bytes from an address. -/
def Memory.readBytes (m : Memory) (a : Nat) : Nat → List Byte
  | 0 => []
  | n + 1 => m.read a :: Memory.readBytes m (a + 1) n

/-- Writes the bytes of one aligned word whose enables are set (R152). Which enable and which byte of the data stand for which
address R152 does not say: bit n of the enables stands for the byte at address word + n, which takes bits 8n + 7 to 8n of the
data, as a record's bytes lie (assumption log 40). -/
def Memory.writeEnabled (m : Memory) (addr : Nat) (data : Word) (enables : BitVec 4) : Memory :=
  (List.range 4).foldl
    (fun m n => if enables.getLsbD n then m.write (addr + n) (data.extractLsb' (8 * n) 8) else m) m

/-- The word that stands at an aligned address. -/
def Memory.readWord (m : Memory) (addr : Nat) : Word := BitVec.ofNat 32 (ofLe (m.readBytes addr 4))

/-- Zeros over every address below `top` (R154). -/
def Memory.clearBelow (m : Memory) (top : Nat) : Memory := m.filter (fun c => decide (top ≤ c.1))

/-- Cuts bytes at consecutive addresses into transfers of up to 64 bytes that cross no 64-byte boundary (R157). The first
argument bounds the number of transfers. -/
def splitBursts : Nat → Nat → List Byte → List (Nat × List Byte)
  | 0, _, _ => []
  | _, _, [] => []
  | fuel + 1, a, b :: bs =>
    let n := 64 - a % 64
    (a, (b :: bs).take n) :: splitBursts fuel (a + n) ((b :: bs).drop n)

/-- The transfers of one run of bytes. -/
def burstsOf (run : Nat × List Byte) : List (Nat × List Byte) := splitBursts run.2.length run.1 run.2

/-- Puts cells at consecutive addresses together into runs. -/
def runsOf : List (Nat × Byte) → List (Nat × List Byte)
  | [] => []
  | (a, b) :: cs =>
    match runsOf cs with
    | (a', bs) :: rest => if a' = a + 1 then (a, b :: bs) :: rest else (a, [b]) :: (a', bs) :: rest
    | [] => [(a, [b])]

/-- Do the `n` bytes from `a` share a byte with the addresses from `lo` up to, not including, `hi`? -/
def sharesWith (a n lo hi : Nat) : Bool := decide (0 < n) && decide (a < hi) && decide (lo < a + n)

/-- The bytes of an area lie wholly below the top of shared memory and share no byte with the control block or the frame
slots: the check of R78, R118 and R138. -/
def areaAllowed (a n : Nat) : Bool :=
  decide (a + n ≤ Config.memTop) && !sharesWith a n 0 Config.controlTop
    && !sharesWith a n Config.slotsBase Config.slotsTop

/-- A host write to the word at this address is dropped: the memory map before R150, and R153 for the job table. -/
def protectedWord (addr : Nat) : Bool :=
  decide (addr < 0x200)
    || (decide (Config.jobBase ≤ addr) && decide (addr < 0xC00) && decide (48 ≤ addr % 64))
    || (decide (Config.indexBase ≤ addr) && decide (addr < 0x3000))
    || (decide (Config.slotsBase ≤ addr) && decide (addr < Config.slotsTop))

/-- Clamps a number into lo..hi (00_scope.md, ARITHMETIC). -/
def clampNat (lo hi x : Nat) : Nat := if x < lo then lo else if hi < x then hi else x

/-- Clamps an integer into lo..hi. -/
def clampInt (lo hi x : Int) : Int := if x < lo then lo else if hi < x then hi else x

/-- One more, stopping at a maximum (00_scope.md, COUNTERS). -/
def satInc (top n : Nat) : Nat := min top (n + 1)

/-- One more, wrapping to 0 after the maximum of a 32-bit number (R13, R73). -/
def wrapInc (n : Nat) : Nat := (n + 1) % 4294967296

/-- ceil(a / b). -/
def ceilDiv (a b : Nat) : Nat := (a + b - 1) / b

/-- The number of a mode in SYSCTL and in the status area (10_operating_modes_and_power_events.md). -/
def Mode.value : Mode → Nat
  | .reset => 0
  | .boot => 1
  | .standby => 2
  | .live => 3
  | .shutting => 4
  | .powerdown => 5

/-- The numbers of the event kinds (R175's table). -/
def EventKind.value : EventKind → Nat
  | .modeChanged => 1
  | .setupTaken => 2
  | .setupRefused => 3
  | .layoutTaken => 4
  | .layoutRefused => 5
  | .postRefused => 6
  | .lessonBegun => 7
  | .lessonEnded => 8
  | .pageSeen => 9
  | .pageCaptured => 10
  | .captureMissed => 11
  | .captureFailed => 12
  | .slotRejected => 13
  | .chainFault => 14
  | .indexEvict => 15
  | .patternTimeout => 16
  | .jobEnd => 17
  | .displayDegraded => 18
  | .displayRecovered => 19
  | .sensorUnstable => 20
  | .presence => 21
  | .wakeUnanswered => 22
  | .powerSafe => 23
  | .memoryFault => 24

/-- The numbers of the capture context states (status area, offset 2). -/
def ContextState.value : ContextState → Nat
  | .idle => 0
  | .waitingPin => 1
  | .waitingSlot => 2
  | .rendering => 3

/-- The numbers of the page states (status area, offset 0x45). -/
def PageState.value : PageState → Nat
  | .settled => 0
  | .moving => 1
  | .settling => 2

/-- The numbers of the index entry states (page index entry, offset 0). -/
def EntryState.value : EntryState → Nat
  | .empty => 0
  | .provisional => 1
  | .valid => 2

/-- The numbers of the job states (R131). -/
def JobState.value : JobState → Nat
  | .idle => 0
  | .pending => 1
  | .running => 2
  | .done => 3
  | .cancelled => 4
  | .failed => 5

/-- AUTO is 0 and REQUESTED 1 (R123, slot descriptor flags). -/
def Reason.value : Reason → Nat
  | .auto => 0
  | .requested => 1

/-- The requester numbers of MEMORY_FAULT (R163). -/
def Requester.value : Requester → Nat
  | .intake => 0
  | .engine => 1
  | .record => 2
  | .host => 3

/-- 1 for true. -/
def boolByte (b : Bool) : Nat := if b then 1 else 0

end Sys2Proof.Machine
end

