-- ==== Sys2Proof/Machine/Operands.lean ====
section
/-! DEFINITION. The records that commands carry their operands in: post words, the setup record, the layout record, the
control words, job requests and slot descriptors, read as 11_record_and_register_formats.md lays them out, with the
corrections R81, R136 and R170 make at reading; and the device-written records as bytes. -/

namespace Sys2Proof.Machine

/-- The kind field of a post word, bits 31 to 24. -/
def postKind (w : Word) : Nat := w.toNat / 16777216

/-- The argument field of a post word, bits 15 to 0. -/
def postArgument (w : Word) : Nat := w.toNat % 65536

/-- The levels mode byte of a pane or a job: a value that is not NONE, AUTO or FIXED is used as NONE (R81, R138). -/
def levelsModeOf : Nat → LevelsMode
  | 1 => .auto
  | 2 => .fixed
  | _ => .none

/-! ## Setup record -/

/-- The capture width of R170: an odd value is first lowered by one, then a value in 2..14 is raised to 16, 0 stays. -/
def correctCaptureWidth (v : Nat) : Nat :=
  let e := v - v % 2
  if e = 0 then 0 else clampNat 16 4096 e

/-- The capture height of R170: 0 stays, 1..7 is raised to 8. -/
def correctCaptureHeight (v : Nat) : Nat := if v = 0 then 0 else clampNat 8 3072 v

/-- The watermark of R170: lowered to the corrected queue size; 0 is not raised. -/
def correctWatermark (size v : Nat) : Nat := min size v

/-- The setup record with the corrections of R170. -/
def parseSetup (r : List Byte) : Setup :=
  let size := clampNat 8 256 (fieldAt r 0x1C 2)
  { width := fieldAt r 0x04 2
    height := fieldAt r 0x06 2
    outputMode := clampNat 0 2 (fieldAt r 0x08 1)
    threshold := clampNat 1 255 (fieldAt r 0x09 1)
    motionTiles := clampNat 1 192 (fieldAt r 0x0A 1)
    quietTiles := clampNat 0 191 (fieldAt r 0x0B 1)
    motionMin := clampNat 1 63 (fieldAt r 0x0C 1)
    settleFrames := clampNat 1 63 (fieldAt r 0x0D 1)
    tolerance := clampNat 0 192 (fieldAt r 0x0E 1)
    slotWait := clampNat 1 255 (fieldAt r 0x0F 1)
    window := clampNat 2 1023 (fieldAt r 0x10 2)
    hostWait := fieldAt r 0x12 2
    autoWake := decide (fieldAt r 0x14 1 ≠ 0)
    autoCapture := decide (fieldAt r 0x15 1 ≠ 0)
    captureProfile := clampNat 0 3 (fieldAt r 0x16 1)
    captureAuto := decide (fieldAt r 0x17 1 = 1)
    captureW := correctCaptureWidth (fieldAt r 0x18 2)
    captureH := correctCaptureHeight (fieldAt r 0x1A 2)
    queueSize := size
    watermark := correctWatermark size (fieldAt r 0x1E 2)
    holdoff := clampNat 0 63 (fieldAt r 0x20 1)
    profiles := (List.range 4).map fun p =>
      (clampNat 0 127 (fieldAt r (0x24 + 2 * p) 1), clampNat 0 31 (fieldAt r (0x25 + 2 * p) 1))
    mask := BitVec.ofNat 192 (fieldAt r 0x30 24) }

/-- The generation number of a setup or layout record. -/
def recordGeneration (r : List Byte) : Nat := fieldAt r 0 4

/-- The gain and coring of a profile; a number above 3 is used as 3 (R60, R81, R138). -/
def Setup.profile (u : Setup) (p : Nat) : Nat × Nat := u.profiles.getD (min p 3) (0, 0)

/-- A tile is masked in the working setup (R19's section). -/
def Setup.masked (u : Setup) (t : Nat) : Bool := u.mask.getLsbD t

/-! ## Layout record -/

/-- A pane record as read: the pane with its corrections (R81), and the source kind byte that R76 checks. -/
structure RawPane where
  kindByte : Nat
  pane : Pane
  deriving DecidableEq, Repr

/-- Pane record n of a layout record; the current zoom is the target until R80 settles it. -/
def parsePane (r : List Byte) (n : Nat) : RawPane :=
  let q := r.drop (0x10 + 32 * n)
  let kindByte := fieldAt q 0x08 1
  let zoom := clampNat 256 4096 (fieldAt q 0x14 2)
  { kindByte := kindByte
    pane :=
      { x := fieldAt q 0x00 2
        y := fieldAt q 0x02 2
        w := fieldAt q 0x04 2
        h := fieldAt q 0x06 2
        kind := if kindByte = 0 then .live else if kindByte = 1 then .freeze else .stored
        profile := min 3 (fieldAt q 0x09 1)
        mode := levelsModeOf (fieldAt q 0x0A 1)
        rate := fieldAt q 0x0B 1
        image := fieldAt q 0x0C 4
        imageW := fieldAt q 0x10 2
        imageH := fieldAt q 0x12 2
        target := zoom
        current := zoom
        cx := fieldAt q 0x18 2
        cy := fieldAt q 0x1A 2
        black := fieldAt q 0x1C 1
        white := fieldAt q 0x1D 1 } }

/-- The layout record as read: only panes 0 to pane count − 1 are read, and there are at most four. -/
structure RawLayout where
  generation : Nat
  background : Colour
  count : Nat
  refreeze : Bool
  panes : List RawPane
  deriving DecidableEq, Repr

def parseLayout (r : List Byte) : RawLayout :=
  let count := fieldAt r 7 1
  { generation := recordGeneration r
    background := ⟨fieldAt r 4 1, fieldAt r 5 1, fieldAt r 6 1⟩
    count := count
    refreeze := decide (fieldAt r 8 1 ≠ 0)
    panes := (List.range (min 4 count)).map (parsePane r) }

/-! ## Job request, control words, slot descriptor -/

/-- The request part of a job entry; a priority above 15 is read as 15 (R136). -/
def parseRequest (r : List Byte) : Request :=
  { kind := fieldAt r 0x00 1
    priority := min 15 (fieldAt r 0x01 1)
    profile := min 3 (fieldAt r 0x02 1)
    mode := fieldAt r 0x03 1
    black := fieldAt r 0x04 1
    white := fieldAt r 0x05 1
    indexOption := decide (fieldAt r 0x06 1 ≠ 0)
    page := fieldAt r 0x08 2
    source := fieldAt r 0x0C 4
    ws := fieldAt r 0x10 2
    hs := fieldAt r 0x12 2
    destination := fieldAt r 0x14 4
    capacity := fieldAt r 0x18 4
    wd := fieldAt r 0x1C 2
    hd := fieldAt r 0x1E 2
    zoom := fieldAt r 0x20 2
    cx := fieldAt r 0x24 2
    cy := fieldAt r 0x26 2 }

/-- The chain head address of the control words. -/
def parseHead (r : List Byte) : Nat := fieldAt r 0 4

/-- A slot descriptor's owner byte reads as DEVICE only when it is 1 (R189). -/
def ownedByDevice (r : List Byte) : Bool := decide (fieldAt r 0 1 = 1)

/-- The host-written fields of a slot descriptor (R115). -/
def parseDescriptor (addr : Nat) (r : List Byte) : Descriptor :=
  { addr := addr, buffer := fieldAt r 4 4, capacity := fieldAt r 8 4, next := fieldAt r 12 4 }

/-- How many bytes a record read takes in (R155), from the reader and the bytes it has already: the layout read goes on past
its first 16 bytes for the panes of its pane count only (R75's section, assumption log 20). So those 16 bytes are read by a burst of
their own, ahead of the panes (the model's choice, assumption log 43). -/
def readLength : Reader → List Byte → Nat
  | .layout, got => if got.length < 16 then 16 else 16 + 32 * min 4 (fieldAt got 7 1)
  | .setup, _ => 512
  | .control, _ => 4
  | .descriptor, _ => 32
  | .job _, _ => 48
  | .none, _ => 32

/-! ## Device-written records -/

/-- The bytes of an index entry after its state byte (page index entry, offsets 1 to 0x3F). -/
def IndexEntry.fieldBytes (e : IndexEntry) : List Byte :=
  leBytes 1 e.seen ++ leBytes 2 e.page ++ leBytes 4 e.captureFrame ++ leBytes 4 e.lastSeen ++ leBytes 4 e.image
    ++ leBytes 48 e.signature.toNat

/-- Address of index entry n. -/
def indexAddr (n : Nat) : Nat := Config.indexBase + 64 * n

/-- The outcome bytes after the state byte (job entry, offsets 0x31 to 0x3F), the reserved ones as zeros (R189, assumption log 42). -/
def JobEntry.fieldBytes (e : JobEntry) : List Byte :=
  leBytes 1 e.reason ++ leBytes 1 e.index ++ zeros 1 ++ leBytes 4 e.pieces ++ zeros 8

/-- Address of job entry n. -/
def jobAddr (n : Nat) : Nat := Config.jobBase + 64 * n

/-- The 16 bytes of an event record. -/
def eventBytes (kind small seq frame a b : Nat) : List Byte :=
  leBytes 1 kind ++ leBytes 1 small ++ leBytes 2 seq ++ leBytes 4 frame ++ leBytes 4 a ++ leBytes 4 b

end Sys2Proof.Machine
end

