-- ==== Sys2Proof/Machine/Resample.lean ====
section
/-! DEFINITION. The arithmetic of 03_resampling_arithmetic.md, from the fit step to the levels stretch, and the pieces and
margins of R64 to R66. All of it is on integers; a source byte is read through a getter from addresses to byte values. -/

namespace Sys2Proof.Machine

/-- Reads a source byte as a number. -/
abbrev Getter := Nat → Nat

/-! ## Fit, zoom and window (R45 to R51) -/

/-- The zoom clamped into 256..4096 (R45). -/
def Render.clampedZoom (r : Render) : Nat := clampNat 256 4096 r.zoom

/-- S_fit (R46). -/
def Render.fitStep (r : Render) : Nat := max (ceilDiv (r.ws * 65536) r.wp) (ceilDiv (r.hs * 65536) r.hp)

/-- S (R47). -/
def Render.step (r : Render) : Nat := r.fitStep * 256 / r.clampedZoom

/-- The window origin along one axis: clamped when the window is no wider than the source (R48, R50), centred on the source
when it is wider (R49, R50). `extent` is the source size in position units. -/
def axisOrigin (centre window extent : Nat) : Int :=
  if window ≤ extent then clampInt 0 ((extent : Int) - window) ((centre * 4096 : Nat) - ((window / 2 : Nat) : Int))
  else ((extent : Int) - window) / 2

def Render.windowW (r : Render) : Nat := r.wp * r.step
def Render.windowH (r : Render) : Nat := r.hp * r.step
def Render.originX (r : Render) : Int := axisOrigin r.cx r.windowW (r.ws * 65536)
def Render.originY (r : Render) : Int := axisOrigin r.cy r.windowH (r.hs * 65536)

/-- The centre used along one axis, in 1/16 pixel (R51). -/
def axisCentre (origin : Int) (window : Nat) : Nat := ((origin + ((window / 2 : Nat) : Int)) / 4096).toNat

def Render.centreX (r : Render) : Nat := axisCentre r.originX r.windowW
def Render.centreY (r : Render) : Nat := axisCentre r.originY r.windowH

/-! ## From output pixel to source position (R52 to R54) -/

/-- The centre of output column or row i (R52). -/
def pixelCentre (origin : Int) (step i : Nat) : Int := origin + ((i * step + step / 2 : Nat) : Int)

def Render.columnCentre (r : Render) (i : Nat) : Int := pixelCentre r.originX r.step i
def Render.rowCentre (r : Render) (j : Nat) : Int := pixelCentre r.originY r.step j

def Render.columnInside (r : Render) (i : Nat) : Bool :=
  decide (0 ≤ r.columnCentre i) && decide (r.columnCentre i < ((r.ws * 65536 : Nat) : Int))

def Render.rowInside (r : Render) (j : Nat) : Bool :=
  decide (0 ≤ r.rowCentre j) && decide (r.rowCentre j < ((r.hs * 65536 : Nat) : Int))

/-- The pixel is inside the source; any other pixel is background (R52). -/
def Render.inside (r : Render) (i j : Nat) : Bool := r.columnInside i && r.rowInside j

/-- The sample column or row left of or above a position moved back by half a pixel, and the weight (R53). -/
def sampleAt (u : Int) : Int × Nat := (u / 65536, (u % 65536).toNat / 256)

/-- A column or row clamped into 0..n − 1 (R54). -/
def clampIndex (x : Int) (n : Nat) : Nat := (clampInt 0 ((n : Int) - 1) x).toNat

def Render.lumaColumn (r : Render) (i : Nat) : Int × Nat := sampleAt (r.columnCentre i - 32768)
def Render.lumaRow (r : Render) (j : Nat) : Int × Nat := sampleAt (r.rowCentre j - 32768)

/-- The chroma pair column and weight of output column i: u halved (R56). -/
def Render.chromaColumn (r : Render) (i : Nat) : Int × Nat := sampleAt ((r.columnCentre i - 32768) / 2)

/-- Address of the luma sample (x, y) of the source (R63). -/
def Render.lumaAddr (r : Render) (x y : Nat) : Nat := r.source + y * r.ws + x

/-- Address of the Cb byte of chroma pair k of source row y (R63). -/
def Render.chromaAddr (r : Render) (k y : Nat) : Nat := r.source + r.ws * r.hs + y * r.ws + 2 * k

/-- The two clamped columns and two clamped rows that output pixel (i, j) reads luma from (R54). -/
def Render.lumaTaps (r : Render) (i j : Nat) : Nat × Nat × Nat × Nat :=
  let x := (r.lumaColumn i).1
  let y := (r.lumaRow j).1
  (clampIndex x r.ws, clampIndex (x + 1) r.ws, clampIndex y r.hs, clampIndex (y + 1) r.hs)

/-- The two clamped pair columns and two clamped rows that output pixel (i, j), i even, reads chroma from (R56). -/
def Render.chromaTaps (r : Render) (i j : Nat) : Nat × Nat × Nat × Nat :=
  let x := (r.chromaColumn i).1
  let y := (r.lumaRow j).1
  (clampIndex x (r.ws / 2), clampIndex (x + 1) (r.ws / 2), clampIndex y r.hs, clampIndex (y + 1) r.hs)

/-! ## Interpolation (R55 to R57) -/

/-- The weights formula of R55. -/
def blend (p00 p10 p01 p11 fx fy : Nat) : Nat :=
  let top := p00 * (256 - fx) + p10 * fx
  let bottom := p01 * (256 - fx) + p11 * fx
  (top * (256 - fy) + bottom * fy + 32768) / 65536

/-- The interpolated luma of a pixel inside the source (R55). -/
def Render.interpolate (r : Render) (rd : Getter) (i j : Nat) : Nat :=
  let (x0, x1, y0, y1) := r.lumaTaps i j
  blend (rd (r.lumaAddr x0 y0)) (rd (r.lumaAddr x1 y0)) (rd (r.lumaAddr x0 y1)) (rd (r.lumaAddr x1 y1))
    (r.lumaColumn i).2 (r.lumaRow j).2

/-- One chroma component of the pair of output pixels (i, i + 1), i even and inside: 0 for Cb, 1 for Cr (R56). -/
def Render.chroma (r : Render) (rd : Getter) (component i j : Nat) : Nat :=
  let (x0, x1, y0, y1) := r.chromaTaps i j
  blend (rd (r.chromaAddr x0 y0 + component)) (rd (r.chromaAddr x1 y0 + component))
    (rd (r.chromaAddr x0 y1 + component)) (rd (r.chromaAddr x1 y1 + component)) (r.chromaColumn i).2 (r.lumaRow j).2

/-! ## Sharpening (R58, R59) -/

/-- The column or row before, and after, clamped into the target (R59). -/
def before (i : Nat) : Nat := i - 1
def after (n i : Nat) : Nat := min (n - 1) (i + 1)

/-- The value a neighbour enters with: the interpolated one, or the pixel's own where the neighbour is background (R59). -/
def Render.neighbour (r : Render) (rd : Getter) (c i j : Nat) : Nat :=
  if r.inside i j then r.interpolate rd i j else c

/-- The correction of R58 from a pixel's value, its blur, the gain and the coring. -/
def sharpenValue (c blur gain coring : Nat) : Nat :=
  let d : Int := (c : Int) - blur
  let d' : Int := if d.natAbs ≤ coring then 0 else d - Int.sign d * coring
  let magnitude : Nat := (d'.natAbs * gain + 8) / 16
  (clampInt 0 255 ((c : Int) + Int.sign d' * magnitude)).toNat

/-- The blur of R58 over the eight neighbours of R59. -/
def Render.blur (r : Render) (rd : Getter) (c i j : Nat) : Nat :=
  let l := before i
  let e := after r.wp i
  let u := before j
  let b := after r.hp j
  let v := r.neighbour rd c
  (4 * c + 2 * (v i u + v i b + v e j + v l j) + (v e u + v l u + v e b + v l b) + 8) / 16

/-- The sharpened value of an inside pixel (R58). -/
def Render.sharpen (r : Render) (rd : Getter) (i j : Nat) : Nat :=
  let c := r.interpolate rd i j
  if r.gain = 0 then c else sharpenValue c (r.blur rd c i j) r.gain r.coring

/-! ## Levels (R61, R62) -/

/-- The stretch of R61: the levels a unit that starts with these latched levels uses, none for no stretch. -/
def Render.stretch (r : Render) (latched : Levels) : Option (Nat × Nat) :=
  match r.mode with
  | .none => none
  | .fixed => if r.black < r.white then some (r.black, r.white) else none
  | .auto =>
    match r.copy with
    | some c => if c.valid then some (c.black, c.white) else none
    | none => if latched.valid then some (latched.black, latched.white) else none

/-- The output luma of R62. -/
def stretchValue (levels : Option (Nat × Nat)) (out : Nat) : Nat :=
  match levels with
  | none => out
  | some (b, w) =>
    (clampInt 0 255 ((((out : Int) - b) * 255 + (((w - b) / 2 : Nat) : Int)) / ((w : Int) - b))).toNat

/-- The output luma of pixel (i, j) of a render (R52 to R62). -/
def Part.luma (p : Part) (rd : Getter) (i j : Nat) : Nat :=
  if p.render.inside i j then stretchValue p.stretch (p.render.sharpen rd i j) else p.render.background.y

/-- The output chroma of the pair that pixel (i, j) belongs to: 0 for Cb, 1 for Cr (R56, R57). -/
def Part.chroma (p : Part) (rd : Getter) (component i j : Nat) : Nat :=
  let e := i - i % 2
  if p.render.inside e j then p.render.chroma rd component e j
  else if component = 0 then p.render.background.cb else p.render.background.cr

/-! ## Pieces (R64, R66) -/

/-- Pieces across a band of a target of width w. -/
def piecesAcross (w : Nat) : Nat := ceilDiv w 1024

/-- Pieces of a render of target w × h (R64). -/
def pieceCount (w h : Nat) : Nat := piecesAcross w * ceilDiv h 8

/-- The column, width, row and height of piece n (R64): left to right across a band, band after band from the top. -/
def pieceArea (w h n : Nat) : Nat × Nat × Nat × Nat :=
  let col := n % piecesAcross w * 1024
  let row := n / piecesAcross w * 8
  (col, min 1024 (w - col), row, min 8 (h - row))

/-- The part that piece n of a render covers, with the stretch taken at its start. -/
def pieceOf (r : Render) (latched : Levels) (n : Nat) : Part :=
  let (col, cols, row, rows) := pieceArea r.wp r.hp n
  { render := r, stretch := r.stretch latched, col := col, cols := cols, row := row, rows := rows, rasterX := 0 }

/-- The part that piece n of a signature covers: an area of the source (R66). -/
def signaturePieceOf (r : Render) (n : Nat) : Part :=
  let (col, cols, row, rows) := pieceArea r.ws r.hs n
  { render := r, stretch := none, col := col, cols := cols, row := row, rows := rows, rasterX := 0 }

/-- The pixels of a part, row by row. -/
def Part.pixels (p : Part) : List (Nat × Nat) :=
  (List.range p.rows).flatMap fun j => (List.range p.cols).map fun i => (p.col + i, p.row + j)

/-- The destination bytes of a part with their values (R63): the luma of each pixel, and Cb and Cr of each pair. -/
def Part.cells (p : Part) (rd : Getter) : List (Nat × Byte) :=
  let r := p.render
  ((List.range p.rows).flatMap fun dj =>
    let j := p.row + dj
    (List.range p.cols).map fun di =>
      (r.destination + j * r.wp + (p.col + di), BitVec.ofNat 8 (p.luma rd (p.col + di) j)))
  ++ ((List.range p.rows).flatMap fun dj =>
    let j := p.row + dj
    (List.range p.cols).map fun di =>
      let i := p.col + di
      (r.destination + r.wp * r.hp + j * r.wp + i, BitVec.ofNat 8 (p.chroma rd (i % 2) i j)))

/-! ## The source bytes a unit reads (R54, R56, R58, R65, R66) -/

/-- The luma addresses that the interpolated value of (i, j) is made from. -/
def Render.lumaReads (r : Render) (i j : Nat) : List Nat :=
  if r.inside i j then
    let (x0, x1, y0, y1) := r.lumaTaps i j
    [r.lumaAddr x0 y0, r.lumaAddr x1 y0, r.lumaAddr x0 y1, r.lumaAddr x1 y1]
  else []

/-- The chroma addresses that the pair of (i, j), i even, is made from. -/
def Render.chromaReads (r : Render) (i j : Nat) : List Nat :=
  if i % 2 = 0 && r.inside i j then
    let (x0, x1, y0, y1) := r.chromaTaps i j
    [r.chromaAddr x0 y0, r.chromaAddr x1 y0, r.chromaAddr x0 y1, r.chromaAddr x1 y1].flatMap fun a => [a, a + 1]
  else []

/-- How far the margin of a part reaches: with a gain of 0 nothing is sharpened and no margin is read (R58, R65). -/
def Part.margin (p : Part) : Nat := if p.render.gain = 0 then 0 else 1

/-- The positions from `m` before `first` to `m` after `first + count − 1`, as far as they lie in a target of `size`. -/
def widened (m first count size : Nat) : List Nat :=
  let lo := first - m
  (List.range (min (first + count + m) (max size (first + count)) - lo)).map (lo + ·)

/-- The source bytes that a part needs: the chroma of its own pixels, and the luma of its own pixels and of the whole margin within
the target, whether or not the pixel beside it is background (R54, R56, R65). -/
def Part.reads (p : Part) : List Nat :=
  (p.pixels.flatMap fun (i, j) => p.render.chromaReads i j)
    ++ (widened p.margin p.row p.rows p.render.hp).flatMap fun j =>
      (widened p.margin p.col p.cols p.render.wp).flatMap fun i => p.render.lumaReads i j

/-- The source bytes that the output luma of an inside pixel is made from: its own interpolated value, and those of its neighbours
where it is sharpened (R55, R58, R59). -/
def Part.lumaNeeds (p : Part) (i j : Nat) : List Nat :=
  if p.render.inside i j then
    (widened p.margin j 1 p.render.hp).flatMap fun y => (widened p.margin i 1 p.render.wp).flatMap fun x => p.render.lumaReads x y
  else []

/-- The source bytes that the destination byte at an address is made from (R55, R56, R58, R63): a write of it comes after their
reads, since the values are computed before they are written (R65). -/
def Part.readsFor (p : Part) (a : Nat) : List Nat :=
  let r := p.render
  p.pixels.flatMap fun (i, j) =>
    (if r.destination + j * r.wp + i = a then p.lumaNeeds i j else [])
      ++ if r.destination + r.wp * r.hp + j * r.wp + i = a then r.chromaReads (i - i % 2) j else []

/-- The destination addresses of a part (R63): the luma of each pixel, and Cb and Cr of each pair. -/
def Part.destinations (p : Part) : List Nat :=
  let r := p.render
  (p.pixels.map fun (i, j) => r.destination + j * r.wp + i)
    ++ p.pixels.map fun (i, j) => r.destination + r.wp * r.hp + j * r.wp + i

/-- The luma addresses that a signature piece adds. -/
def Part.signatureReads (p : Part) : List Nat := p.pixels.map fun (x, y) => p.render.lumaAddr x y

/-! ## Tile sums (R12, R66) -/

/-- The tile that sample (x, y) of a frame or source of w × h lies in, if any (R12, R66). -/
def tileOf (w h x y : Nat) : Option Nat :=
  let c := x / (w / 16)
  let r := y / (h / 12)
  if c < 16 ∧ r < 12 then some (r * 16 + c) else none

/-- Adds a sample to the sum of its tile. -/
def addSample (sums : List Nat) (w h x y v : Nat) : List Nat :=
  match tileOf w h x y with
  | some t => sums.modify t (· + v)
  | none => sums

/-- No sums yet. -/
def noSums : List Nat := List.replicate 192 0

/-- The tile means of R12 and R66. -/
def tileMeans (sums : List Nat) (w h : Nat) : List Nat := sums.map (· / ((w / 16) * (h / 12)))

/-- The sums with every sample of a signature piece added (R66). -/
def Part.addSamples (p : Part) (rd : Getter) (sums : List Nat) : List Nat :=
  p.pixels.foldl (fun s (x, y) => addSample s p.render.ws p.render.hs x y (rd (p.render.lumaAddr x y))) sums

/-! ## Levels and signatures from tile means (R27, R28, R143) -/

/-- The means of the unmasked tiles, in tile order. -/
def unmaskedMeans (u : Setup) (means : List Nat) : List Nat :=
  means.zipIdx.filterMap fun (m, t) => if u.masked t then none else some m

/-- The levels of R27 from the means of the unmasked tiles. -/
def levelsOf (u : Setup) (means : List Nat) : Levels :=
  match unmaskedMeans u means with
  | [] => { black := 0, white := 0, valid := false }
  | m :: ms =>
    let b := ms.foldl min m
    let w := ms.foldl max m
    { black := b, white := w, valid := decide (16 ≤ w - b) }

/-- The code of a tile with mean m (R28). -/
def codeOf (l : Levels) (m : Nat) : Nat :=
  if l.valid then (clampInt 0 3 (4 * ((m : Int) - l.black) / ((l.white : Int) - l.black + 1))).toNat else m / 64

/-- The signature of R28, packed two bits a tile. -/
def signatureOf (u : Setup) (means : List Nat) (l : Levels) : Signature :=
  BitVec.ofNat 384 (means.zipIdx.foldr (fun (m, t) acc => (if u.masked t then 0 else codeOf l m % 4) + 4 * acc) 0)

/-- The code of tile t in a signature. -/
def Signature.code (g : Signature) (t : Nat) : Nat := (g.toNat / 4 ^ t) % 4

/-- The distance of R29: unmasked tiles whose codes differ. -/
def signatureDistance (u : Setup) (a b : Signature) : Nat :=
  (List.range 192).countP fun t => !u.masked t && decide (Signature.code a t ≠ Signature.code b t)

end Sys2Proof.Machine
end

