-- ==== Sys2Proof/Machine/Flags.lean ====
section
/-! DEFINITION. The flags of the part: the six causes and their enables, the interrupt line, and the five registers as the host
reads them (R165, R166, Registers). -/

namespace Sys2Proof.Machine

/-- The bit of a cause in CAUSE and MASK (Registers). -/
def Cause.bit : Cause → Nat
  | .eventsReady => 0
  | .eventsLost => 1
  | .postOverflow => 2
  | .access => 3
  | .powerSafe => 4
  | .memoryFault => 5

/-- A cause register with one cause set; setting a cause already set leaves it set (R166). -/
def withCause (r : BitVec 6) (c : Cause) : BitVec 6 := r ||| (1#6 <<< c.bit)

/-- A cause is set in a register. -/
def hasCause (r : BitVec 6) (c : Cause) : Bool := r.getLsbD c.bit

/-- Sets a cause (R166). -/
def State.setCause (s : State) (c : Cause) : State := { s with post.cause := withCause s.post.cause c }

/-- The interrupt line: asserted while any cause that is also enabled is set (R166). -/
def State.interruptLine (s : State) : Bool := decide (s.post.cause &&& s.post.mask ≠ 0#6)

/-- The SYSCTL mode request field, bits 9 and 8. -/
def sysctlRequest (w : Word) : Nat := w.toNat / 256 % 4

/-- What a host read of a register returns (R165, R166, Registers). -/
def State.readRegister (s : State) : Register → Word
  | .id => 0x05630001#32
  | .sysctl => BitVec.ofNat 32 s.control.mode.value
  | .post => 0#32
  | .cause => s.post.cause.setWidth 32
  | .mask => s.post.mask.setWidth 32

/-- Register writes have an effect from the release of reset onward (R165). -/
def State.registersAnswer (s : State) : Bool := decide (s.control.mode ≠ .reset)

end Sys2Proof.Machine
end

