-- ==== Sys2Proof/Machine/Ops.lean ====
section
/-! DEFINITION. The operations that the blocks share: record operations in order (R155), live fields of the status area (R177),
events raised and taken (R174), moderation (R176), error-correcting code (R161 to R163), the pin pool (R10), the page index
(R34 to R42), the engine's taking of work (R94), and the arbiter (R157 to R160). -/

namespace Sys2Proof.Machine

/-! ## The arbiter (R157 to R160) -/

/-- Base address of a slot (R8's table). -/
def slotAddr (n : Nat) : Nat := Config.slotsBase + Config.slotBytes * n

/-- The frame a byte of the intake buffer belongs to has this slot and geometry, once its slot is chosen. -/
def Intake.placeOf (i : Intake) (ofPending : Bool) : Option (Nat × Geometry) :=
  if ofPending then i.pendingFrame.map fun p => (p.slot, p.geometry)
  else
    match i.target, i.geometry with
    | .slot n, some g => some (n, g)
    | _, _ => none

/-- The bytes of one frame and plane still in the buffer, oldest first. -/
def Intake.planeBytes (i : Intake) (ofPending chroma : Bool) : List BufferByte :=
  i.buffer.filter fun b => decide (b.ofPending = ofPending) && decide (b.chroma = chroma)

/-- Does a byte end its plane of a frame of this geometry (R5)? -/
def endsPlane (g : Geometry) (b : BufferByte) : Bool :=
  decide (b.offset + 1 = if b.chroma then 2 * g.w * g.h else g.w * g.h)

/-- The burst a plane has ready, if any (R5): up to the next 64-byte boundary of the slot address, or to the plane's last
byte. -/
def Intake.planeBurst (i : Intake) (ofPending chroma : Bool) : Option (Nat × List BufferByte) :=
  match i.placeOf ofPending, i.planeBytes ofPending chroma with
  | some (n, g), b :: bs =>
    let a := slotAddr n + b.offset
    let room := 64 - a % 64
    let take := (b :: bs).take room
    if room ≤ (b :: bs).length ∨ take.any (endsPlane g) then some (a, take) else none
  | _, _ => none

/-- The next burst of the intake (R5): of the planes with a burst ready, the one whose oldest byte arrived first. A plane's
oldest bytes are those of the pending frame while there are any. -/
def Intake.nextBurst (i : Intake) : Option (Nat × List BufferByte) :=
  let front (chroma : Bool) : Option (BufferByte × (Nat × List BufferByte)) :=
    match i.buffer.find? fun b => decide (b.chroma = chroma) with
    | some b => (i.planeBurst b.ofPending chroma).map fun t => (b, t)
    | none => none
  match front false, front true with
  | some (bl, tl), some (bc, tc) => if i.buffer.idxOf bl < i.buffer.idxOf bc then some tl else some tc
  | some (_, tl), none => some tl
  | none, some (_, tc) => some tc
  | none, none => none

/-- A requester is waiting: it has a transfer ready (R157). The host bridge's access is held until the end of BOOT (R154). -/
def State.waits (s : State) : Requester → Bool
  | .intake => s.intake.nextBurst.isSome
  | .engine => s.engine.unit.any EngineUnit.ready
  | .record => decide (s.port.queue ≠ [])
  | .host => s.port.bridge.isSome && decide (s.control.mode ≠ .reset) && decide (s.control.mode ≠ .boot)

def PassCounts.of (p : PassCounts) : Requester → Nat
  | .intake => p.intake
  | .engine => p.engine
  | .record => p.record
  | .host => p.host

/-- A requester is urgent (R159). -/
def State.urgent (s : State) (q : Requester) : Bool :=
  decide (4 ≤ s.port.pass.of q) ||
    match q with
    | .intake => decide (Config.bufferBytes / 2 ≤ s.intake.buffer.length)
    | .engine => s.engine.unit.any fun u => match u.work with | .strip _ _ => true | _ => false
    | _ => false

/-- The ring order starting with the one after the requester last granted (R160). -/
def ringOrder : Option Requester → List Requester
  | none | some .host => [.intake, .engine, .record, .host]
  | some .intake => [.engine, .record, .host, .intake]
  | some .engine => [.record, .host, .intake, .engine]
  | some .record => [.host, .intake, .engine, .record]

/-- The requester that the next grant goes to (R160). -/
def State.arbitrate (s : State) : Option Requester :=
  match [Requester.intake, .engine, .host, .record].find? fun q => s.waits q && s.urgent q with
  | some q => some q
  | none => (ringOrder s.port.last).find? s.waits

/-- A pass-over count at a grant to another requester or its own (R159). -/
def passAt (granted q : Requester) (waiting : Bool) (n : Nat) : Nat :=
  if granted = q then 0 else if waiting then min 4 (n + 1) else 0

/-- The arbiter makes grants: not in RESET, and not while BOOT clears the control block (R154). -/
def State.arbiterOn (s : State) : Bool := decide (s.control.mode ≠ .reset) && decide (s.port.boot ≠ .clearing)

/-- Makes the next grant if a requester waits and no grant is in progress: at the end of a grant, and at the arrival of a request
at an idle DRAM (R158, R160). Of two requests that one command makes at an idle DRAM, the one made first in the command's own
order of acts is granted; those that arrive in one act go by R160. At the end of a grant, a request that the same command has made
before it counts as waiting (assumption log 34). -/
def State.makeGrant (s : State) : State :=
  if s.port.grant.isSome || !s.arbiterOn then s
  else
    match s.arbitrate with
    | none => s
    | some q =>
      { s with
        port.grant := some ⟨q, 0, 8⟩
        port.last := some q
        port.pass :=
          { intake := passAt q .intake (s.waits .intake) s.port.pass.intake
            engine := passAt q .engine (s.waits .engine) s.port.pass.engine
            record := passAt q .record (s.waits .record) s.port.pass.record
            host := passAt q .host (s.waits .host) s.port.pass.host } }

/-- A requester that has stopped waiting has its pass-over count back at 0 (R159). -/
def State.settleCounts (s : State) : State :=
  { s with
    port.pass :=
      { intake := if s.waits .intake then s.port.pass.intake else 0
        engine := if s.waits .engine then s.port.pass.engine else 0
        record := if s.waits .record then s.port.pass.record else 0
        host := if s.waits .host then s.port.pass.host else 0 } }

/-- A grant ends as soon as its requester has no transfer ready (R158). -/
def State.endEmptyGrant (s : State) : State :=
  match s.port.grant with
  | some g => if s.waits g.who then s else { s with port.grant := none }
  | none => s

/-- The arbiter after transfers have been made or withdrawn: counts, an ended grant, the next grant. It is judged with every request that
the command has made until then (assumption log 34). -/
def State.settle (s : State) : State := if s.arbiterOn then s.settleCounts.endEmptyGrant.makeGrant else s

/-! ## Waiting for room in the record queue (R155)

A block that finds the record queue full waits for room, and what it sends on after that operation goes out when it is admitted, in
the order in which it was sent. While it waits it takes no command (assumption log 22). -/

/-- The blocks whose order an output keeps: the block whose act it is, and the block that issues the record for it. A live field or a
record of the post port is a notice to it, and keeps the order of the block that gives it alone. -/
def Output.blocks (o : Output) : List Block :=
  match o.sent with
  | .op issuer _ => if issuer = .post then [o.actor] else [o.actor, issuer]
  | _ => [o.actor]

/-- The block waits for room in the record queue: an operation of its own waits, or something it has sent on, or has issued for
another block, waits behind such an operation. -/
def State.waiting (s : State) (b : Block) : Bool :=
  (s.port.blocked.any fun w => w.blocks.contains b) || s.port.later.any fun o => o.blocks.contains b

/-- The block does not wait for room in the record queue. -/
def State.free (s : State) (b : Block) : Bool := !s.waiting b

/-- What is sent goes on behind what waits already. -/
def State.hold (s : State) (o : Output) : State := { s with port.later := s.port.later ++ [o] }

/-- The block that waits when an operation of the issuer, asked for by the actor, waits: live fields and records of the post port are
notices to it, and no one waits for them but the post port; any other issuer acts for the one that asks (R155). -/
def waitsFor (issuer actor : Block) : Block := if issuer = .post then .post else actor

/-- A record operation joins the queue, or waits for room behind the operations already waiting (R155). -/
def State.join (s : State) (issuer actor : Block) (op : RecordOp) : State :=
  if s.port.blocked = [] ∧ s.port.queue.length < Config.recordRoom then
    { s with port.queue := s.port.queue ++ [op] }.makeGrant
  else
    let blocks := if waitsFor issuer actor = issuer then [issuer] else [issuer, waitsFor issuer actor]
    { s with port.blocked := s.port.blocked ++ [⟨blocks, op⟩] }

/-- What a block that does not wait sends. An operation whose issuer waits goes on behind that block's wait, so that each block's
operations keep their order (R34, R155). -/
def State.put (s : State) (actor : Block) : Sent → State
  | .op issuer op =>
    if s.waiting issuer then s.hold ⟨waitsFor issuer actor, .op issuer op⟩ else s.join issuer actor op
  | .event kind small a b =>
    { s with
      post.raised := s.post.raised ++ [⟨actor, kind, small, a, b, s.intake.frameNumber, decide (actor ≠ .mode)⟩] }
  | .cause c => s.setCause c
  | .safe => { s with control.safeAfter := some (s.port.queue.length + s.port.blocked.length) }

/-- A block sends something on: at once, or behind the wait it is in. -/
def State.emit (s : State) (actor : Block) (x : Sent) : State :=
  if s.waiting actor then s.hold ⟨actor, x⟩ else s.put actor x

/-- What was sent on behind a wait goes out, in its order. -/
def State.emitAll (s : State) (l : List Output) : State := l.foldl (fun t o => t.emit o.actor o.sent) s

/-- What waits behind the operations that waited goes out, but for what still has to wait. -/
def State.release (s : State) : State := { s with port.later := [] }.emitAll s.port.later

/-! ## Record operations (R155) -/

/-- A block has a record operation issued, by itself or by the block that owns the record. -/
def State.issue (s : State) (actor issuer : Block) (op : RecordOp) : State := s.emit actor (.op issuer op)

/-- A record write: runs of bytes in their order, each cut into bursts (R157, R190). Fields of one write that lie side by side are
one run, and so go in one burst where they share a 64-byte block. R155 and R190 fix which run is the last; of the others, each meaning
gives the one at the lower address first. A write carries the fields that the operation changes, and not the other bytes of the state's
word (R34, R131, R190; the model's choices, assumption log 35). -/
def State.issueWrite (s : State) (actor issuer : Block) (runs : List (Nat × List Byte)) : State :=
  s.issue actor issuer (.write (runs.flatMap burstsOf))

/-- The write of one live field of the status area, an operation of its own that the post port issues at the notice of the block
whose field it is (R177, R190). -/
def State.liveField (s : State) (actor : Block) (off size value : Nat) : State :=
  s.issueWrite actor .post [(off, leBytes size value)]

/-! ## Live fields (R177): each is written whenever it changes -/

def State.setCredit (s : State) (n : Nat) : State :=
  if s.capture.credit = n then s else { s with capture.credit := n }.liveField .capture 0x0C 1 n

def State.setChain (s : State) (on : Bool) : State :=
  if s.capture.running = on then s else { s with capture.running := on }.liveField .capture 0x03 1 (boolByte on)

def State.setLesson (s : State) (on : Bool) : State :=
  if s.capture.lessonOpen = on then s else { s with capture.lessonOpen := on }.liveField .capture 0x01 1 (boolByte on)

def State.setCounter (s : State) (n : Nat) : State :=
  if s.capture.counter = n then s else { s with capture.counter := n }.liveField .capture 0x0A 2 n

def State.setContextState (s : State) (c : ContextState) : State :=
  if s.capture.context.state = c then s
  else { s with capture.context.state := c }.liveField .capture 0x02 1 c.value

def State.setInstability (s : State) (n : Nat) : State :=
  if s.intake.instability = n then s else { s with intake.instability := n }.liveField .intake 0x0D 1 n

def State.setSuspended (s : State) (on : Bool) : State :=
  if s.intake.suspended = on then s else { s with intake.suspended := on }.liveField .intake 0x0E 1 (boolByte on)

/-- A scan in progress will start nothing (R137). -/
def State.voidScan (s : State) : State := { s with jobs.scan := s.jobs.scan.map fun x => { x with void := true } }

/-- The degraded flag; a scan during which it is set starts nothing (R137). -/
def State.setDegraded (s : State) (on : Bool) : State :=
  if s.feeder.degraded = on then s
  else (if on then { s with feeder.degraded := on }.voidScan else { s with feeder.degraded := on }).liveField .feeder 0x0F 1 (boolByte on)

def State.setPut (s : State) (n : Nat) : State :=
  if s.post.put = n then s else { s with post.put := n }.liveField .post 0x04 2 n

def State.setGet (s : State) (n : Nat) : State :=
  if s.post.get = n then s else { s with post.get := n }.liveField .post 0x06 2 n

/-- The put index after a record, written at every record (R174). -/
def State.publishPut (s : State) (n : Nat) : State := { s with post.put := n }.liveField .post 0x04 2 n

/-- The get index after an acknowledgement, written at every acknowledgement that is taken (R175). -/
def State.publishGet (s : State) (n : Nat) : State := { s with post.get := n }.liveField .post 0x06 2 n

def State.setLost (s : State) (n : Nat) : State :=
  if s.post.lost = n then s else { s with post.lost := n }.liveField .post 0x08 2 n

/-! ## Events (R174) -/

/-- A block raises an event: it waits to be taken by the post port, with the input frame number current as it arises (R13). Mode
control raises after what the other blocks of the same step have raised (R184, R187), so only its events are never taken as
raised together with the one before. -/
def State.raise (s : State) (owner : Block) (kind : EventKind) (small a b : Nat) : State :=
  s.emit owner (.event kind small a b)

/-- The first event a step raises was not raised together with the events of earlier steps. -/
def unlinkAt (n : Nat) (l : List RaisedEvent) : List RaisedEvent := l.modify n fun e => { e with linked := false }

/-- Starts the holdoff timer or stops it, with a due expiry gone. -/
def State.stopTimer (s : State) : State := { s with post.timer := none, post.holdoffDue := false }

/-- Moderation sets EVENTS_READY: the unsignalled count becomes 0 and the timer stops (R176). -/
def State.signalReady (s : State) : State := { s.stopTimer with post.unsignalled := 0 }.emit .post (.cause .eventsReady)

/-- Takes an expiry that a frame turn has made due (R176). -/
def State.resolveHoldoff (s : State) : State := if s.post.holdoffDue then s.signalReady else s

/-- Moderation after a record is written (R176). -/
def State.moderate (s : State) : State :=
  if s.post.setup.watermark ≤ s.post.fill then s.signalReady
  else if s.post.unsignalled = 0 ∧ s.post.setup.holdoff ≠ 0 then
    { s with post.unsignalled := s.post.unsignalled + 1, post.timer := some 0, post.holdoffDue := false }
  else { s with post.unsignalled := s.post.unsignalled + 1 }

/-- The position after p in a ring of this size (R173). -/
def ringNext (size p : Nat) : Nat := if p + 1 < size then p + 1 else 0

/-- The post port takes an event with room in the queue: the record at put with the frame number of the event, then the put index
(R13, R174). -/
def State.writeEvent (s : State) (kind : EventKind) (small a b frame : Nat) : State :=
  let s1 := s.issueWrite .post .post
    [(Config.eventBase + 16 * s.post.put, eventBytes kind.value small s.post.sequence frame a b)]
  let s2 := { s1 with post.fill := s.post.fill + 1, post.sequence := (s.post.sequence + 1) % 65536 }
  (s2.publishPut (ringNext s.post.setup.queueSize s.post.put)).moderate

/-- The post port takes an event that finds the queue full: it is counted and not written (R174). -/
def State.loseEvent (s : State) : State := (s.setLost (satInc 65535 s.post.lost)).emit .post (.cause .eventsLost)

/-- The post port takes an event that arose at this input frame number (R174). -/
def State.takeEvent (s : State) (kind : EventKind) (small a b frame : Nat) : State :=
  let s := s.resolveHoldoff
  if s.post.fill < s.post.setup.queueSize then s.writeEvent kind small a b frame else s.loseEvent

/-! ## Error-correcting code (R161 to R163) -/

/-- A read met an uncorrectable error: the counter, the MEMORY_FAULT cause and the event (R163). -/
def State.reportUncorrectable (s : State) (who : Requester) (word : Nat) : State :=
  let n := satInc Config.counterMax s.port.uncorrectable
  ({ s with port.uncorrectable := n }.setCause .memoryFault).raise .memory .memoryFault who.value (4 * word) n

/-- A read found a correctable error: it is counted (R162). -/
def State.countCorrectable (s : State) : State :=
  { s with port.correctable := satInc Config.counterMax s.port.correctable }

/-- The code of a word that a write touches: fresh when the write covers the whole word; otherwise the word is read and merged
(R161). -/
def State.codeWord (s : State) (who : Requester) (whole : Bool) (word : Nat) : State :=
  if whole then { s with port.weak := s.port.weak.erase word, port.bad := s.port.bad.erase word }
  else if word ∈ s.port.bad then s.reportUncorrectable who word
  else if word ∈ s.port.weak then { s.countCorrectable with port.weak := s.port.weak.erase word }
  else s

/-- The codes of `n` words from `word`, each whole when the bytes lo..hi − 1 cover it. -/
def State.codeWords (s : State) (who : Requester) (lo hi word : Nat) : Nat → State
  | 0 => s
  | n + 1 => (s.codeWord who (decide (lo ≤ 4 * word) && decide (4 * word + 4 ≤ hi)) word).codeWords who lo hi (word + 1) n

/-- A requester writes bytes at consecutive addresses (R161). -/
def State.store (s : State) (who : Requester) (addr : Nat) (bytes : List Byte) : State :=
  match bytes with
  | [] => s
  | _ =>
    let hi := addr + bytes.length
    ({ s with mem := s.mem.writeBytes addr bytes }).codeWords who addr hi (addr / 4) ((hi + 3) / 4 - addr / 4)

/-- A requester writes several runs. -/
def State.storeRuns (s : State) (who : Requester) : List (Nat × List Byte) → State
  | [] => s
  | (a, bs) :: rest => (s.store who a bs).storeRuns who rest

/-- Checks the `n` words from `word` as a read makes it: correctable ones are counted, and at the first uncorrectable one the
read is abandoned and reported (R162, R163). The flag says whether every word was readable. -/
def State.checkWords (s : State) (who : Requester) (word : Nat) : Nat → State × Bool
  | 0 => (s, true)
  | n + 1 =>
    if word ∈ s.port.bad then (s.reportUncorrectable who word, false)
    else (if word ∈ s.port.weak then s.countCorrectable else s).checkWords who (word + 1) n

/-- A requester reads `n` bytes at consecutive addresses: their bytes, or none at an uncorrectable error. -/
def State.load (s : State) (who : Requester) (addr n : Nat) : State × Option (List Byte) :=
  match s.checkWords who (addr / 4) ((addr + n + 3) / 4 - addr / 4) with
  | (s', true) => (s', some (s'.mem.readBytes addr n))
  | (s', false) => (s', none)

/-! ## Frame slots and the pin pool (R8 to R11) -/

/-- The slot with this number. -/
def Intake.slot (i : Intake) (n : Nat) : Slot := i.slots.getD n {}

def Slot.pinned (t : Slot) : Bool := t.pinFreeze || t.pinCapture || t.pinJob

def Slot.pinOf (t : Slot) : PinOwner → Bool
  | .freeze => t.pinFreeze
  | .capture => t.pinCapture
  | .job => t.pinJob

def Slot.withPin (t : Slot) (o : PinOwner) (on : Bool) : Slot :=
  match o with
  | .freeze => { t with pinFreeze := on }
  | .capture => { t with pinCapture := on }
  | .job => { t with pinJob := on }

def State.modifySlot (s : State) (n : Nat) (f : Slot → Slot) : State :=
  { s with intake.slots := s.intake.slots.modify n f }

/-- How many slots are pinned. -/
def Intake.pinnedCount (i : Intake) : Nat := i.slots.countP Slot.pinned

/-- Would the pool grant a pin on this slot (R10)? -/
def Intake.poolGrants (i : Intake) (n : Nat) : Bool := (i.slot n).pinned || decide (i.pinnedCount < 2)

/-- A slot is fillable when it is not FILLING, not newest, not held for display and not pinned (R8). -/
def Intake.fillable (i : Intake) (n : Nat) : Bool :=
  decide ((i.slot n).fill ≠ .filling) && decide (i.newest ≠ some n) && decide (i.hold ≠ some n) && !(i.slot n).pinned

/-- The slot the feeder's freeze pin is on. -/
def Intake.freezeSlot (i : Intake) : Option Nat := (List.range 5).find? fun n => (i.slot n).pinFreeze

/-- Gives an owner its pin on a slot. -/
def State.givePin (s : State) (n : Nat) (o : PinOwner) : State := s.modifySlot n fun t => t.withPin o true

/-- Takes an owner's pin off a slot, before the pool serves a waiting capture. -/
def State.dropPin (s : State) (n : Nat) (o : PinOwner) : State := s.modifySlot n fun t => t.withPin o false

/-! ## Page index (R34 to R42) -/

def Monitor.entry (m : Monitor) (n : Nat) : IndexEntry := m.index.getD n {}

def State.setEntry (s : State) (n : Nat) (e : IndexEntry) : State :=
  { s with monitor.index := s.monitor.index.set n e }

/-- Writes an entry with all its fields and its state last, for the block that asks (R34). -/
def State.writeEntry (s : State) (actor : Block) (n : Nat) (e : IndexEntry) : State :=
  (s.setEntry n e).issueWrite actor .monitor [(indexAddr n + 1, e.fieldBytes), (indexAddr n, leBytes 1 e.state.value)]

/-- Changes an entry's state alone, for the block that asks (R39, R41): the state byte is all that is written (assumption log 35). -/
def State.setEntryState (s : State) (actor : Block) (n : Nat) (st : EntryState) : State :=
  (s.setEntry n { s.monitor.entry n with state := st }).issueWrite actor .monitor [(indexAddr n, leBytes 1 st.value)]

/-- The age of an entry (R36). -/
def entryAge (frame : Nat) (e : IndexEntry) : Nat := (frame + 4294967296 - e.lastSeen % 4294967296) % 4294967296

/-- The VALID entry of the greatest age, the lowest number between equal ages (R36). -/
def evictionChoice (frame : Nat) (index : List IndexEntry) : Option Nat :=
  (index.zipIdx.foldl
    (fun best (e, n) =>
      if e.state = .valid then
        match best with
        | none => some (entryAge frame e, n)
        | some (a, _) => if a < entryAge frame e then some (entryAge frame e, n) else best
      else best)
    none).map Prod.snd

/-- Inserts an entry for the block that asks (R35): the lowest EMPTY place, or the place of the evicted entry with INDEX_EVICT
(R36). None where the index has neither, which R35 says cannot be. -/
def State.insertEntry (s : State) (actor : Block) (e : IndexEntry) : Option (State × Nat) :=
  match s.monitor.index.findIdx? fun x => decide (x.state = .empty) with
  | some n => some (s.writeEntry actor n e, n)
  | none =>
    match evictionChoice s.intake.frameNumber s.monitor.index with
    | some n =>
      let old := s.monitor.entry n
      some ((s.writeEntry actor n e).raise .monitor .indexEvict n old.page (entryAge s.intake.frameNumber old), n)
    | none => none

/-! ## Work of the engine (R92 to R101) -/

/-- What the engine reads: the bytes its bursts have brought, and the others as they stand. -/
def State.getter (s : State) (u : EngineUnit) : Getter := fun a =>
  match u.fetched.find? fun c => decide (c.1 = a) with
  | some c => c.2.toNat
  | none => (s.mem.read a).toNat

/-- The source addresses a unit needs (R54, R65, R66). -/
def EngineUnit.reads (u : EngineUnit) : List Nat :=
  match u.work with
  | .signaturePiece _ => u.parts.flatMap Part.signatureReads
  | _ => u.parts.flatMap Part.reads

/-- A pane of a layout that crosses strip k, with the rows of the pane in the strip (R71). -/
def LatchedPane.crosses (p : LatchedPane) (k : Nat) : Bool := decide (p.y ≤ 8 * k) && decide (8 * k < p.y + p.h)

/-- The part of strip k that a pane renders: 8 target rows at the full pane width (R71). -/
def LatchedPane.part (p : LatchedPane) (latched : Levels) (k : Nat) : Part :=
  { render := p.render, stretch := p.render.stretch latched, col := 0, cols := p.w, row := 8 * k - p.y, rows := 8
    rasterX := p.x }

/-- The strip the display feeder offers (R95). -/
def State.offeredStrip (s : State) : Option StripRequest :=
  if s.control.mode = .live then s.feeder.request else none

/-- The render whose next piece the capture unit offers (R95). -/
def State.offeredCapture (s : State) : Option Render :=
  match s.capture.context.render with
  | some r =>
    if s.capture.context.state = .rendering ∧ s.capture.context.next < pieceCount r.wp r.hp ∧ s.free .capture = true then some r
    else none
  | none => none

/-- The job whose next piece the job runner offers (R95), with the degraded flag clear (R94 step 3, R101). -/
def State.offeredJob (s : State) : Option RunningJob :=
  match s.jobs.running with
  | some j =>
    if j.next < j.total ∧ j.stop = none ∧ s.control.mode = .live ∧ s.feeder.degraded = false ∧ s.free .jobs = true then some j
    else none
  | none => none

/-- The first PENDING entry at or after `n`. -/
def Jobs.nextPending (j : Jobs) (n : Nat) : Option Nat :=
  (List.range 16).find? fun k => decide (n ≤ k) && decide ((j.entries.getD k {}).state = .pending)

/-- A scan goes on to the next PENDING entry at or after `n` and issues the read of its request, or has read all (R136). -/
def State.scanFrom (s : State) (sc : Scan) (n : Nat) : State :=
  match s.jobs.nextPending n with
  | some k =>
    { s with jobs.scan := some { sc with reading := some k } }.issue .jobs .jobs (.read (.job k) (jobAddr k) [])
  | none => { s with jobs.scan := some { sc with reading := none } }

/-- The runner asks for a scan and the engine grants it (R98, R135). -/
def State.scanOffered (s : State) : Bool :=
  decide (s.control.mode = .live) && decide (s.jobs.view = .live) && !s.feeder.degraded
    && decide (s.jobs.running = none) && decide (s.jobs.scan = none) && (s.jobs.nextPending 0).isSome && s.free .jobs

/-- The destination addresses a unit writes through the memory port: a strip and a signature piece write none (R157). -/
def EngineUnit.destinations (u : EngineUnit) : List Nat :=
  match u.work with
  | .capturePiece _ | .jobPiece _ => u.parts.flatMap Part.destinations
  | _ => []

/-- A unit still has reads or writes to make through the memory port (R157). -/
def EngineUnit.unfinished (u : EngineUnit) : Bool :=
  (u.reads.any fun a => !(u.fetched.any fun c => decide (c.1 = a)))
    || u.destinations.any fun a => !(u.written.contains a)

/-- The engine's unit with its transfers as they now stand. -/
def State.setUnit (s : State) (u : EngineUnit) : State := { s with engine.unit := some { u with ready := u.unfinished } }

/-- The engine takes a unit; its first transfers are a request at the arbiter (R158). -/
def State.startUnit (s : State) (w : Work) (parts : List Part) : State := (s.setUnit { work := w, parts := parts }).makeGrant

/-- The engine, IDLE, takes the strip of the feeder's request. -/
def State.startStrip (s : State) (q : StripRequest) : State :=
  s.startUnit (.strip q.strip q.buffer)
    ((s.feeder.latched.filter fun p => p.crosses q.strip).map fun p => p.part s.monitor.levels q.strip)

/-- The engine, IDLE, takes the next capture piece. -/
def State.startCapturePiece (s : State) (r : Render) : State :=
  let n := s.capture.context.next
  { s with capture.context.next := n + 1 }.startUnit (.capturePiece n) [pieceOf r s.monitor.levels n]

/-- The engine, IDLE, takes the next piece of the running job. -/
def State.startJobPiece (s : State) (j : RunningJob) : State :=
  let s' := { s with jobs.running := some { j with next := j.next + 1 } }
  match j.kind with
  | .signature => s'.startUnit (.signaturePiece j.next) [signaturePieceOf j.render j.next]
  | _ => s'.startUnit (.jobPiece j.next) [pieceOf j.render s.monitor.levels j.next]

/-- The engine takes work when it is IDLE (R94): the strip, a capture piece, job work unless degraded, otherwise a scan is
offered. -/
def State.takeWork (s : State) : State :=
  if s.engine.unit.isSome then s
  else
    match s.offeredStrip with
    | some q => s.startStrip q
    | none =>
      match s.offeredCapture with
      | some r => s.startCapturePiece r
      | none =>
        match s.offeredJob with
        | some j => s.startJobPiece j
        | none => if s.scanOffered then s.scanFrom ⟨none, [], false, []⟩ 0 else s

/-- A requester that withdraws what it still had to move: a grant it holds ends at once (R157). -/
def State.endGrantOf (s : State) (q : Requester) : State :=
  match s.port.grant with
  | some g => if g.who = q then { s with port.grant := none } else s
  | none => s

/-- The unit in progress has ended and the engine becomes IDLE (R93): it stops waiting, so its pass-over count returns to 0, a
grant it holds ends, and the next grant is made at once (R157 to R159). -/
def State.dropUnit (s : State) : State :=
  { s.endGrantOf .engine with engine.unit := none, port.pass.engine := 0 }.makeGrant

/-! ## Closing a step -/

/-- Closes a step that began in `s0`: the events it raised are marked as raised by one step, and the arbiter settles. -/
def State.close (s0 s : State) : State :=
  { s with post.raised := unlinkAt s0.post.raised.length s.post.raised }.settle

/-- Closes a step in which work may have been offered to the engine: it takes work if it is IDLE (R94, R96). -/
def State.closeWork (s0 s : State) : State := s0.close s.takeWork

end Sys2Proof.Machine
end

