-- ==== Sys2Proof/Machine/Work.lean ====
section
/-! DEFINITION. More shared operations: performing the record queue burst by burst (R155, R157), job outcomes (R131, R145), the
taking of post words (R168, R169), and changes of mode (R182, R187). -/

namespace Sys2Proof.Machine

/-! ## Job outcomes (R131) -/

def Jobs.entry (j : Jobs) (n : Nat) : JobEntry := j.entries.getD n {}

def State.setJobEntry (s : State) (n : Nat) (e : JobEntry) : State := { s with jobs.entries := s.jobs.entries.set n e }

/-- Writes an outcome whole, the state last (R131). -/
def State.writeOutcome (s : State) (n : Nat) (e : JobEntry) : State :=
  (s.setJobEntry n e).issueWrite .jobs .jobs [(jobAddr n + 0x31, e.fieldBytes), (jobAddr n + 0x30, leBytes 1 e.state.value)]

/-- Writes a count of pieces done, with the state again after it (R141). The reserved bytes of the outcome are not among the fields that
R141 names and are not written again: they are written as zeros with the outcome as a whole (R189, assumption log 42). Nor are reason and
index, which lie in the state's word and do not change (R190, assumption log 35). -/
def State.writePieces (s : State) (n done : Nat) : State :=
  let e := { s.jobs.entry n with pieces := done }
  (s.setJobEntry n e).issueWrite .jobs .jobs [(jobAddr n + 0x34, leBytes 4 done), (jobAddr n + 0x30, leBytes 1 e.state.value)]

/-- The numbers of the job reasons (R138, R144 to R146). -/
def reasonNone : Nat := 0
def reasonNoFrame : Nat := 5
def reasonNoLesson : Nat := 6
def reasonPageBusy : Nat := 8
def reasonMemory : Nat := 9
def reasonHost : Nat := 10
def reasonStandby : Nat := 11
def reasonPower : Nat := 12

/-- Ends an entry that is not the running job: steps 2 and 3 of R145 alone. -/
def State.endEntry (s : State) (n : Nat) (st : JobState) (reason : Nat) : State :=
  (s.writeOutcome n { state := st, reason := reason, pieces := 0, index := 255 }).raise .jobs .jobEnd n st.value reason

/-! ## Changes of mode (R182, R187) -/

/-- The numbers of the causes of a mode change (R182). -/
def causeBootEnd : Nat := 0
def causeHostRequest : Nat := 1
def causePresence : Nat := 2
def causeNoAnswer : Nat := 3
def causePowerWarn : Nat := 4
def causeShutdownDone : Nat := 5

/-- The blocks that a mode is announced to. -/
def announcedBlocks : List Block := [.intake, .monitor, .engine, .feeder, .capture, .jobs, .memory, .post]

/-- Mode control holds a new mode (R182): the announcements and the live field. Entry to SHUTTING stops the reaction timer and starts
the count of output frames (R186, R187). -/
def State.enterMode (s : State) (m : Mode) : State :=
  let c : ModeControl :=
    { s.control with
      mode := m
      announcements := s.control.announcements ++ announcedBlocks.map (Announcement.mk · m)
      timerOn := s.control.timerOn && decide (m ≠ .shutting)
      shuttingFrames := if m = .shutting then 0 else s.control.shuttingFrames }
  { s with control := c }.liveField .mode 0x00 1 m.value

/-- Mode control changes the mode and then raises MODE_CHANGED (R182). -/
def State.changeMode (s : State) (m : Mode) (cause : Nat) : State :=
  (s.enterMode m).raise .mode .modeChanged m.value s.control.mode.value cause

/-- An event kept for the feeder is an entry to a mode. -/
def FeederEvent.isEntry : FeederEvent → Bool
  | .entry _ => true
  | _ => false

/-- Every block has taken its entry and acted on it: none is announced, and none is kept for the feeder behind its frame turn (R72,
R182; assumption log 31). -/
def State.entriesDone (s : State) : Bool := decide (s.control.announcements = []) && !(s.feeder.deferred.any FeederEvent.isEntry)

/-- In SHUTTING, with every entry taken, the capture context IDLE and no job RUNNING, and with neither block waiting for room, the
part enters POWERDOWN and raises POWER_SAFE (R187). -/
def State.shutdownTest (s : State) : State :=
  if s.control.mode = .shutting ∧ s.entriesDone = true ∧ s.capture.context.state = .idle ∧ s.jobs.running = none
      ∧ s.free .capture = true ∧ s.free .jobs = true then
    (s.changeMode .powerdown causeShutdownDone).raise .mode .powerSafe 0 s.control.shuttingFrames s.capture.counter
  else s

/-! ## Performing the record queue -/

/-- An operation of the queue has been performed (R155); the wait for POWER_SAFE counts it (R187). -/
def State.popRecord (s : State) : State :=
  { s with port.queue := s.port.queue.tail, control.safeAfter := s.control.safeAfter.map (· - 1) }

/-- The scan has read the request of entry n, or could not (R136). The next read is issued with the burst that ended this one, so that
RECORD still waits when the grant is judged (the model's choice, assumption log 34). -/
def State.scanRead (s : State) (n : Nat) (result : ReadState) : State :=
  match s.jobs.scan with
  | none => s
  | some sc =>
    match result with
    | .got bytes => s.scanFrom { sc with got := sc.got ++ [(n, parseRequest bytes)] } (n + 1)
    | _ => (if (s.jobs.entry n).state = .pending then s.endEntry n .failed reasonMemory else s).scanFrom sc (n + 1)

/-- A record read has been performed or abandoned: its block has the result (R155, R163). -/
def State.deliver (s : State) (reader : Reader) (result : ReadState) : State :=
  match reader with
  | .layout => { s with feeder.layoutRead := result }
  | .setup => { s with post.setupRead := result }
  | .control => { s with post.controlRead := result }
  | .descriptor => { s with capture.read := result }
  | .job n => s.scanRead n result
  | .none => s

/-- Replaces the operation at the head of the queue by what is left of it. -/
def State.setHead (s : State) (op : RecordOp) : State := { s with port.queue := op :: s.port.queue.tail }

/-- How many bytes from an address stand before the next uncorrectable word (R163). -/
def State.goodPrefix (s : State) (a : Nat) : Nat :=
  ((List.range 16).filter fun i => decide (a / 4 + i ∈ s.port.bad)).head?.elim 0 fun i => 4 * (a / 4 + i) - a

/-- One burst of a record read (R156): up to the next 64-byte boundary; at an uncorrectable word the read is abandoned
(R163). R156 has a record read burst by burst, and does not say into how many bursts: that each one goes as far as R157 lets it, and
that the 16 bytes of the layout record's header are a burst of their own, is the model's choice (assumption log 43). -/
def State.recordReadBurst (s : State) (reader : Reader) (addr : Nat) (got : List Byte) : State :=
  let a := addr + got.length
  match s.load .record a (min (64 - a % 64) (readLength reader got - got.length)) with
  | (s', none) => s'.popRecord.deliver reader (.error (got ++ s.mem.readBytes a (s.goodPrefix a)))
  | (s', some bytes) =>
    let all := got ++ bytes
    if readLength reader all ≤ all.length then s'.popRecord.deliver reader (.got all)
    else s'.setHead (.read reader addr all)

/-- One burst of the operation at the head of the record queue (R157). -/
def State.recordBurst (s : State) : State :=
  match s.port.queue with
  | [] => s
  | .write [] :: _ => s.popRecord
  | .write [(a, bs)] :: _ => (s.store .record a bs).popRecord
  | .write ((a, bs) :: rest) :: _ => (s.store .record a bs).setHead (.write rest)
  | .read reader addr got :: _ => s.recordReadBurst reader addr got

/-- The block that has waited longest to issue is admitted if there is room, and goes on (R155); its wait may be the last thing that
held up the entry to POWERDOWN (R187). -/
def State.admitBlocked (s : State) : State :=
  match s.port.blocked with
  | [] => s
  | w :: rest =>
    if s.port.queue.length < Config.recordRoom then
      (({ s with port.queue := s.port.queue ++ [w.op], port.blocked := rest }.makeGrant).release).shutdownTest
    else s

/-- Performs record bursts until `enough` holds, at most `fuel` of them (assumption log 7). -/
def State.drainUntil (enough : State → Bool) : Nat → State → State
  | 0, s => s
  | n + 1, s => if enough s then s else State.drainUntil enough n s.admitBlocked.recordBurst

/-- The record operations that have been issued, or will be when the blocks that wait have been admitted. -/
def State.opsAhead (s : State) : Nat := s.port.queue.length + s.port.blocked.length + s.port.later.length

/-- More bursts than the operations now issued, and the reads of a whole scan, can take. -/
def State.drainFuel (s : State) : Nat := 64 * (s.opsAhead + 33)

/-- Performs the record queue until `enough` holds; a grant whose requester is left with nothing to move ends, and the next is made
(R158). -/
def State.drain (s : State) (enough : State → Bool) : State := (State.drainUntil enough s.drainFuel s).settle

/-- A read is no longer in the record queue: it has been performed, abandoned, or never was. -/
def ReadState.settled : ReadState → Bool
  | .waiting => false
  | _ => true

/-! ## Post words (R168, R169) -/

/-- The port takes words in every mode from STANDBY on, while it holds none in hand (R168) and does not wait for room (R155). -/
def State.portFree (s : State) : Bool :=
  decide (s.post.inHand = none) && decide (s.control.mode ≠ .reset) && decide (s.control.mode ≠ .boot) && s.free .post

/-- The blocks that act on a post word of a kind (R168's table). The display feeder is not among them: what comes while it waits for
its layout is kept for it (R72). -/
def wordOwners : Nat → List Block
  | 3 | 4 | 6 | 7 => [.capture]
  | 5 => [.monitor, .capture]
  | 8 | 9 => [.jobs]
  | 11 => [.monitor]
  | 12 => [.intake]
  | _ => []

/-- None of the blocks that act on a word of this kind waits for room (R155). -/
def State.ownersFree (s : State) (kind : Nat) : Bool := (wordOwners kind).all s.free

/-- The mode in which most kinds are allowed (R168's table). -/
def Mode.takesWords : Mode → Bool
  | .standby | .live => true
  | _ => false

/-- The reaction timer stops (R185). -/
def State.stopReaction (s : State) : State := { s with control.timerOn := false }

/-- A word is taken from the head of the FIFO; mode control is told of it in STANDBY and LIVE (R168, R185). -/
def State.wordTaken (s : State) (rest : List Word) : State :=
  let s' := { s with post.fifo := rest }
  if s.control.mode.takesWords then s'.stopReaction else s'

/-- POST_REFUSED with the word's kind and argument (R169). -/
def State.refuse (s : State) (reason : Nat) (w : Word) : State :=
  s.raise .post .postRefused reason (postKind w) (postArgument w)

def refusedUnknown : Nat := 1
def refusedMode : Nat := 2
def refusedArgument : Nat := 3
def refusedIndex : Nat := 4
def refusedNotValid : Nat := 5
def refusedLessonOpen : Nat := 6
def refusedBusy : Nat := 7
def refusedNoLesson : Nat := 8
def refusedNoFrame : Nat := 9
def refusedStopped : Nat := 10
def refusedMemory : Nat := 11

/-- The word at the head of the FIFO that the port can take, with the words behind it, when it is of this kind. -/
def State.headWord (s : State) (kind : Nat) : Option (Word × List Word) :=
  match s.post.fifo with
  | w :: rest => if postKind w = kind ∧ s.portFree = true then some (w, rest) else none
  | [] => none

/-- The word in hand that was dispatched to a block that waited for room, and has not been answered: no read is performed for it
(R168). -/
def State.dispatched (s : State) : Option Word :=
  if s.post.setupRead = .idle ∧ s.post.controlRead = .idle then s.post.inHand else none

/-- The word in hand, when it is of this kind and the blocks that act on it wait for room no longer. -/
def State.handWord (s : State) (kind : Nat) : Option Word :=
  match s.dispatched with
  | some w => if postKind w = kind ∧ s.ownersFree kind = true then some w else none
  | none => none

/-- A word that has passed the checks is in hand, taken in this mode (R168). -/
def State.keepInHand (s : State) (w : Word) : State :=
  { s with post.inHand := some w, post.handMode := s.control.mode }

/-- The block that owns the word has answered (R168). -/
def State.leaveHand (s : State) : State := { s with post.inHand := none }

/-- A word that the port takes goes through its checks in their order; one that passes is dispatched (R168). R168 has a word in hand until
its owner has answered, and most answers are immediate: the owner acts at once, unless it waits for room in the record queue (R155),
and then the word stays in hand (the model's choice, assumption log 22). -/
def State.dispatch (s : State) (kind : Nat) (allowed : Mode → Bool) (legal : Nat → Bool) (act : Word → State → State) (w : Word) :
    State :=
  if !allowed s.control.mode then s.refuse refusedMode w
  else if !legal (postArgument w) then s.refuse refusedArgument w
  else if s.ownersFree kind then act w s
  else s.keepInHand w

/-- The command of a known kind of post word (R168): the port takes the word at the head of the FIFO. Where the port holds a word of the
kind whose owner waited for room, the owner acts on it once it waits no longer, under the mode in which the word was taken: the checks
are not made again (the model's choice, assumption log 22). -/
def State.takeWord (s : State) (kind : Nat) (allowed : Mode → Bool) (legal : Nat → Bool)
    (act : Word → State → State) : Result :=
  match s.headWord kind, s.handWord kind with
  | some (w, rest), _ => .next (s.closeWork ((s.wordTaken rest).dispatch kind allowed legal act w))
  | none, some w => .next (s.closeWork (act w s.leaveHand))
  | none, none => .next s

/-- Any argument is legal for a kind whose argument is disregarded (R168). -/
def anyArgument : Nat → Bool := fun _ => true

end Sys2Proof.Machine
end

