-- ==== Sys2Proof/Machine/Engine.lean ====
section
/-! DEFINITION. How a work unit of the engine comes to its end: the reads and writes its bursts have not made are made (R63,
R102, R161 to R163; assumption log 7). Its owner's chapter gives what follows. -/

namespace Sys2Proof.Machine

/-- The word is one that the unit still has to read. -/
def EngineUnit.needsWord (u : EngineUnit) (word : Nat) : Bool :=
  u.reads.any fun a => decide (a / 4 = word) && !(u.fetched.any fun c => decide (c.1 = a))

/-- The first of the words that the unit still has to read among these, in address order (assumption log 7). -/
def EngineUnit.firstNeeded (u : EngineUnit) (words : List Nat) : Option Nat := (words.filter u.needsWord).min?

/-- The correctable words among those the unit still has to read, below an uncorrectable one if there is one. -/
def EngineUnit.countable (u : EngineUnit) (weak : List Nat) (stop : Option Nat) : List Nat :=
  weak.filter fun w => u.needsWord w && stop.all fun b => decide (w < b)

/-- The unit makes the reads its bursts have not made, in address order: each correctable word read is counted once, and at the
first uncorrectable word it is faulted (false) and the error reported (R102, R162, R163; the order is assumption log 7). -/
def State.finishReads (s : State) (u : EngineUnit) : State × Bool :=
  let stop := u.firstNeeded s.port.bad
  let t := (u.countable s.port.weak stop).foldl (fun x _ => x.countCorrectable) s
  match stop with
  | some w => (t.reportUncorrectable .engine w, false)
  | none => (t, true)

/-- The destination bytes the unit has still to write (R63). -/
def State.unitCells (s : State) (u : EngineUnit) : List (Nat × Byte) :=
  (u.parts.flatMap fun p => p.cells (s.getter u)).filter fun c => !(u.written.contains c.1)

/-- The destination bytes a unit has still to write through the memory port: a strip and a signature piece write none
(R157). -/
def State.destinationCells (s : State) (u : EngineUnit) : List (Nat × Byte) :=
  match u.work with
  | .capturePiece _ | .jobPiece _ => s.unitCells u
  | _ => []

/-- The addresses of a burst. -/
def burstAddrs (b : EngineBurst) : List Nat := (List.range b.len).map (b.addr + ·)

/-- The unit's read bursts have brought the source byte at an address. -/
def EngineUnit.hasFetched (u : EngineUnit) (a : Nat) : Bool := u.fetched.any fun c => decide (c.1 = a)

/-- The value of the destination byte at an address is computed: every source byte it is made from has been read (R65). -/
def EngineUnit.computed (u : EngineUnit) (a : Nat) : Bool := u.parts.all fun p => (p.readsFor a).all u.hasFetched

/-- The burst is a transfer of the unit: source samples it needs, or destination bytes it has still to write, whose values it has
computed from its reads (R65, R157). -/
def EngineUnit.moves (u : EngineUnit) (b : EngineBurst) : Bool :=
  b.wellFormed &&
    (if b.write then (burstAddrs b).all fun a => u.destinations.contains a && !(u.written.contains a) && u.computed a
     else (burstAddrs b).all u.reads.contains)

/-- The unit writes the bytes it has not written. -/
def State.finishWrites (s : State) (u : EngineUnit) : State :=
  s.storeRuns .engine ((runsOf (s.unitCells u)).flatMap burstsOf)

/-- The luma of raster pixel X of row y of a strip: the pane that covers it, or the background colour (R71). -/
def stripLuma (parts : List Part) (rd : Getter) (background : Colour) (x y : Nat) : Nat :=
  match parts.find? fun p => decide (p.rasterX ≤ x) && decide (x < p.rasterX + p.cols) with
  | some p => p.luma rd (x - p.rasterX) (p.row + y)
  | none => background.y

/-- The chroma byte at raster column X of row y of a strip: Cb at even columns, Cr at odd ones (R71, R151). -/
def stripChroma (parts : List Part) (rd : Getter) (background : Colour) (x y : Nat) : Nat :=
  match parts.find? fun p => decide (p.rasterX ≤ x) && decide (x < p.rasterX + p.cols) with
  | some p => p.chroma rd (x % 2) (x - p.rasterX) (p.row + y)
  | none => if x % 2 = 0 then background.cb else background.cr

/-- The strip as the engine places it in its buffer: 8 rows across the raster (R71, R92). -/
def stripImage (parts : List Part) (rd : Getter) (background : Colour) (width : Nat) : StripImage :=
  .pixels
    ((List.range 8).flatMap fun y => (List.range width).map fun x => stripLuma parts rd background x y)
    ((List.range 8).flatMap fun y => (List.range width).map fun x => stripChroma parts rd background x y)

end Sys2Proof.Machine
end

