-- ==== Sys2Proof/Machine/Capture.lean ====
section
/-! DEFINITION. The capture unit (06_lessons_and_page_capture.md, R105 to R130): lessons, decisions, the context, the slot
chain and its credit; and the pin release that serves a waiting capture (R11). -/

namespace Sys2Proof.Machine

/-! ## The numbers of R116, R123 and R126 -/

def missBusy : Nat := 1
def missCounterFull : Nat := 2
def missPageMoved : Nat := 3
def missNoChain : Nat := 4
def missNoSlot : Nat := 5
def missChain : Nat := 6
def missLessonEnd : Nat := 7
def missStandby : Nat := 8
def missPower : Nat := 9

def faultHostOwned : Nat := 0
def faultUnaligned : Nat := 1
def faultOutOfRange : Nat := 2
def faultProtected : Nat := 3
def faultReadError : Nat := 4
def faultBadBuffer : Nat := 5

def statusOk : Nat := 1
def statusTooSmall : Nat := 2
def statusMemoryFault : Nat := 3

/-! ## Ends and waits of a capture -/

/-- A descriptor read in progress is disregarded when it completes (R115). -/
def disregardDescriptor : RecordOp → RecordOp
  | .read .descriptor a got => .read .none a got
  | op => op

/-- The same for an operation that waits for room, or that is to be issued behind one that does. -/
def Sent.disregard : Sent → Sent
  | .op issuer x => .op issuer (disregardDescriptor x)
  | other => other

def Wait.disregard (w : Wait) : Wait := { w with op := disregardDescriptor w.op }

def Output.disregard (o : Output) : Output := { o with sent := o.sent.disregard }

def State.abandonRead (s : State) : State :=
  { s with
    capture.read := .idle
    port.queue := s.port.queue.map disregardDescriptor
    port.blocked := s.port.blocked.map Wait.disregard
    port.later := s.port.later.map Output.disregard }

/-- The slot-wait count stops (R114). -/
def State.stopCount (s : State) : State :=
  { s with capture.slotWaiting := false, capture.slotCount := 0, capture.slotExpired := false }

/-- The context becomes IDLE with its fields cleared (R121, R123). -/
def State.clearContext (s : State) : State :=
  let s' := s.setContextState .idle
  { s'.stopCount.abandonRead with capture.context := {} }

/-- The capture's pin is released; the capture is not waiting for one, so the pool has no one to serve (R11, R123). -/
def State.dropCapturePin (s : State) : State :=
  match s.capture.context.pinned with
  | some n => s.dropPin n .capture
  | none => s

/-- The PROVISIONAL entry is withdrawn (R39). -/
def State.withdraw (s : State) : State :=
  match s.capture.context.entry with
  | some n => s.setEntryState .capture n .empty
  | none => s

/-- A missed capture (R123). -/
def State.missCapture (s : State) (reason : Nat) : State :=
  let c := s.capture.context
  (s.dropCapturePin.withdraw.clearContext).raise .capture .captureMissed reason c.page c.reason.value

/-- A decision missed before it has taken anything (R110, R123). -/
def State.missDecision (s : State) (reason : Nat) (kind : Reason) : State :=
  s.raise .capture .captureMissed reason 0 kind.value

/-- A chain fault (R116): credit 0, chain STOPPED, CHAIN_FAULT, and the capture is missed. -/
def State.chainFault (s : State) (kind : Nat) : State :=
  ((s.setCredit 0).setChain false |>.raise .capture .chainFault kind s.capture.head s.capture.context.page).missCapture
    missChain

/-- The check of the head address before a read (R115): the fault kind, if any. R115 does not say that its rows are tested in order: of
an address that meets two of them the kind is that of the first (the model's choice, assumption log 47). -/
def headFault (head : Nat) : Option Nat :=
  if head % 32 ≠ 0 then some faultUnaligned
  else if Config.memTop < head + 32 then some faultOutOfRange
  else if sharesWith head 32 0 Config.controlTop || sharesWith head 32 Config.slotsBase Config.slotsTop then
    some faultProtected
  else none

/-- The head descriptor is read (R115). -/
def State.readHead (s : State) : State :=
  match headFault s.capture.head with
  | some k => s.chainFault k
  | none => { s with capture.read := .waiting }.issue .capture .capture (.read .descriptor s.capture.head [])

/-- The check of chain and credit (R113). -/
def State.checkChain (s : State) : State :=
  let s := s.setContextState .waitingSlot
  if !s.capture.running then s.missCapture missNoChain
  else if s.capture.credit = 0 then
    { s with capture.slotWaiting := true, capture.slotCount := 0, capture.slotExpired := false }
  else s.readHead

/-- The capture has its pin on a slot (R111, R112). -/
def State.capturePinned (s : State) (n : Nat) : State :=
  { s.givePin n .capture with capture.context.pinned := some n, capture.context.frame := s.intake.frameNumber }.checkChain

/-- The capture unit asks for a pin on the newest slot (R111). -/
def State.requestCapturePin (s : State) : State :=
  match s.intake.newest with
  | some n => if s.intake.poolGrants n then s.capturePinned n else s.setContextState .waitingPin
  | none => s.setContextState .waitingPin

/-- An owner releases its pin on a slot (R11): a slot left unpinned serves a capture in WAITING_PIN with the newest slot. -/
def State.releasePin (s : State) (n : Nat) (o : PinOwner) : State :=
  let s := s.dropPin n o
  if !(s.intake.slot n).pinned ∧ s.capture.context.state = .waitingPin then
    match s.intake.newest with
    | some m => s.capturePinned m
    | none => s
  else s

/-- A decision that is taken (R110): the page number, the PROVISIONAL entry (R37), the context, and the request for a pin. -/
def State.fillContext (s : State) (kind : Reason) (frame : Nat) (sig : Signature) (levels : Levels) : State :=
  let page := s.capture.counter + 1
  match (s.setCounter page).insertEntry .capture
      { state := .provisional, seen := 0, page := page, captureFrame := frame, lastSeen := frame, image := 0
        signature := sig } with
  | none => s
  | some (s', n) =>
    { s' with capture.context := { page := page, reason := kind, entry := some n, levels := levels } }.requestCapturePin

/-- Rows 3 to 5 of R110. -/
def State.takeDecision (s : State) (kind : Reason) (frame : Nat) (sig : Signature) (levels : Levels) : State :=
  if s.capture.context.state ≠ .idle then s.missDecision missBusy kind
  else if s.capture.counter = 65535 then s.missDecision missCounterFull kind
  else s.fillContext kind frame sig levels

/-! ## Descriptors and the render -/

/-- The geometry of the capture's pinned frame (R8, R119). -/
def State.captureSource (s : State) : Geometry :=
  match s.capture.context.pinned with
  | some n => (s.intake.slot n).geometry.getD ⟨0, 0⟩
  | none => ⟨0, 0⟩

/-- Wc × Hc: the capture size of the working setup, or the source size when either field is 0 (R119). -/
def State.captureTarget (s : State) : Geometry :=
  if s.post.setup.captureW = 0 ∨ s.post.setup.captureH = 0 then s.captureSource
  else ⟨s.post.setup.captureW, s.post.setup.captureH⟩

/-- The stretch of a capture with this copy of levels (R61, R126). -/
def captureStretch (auto : Bool) (copy : Levels) : Option (Nat × Nat) :=
  if auto && copy.valid then some (copy.black, copy.white) else none

/-- The results that a return writes (R126): status, flags and entry; the page, the levels used, the frame, the size and the bytes
written; and last the owner HOST. R126 and R190 fix the owner as the last; that the run at the lower address goes first is the model's
choice (assumption log 35). -/
def Context.results (c : Context) (d : Descriptor) (status : Nat) (stretch : Option (Nat × Nat)) (size : Geometry)
    (written : Nat) : List (Nat × List Byte) :=
  [(d.addr + 1,
      leBytes 1 status ++ leBytes 1 (c.reason.value + (if stretch.isSome then 2 else 0)) ++ leBytes 1 (c.entry.getD 0)),
   (d.addr + 0x10,
      leBytes 2 c.page ++ leBytes 1 (stretch.map Prod.fst |>.getD 0) ++ leBytes 1 (stretch.map Prod.snd |>.getD 0)
        ++ leBytes 4 c.frame ++ leBytes 2 size.w ++ leBytes 2 size.h ++ leBytes 4 written),
   (d.addr, leBytes 1 0)]

/-- The head moves to an address, and the descriptor that was at it is no longer taken. -/
def State.moveHead (s : State) (next : Nat) : State :=
  { s with capture.head := next, capture.context.descriptor := none }

/-- A descriptor is returned (R126): the result fields, then the owner HOST; the credit falls by one and the head becomes the
next address (R117, R121, R122). -/
def State.returnDescriptor (s : State) (d : Descriptor) (status : Nat) (stretch : Option (Nat × Nat)) (size : Geometry)
    (written : Nat) : State :=
  ((s.issueWrite .capture .capture (s.capture.context.results d status stretch size written)).setCredit (s.capture.credit - 1)).moveHead d.next

/-- The render parameters of a capture (R119). -/
def State.captureRender (s : State) (d : Descriptor) : Render :=
  let g := s.captureSource
  let t := s.captureTarget
  let (gain, coring) := s.post.setup.profile s.post.setup.captureProfile
  { source := slotAddr (s.capture.context.pinned.getD 0), ws := g.w, hs := g.h, wp := t.w, hp := t.h
    zoom := 256, cx := g.w * 8, cy := g.h * 8, gain := gain, coring := coring
    mode := if s.post.setup.captureAuto then .auto else .none, black := 0, white := 0
    copy := some s.capture.context.levels, background := blankColour, destination := d.buffer }

/-- The context enters RENDERING (R118, R119). -/
def State.enterRendering (s : State) (d : Descriptor) : State :=
  let r := s.captureRender d
  { s with capture.context.descriptor := some d, capture.context.render := some r, capture.context.next := 0,
           capture.context.done := 0 }.setContextState .rendering

/-- A descriptor that is too small is returned, and the capture goes back to the check (R117). -/
def State.rejectDescriptor (s : State) (d : Descriptor) : State :=
  ((s.returnDescriptor d statusTooSmall (captureStretch s.post.setup.captureAuto s.capture.context.levels)
      s.captureTarget 0).raise .capture .slotRejected 0 d.addr d.capacity).checkChain

/-- The head descriptor has been read (R116 to R118). -/
def State.descriptorRead (s : State) (bytes : List Byte) : State :=
  let d := parseDescriptor s.capture.head bytes
  let size := 2 * s.captureTarget.w * s.captureTarget.h
  if !ownedByDevice bytes then s.chainFault faultHostOwned
  else if d.capacity < size then s.rejectDescriptor d
  else if !areaAllowed d.buffer size then s.chainFault faultBadBuffer
  else s.enterRendering d

/-- The levels the latched render of a capture uses (R61, R126). -/
def Context.stretch (c : Context) : Option (Nat × Nat) :=
  match c.render with
  | some r => captureStretch (decide (r.mode = .auto)) c.levels
  | none => none

def Context.size (c : Context) : Geometry :=
  match c.render with
  | some r => ⟨r.wp, r.hp⟩
  | none => ⟨0, 0⟩

/-- The buffer bytes, luma and chroma, that the completed pieces wrote (R122). -/
def Context.bytesWritten (c : Context) : Nat :=
  match c.render with
  | some r => ((List.range c.done).map fun n => let a := pieceArea r.wp r.hp n; 2 * a.2.1 * a.2.2.2).sum
  | none => 0

/-- The capture completes (R121). R38 has the image address and the capture frame number written and then the state; which of the two
comes first it does not say: here the one at the lower address; the fields that do not change are not written again (the model's choices,
assumption log 35). -/
def State.completeCapture (s : State) (d : Descriptor) (n : Nat) : State :=
  let c := s.capture.context
  let e := { s.monitor.entry n with image := d.buffer, captureFrame := c.frame, state := .valid }
  let s1 := (s.setEntry n e).issueWrite .capture .monitor
    [(indexAddr n + 4, leBytes 4 e.captureFrame), (indexAddr n + 0x0C, leBytes 4 e.image), (indexAddr n, leBytes 1 2)]
  let s2 := s1.returnDescriptor d statusOk c.stretch c.size (2 * c.size.w * c.size.h)
  ((s2.raise .capture .pageCaptured n c.page d.addr).dropCapturePin).clearContext

/-- A capture piece was faulted: the capture fails (R122). -/
def State.failCapture (s : State) (d : Descriptor) (n : Nat) : State :=
  let c := s.capture.context
  let s2 := s.withdraw.returnDescriptor d statusMemoryFault c.stretch c.size c.bytesWritten
  ((s2.raise .capture .captureFailed n c.page d.addr).dropCapturePin).clearContext

/-- A capture piece has completed (R120). -/
def State.capturePieceDone (s : State) : State :=
  let c := s.capture.context
  match c.render, c.descriptor, c.entry with
  | some r, some d, some n =>
    let s' := { s with capture.context.done := c.done + 1 }
    if c.done + 1 < pieceCount r.wp r.hp then s' else s'.completeCapture d n
  | _, _, _ => s

/-- A capture piece has been faulted (R102, R122). -/
def State.capturePieceFaulted (s : State) : State :=
  match s.capture.context.descriptor, s.capture.context.entry with
  | some d, some n => s.failCapture d n
  | _, _ => s

/-! ## Lessons and the entries of a mode -/

/-- The decisions on their way see that the unit has taken LESSON_END or LESSON_BEGIN (R110). -/
def State.markLesson (s : State) : State :=
  { s with capture.decisions := s.capture.decisions.map fun d => { d with sawLesson := true } }

/-- The monitor empties the index (R42). R42 does not say whether the writes of the states are one record operation or one for each
entry: here they are one (assumption log 36). -/
def State.emptyIndex (s : State) : State :=
  let kept := (List.range 64).filter fun n => decide ((s.monitor.entry n).state ≠ .empty)
  let s' := { s with monitor.index := s.monitor.index.map fun e => { e with state := .empty } }
  if kept = [] then s' else s'.issueWrite .capture .monitor (kept.map fun n => (indexAddr n, leBytes 1 0))

def State.waitingCapture (s : State) : Bool :=
  decide (s.capture.context.state = .waitingPin) || decide (s.capture.context.state = .waitingSlot)

/-- They see that it has taken an entry to STANDBY (R110). -/
def State.markStandby (s : State) : State :=
  { s with capture.decisions := s.capture.decisions.map fun d => { d with sawStandby := true } }

/-- They see that it has taken an entry to SHUTTING (R110). -/
def State.markShutting (s : State) : State :=
  { s with capture.decisions := s.capture.decisions.map fun d => { d with sawShutting := true } }

/-- A capture that waits for a pin or a slot is missed (R106, R127, R128). -/
def State.missWaiting (s : State) (reason : Nat) : State := if s.waitingCapture then s.missCapture reason else s

/-- The capture unit takes the entry to a mode (R127, R128). -/
def State.captureEntry (s : State) (m : Mode) : State :=
  let t := { s with capture.view := m }
  match m with
  | .standby => t.markStandby.missWaiting missStandby
  | .shutting => t.markShutting.missWaiting missPower
  | _ => t

/-! ## Commands -/

/-- Why a decision on its way is missed before the context is looked at, if it is (R110). No decision is taken in STANDBY, SHUTTING or
POWERDOWN (R127, R128): one that the monitor made, before it was told of a mode that the capture unit has entered, is missed with
that mode's reason while the part is out of LIVE (the model's reading, assumption log 37). Once the part is in LIVE again R110's table
alone counts, also where the capture unit's entry to LIVE is still on its way: CAPTURE_NOW is taken there too (R109). -/
def State.decisionMiss (s : State) (d : Decision) : Option Nat :=
  if d.sawShutting || decide (s.capture.view = .shutting) || decide (s.capture.view = .powerdown) then some missPower
  else if d.sawStandby || (decide (s.capture.view = .standby) && decide (s.control.mode ≠ .live)) then some missStandby
  else if d.sawLesson then some missLessonEnd
  else none

/-- A decision on its way is taken or missed (R110). -/
def State.actOnDecision (s : State) (d : Decision) : State :=
  match s.decisionMiss d with
  | some reason => s.missDecision reason .auto
  | none => s.takeDecision .auto d.frame d.signature d.levels

/-- CAPTURE_DECISION (R110): the oldest AUTO decision on its way reaches the capture unit, unless it waits for room (R155). -/
def execCaptureDecision (s : State) : Result :=
  match s.capture.decisions, s.free .capture with
  | d :: rest, true => .next (s.closeWork ({ s with capture.decisions := rest }.actOnDecision d))
  | _, _ => .next s

/-- SLOT_WAIT_EXPIRY (R114). -/
def execSlotWaitExpiry (s : State) : Result :=
  if s.capture.slotWaiting ∧ s.capture.slotExpired ∧ s.free .capture then .next (s.closeWork (s.missCapture missNoSlot)) else .next s

/-- DESCRIPTOR_READ_DONE (R115 to R118). While a CAPTURE_RESTART in hand reads its control words, the descriptor read is not acted on: they
decide whether it is disregarded (R115) or, with the restart refused, acted on as if no restart had come (R169; assumption log 12). -/
def execDescriptorReadDone (s : State) : Result :=
  if s.capture.read = .idle ∨ s.post.controlRead ≠ .idle then .next s
  else
    let t := s.drain fun x => x.capture.read.settled
    match t.capture.read with
    | .got bytes => .next (s.closeWork ({ t with capture.read := .idle }.descriptorRead bytes))
    | .error _ => .next (s.closeWork ({ t with capture.read := .idle }.chainFault faultReadError))
    | _ => .next s

/-- CAPTURE_PIECE_COMPLETE (R100, R120 to R122). -/
def execCapturePieceComplete (s : State) : Result :=
  match s.engine.unit with
  | some u =>
    match u.work with
    | .capturePiece _ =>
      match s.finishReads u with
      | (t, true) => .next (s.closeWork ((t.finishWrites u).capturePieceDone.dropUnit.shutdownTest))
      | (t, false) => .next (s.closeWork (t.capturePieceFaulted.dropUnit.shutdownTest))
    | _ => .next s
  | none => .next s

/-- CAPTURE_CREDIT (R124). -/
def execCaptureCredit (s : State) : Result :=
  s.takeWord 3 Mode.takesWords (fun a => decide (1 ≤ a) && decide (a ≤ 255)) fun w t =>
    if !t.capture.running then t.refuse refusedStopped w
    else
      let t' := t.setCredit (min 255 (t.capture.credit + postArgument w))
      if t.capture.slotWaiting then t'.stopCount.readHead else t'

/-- CAPTURE_RESTART (R125): the control words are read, and the word stays in hand. Nothing else of the unit changes until they have
been read, since the word can still be refused (R163, R169): a descriptor read in progress goes on. -/
def execCaptureRestart (s : State) : Result :=
  s.takeWord 4 Mode.takesWords anyArgument fun w t =>
    if t.capture.context.state = .rendering then t.refuse refusedBusy w
    else
      { t with post.inHand := some w, post.controlRead := .waiting }.issue .capture .capture (.read .control Config.controlBase [])

/-- After a restart a descriptor read in progress is disregarded, and its capture makes the check of R113 again with the restarted chain
(R115). A pin granted between the taking of CAPTURE_RESTART and the reading of the control words finds the old chain: a read begun then is
disregarded here too, and a miss for want of a chain stands (assumption log 12). -/
def State.resumeCapture (s : State) : State :=
  if s.capture.context.state = .waitingSlot ∧ s.capture.read ≠ .idle then s.abandonRead.checkChain else s

/-- The chain is restarted from a head address (R125). -/
def State.restartChain (s : State) (head : Nat) : State := ({ s with capture.head := head }.setChain true).setCredit 0

/-- CONTROL_WORDS_READ_DONE (R125, R163). A restart that is refused changes nothing in the capture unit (R169). -/
def execControlWordsReadDone (s : State) : Result :=
  if s.post.controlRead = .idle then .next s
  else
    let t := s.drain fun x => x.post.controlRead.settled
    let t' := { t with post.controlRead := .idle, post.inHand := none }
    match t.post.controlRead, t.post.inHand with
    | .got bytes, _ => .next (s.closeWork ((t'.restartChain (parseHead bytes)).resumeCapture))
    | .error _, some w => .next (s.closeWork (t'.refuse refusedMemory w))
    | _, _ => .next s

/-- CAPTURE_NOW (R109, R33): the REQUESTED decision is taken in the same step. -/
def execCaptureNow (s : State) : Result :=
  s.takeWord 5 (fun m => decide (m = .live)) anyArgument fun w t =>
    if !t.capture.lessonOpen then t.refuse refusedNoLesson w
    else
      match t.intake.newest with
      | none => t.refuse refusedNoFrame w
      | some _ =>
        let held := t.intake.held.getD ⟨[], t.intake.frameNumber, ⟨0, 0⟩⟩
        t.takeDecision .requested held.frame (signatureOf t.post.setup held.means t.monitor.levels) t.monitor.levels

/-- LESSON_BEGIN (R105). -/
def execLessonBegin (s : State) : Result :=
  s.takeWord 6 Mode.takesWords anyArgument fun w t =>
    if t.capture.lessonOpen then t.refuse refusedLessonOpen w
    else if t.capture.context.state ≠ .idle then t.refuse refusedBusy w
    else ((t.setCounter 0).emptyIndex.setLesson true).markLesson.raise .capture .lessonBegun 0 0 0

/-- LESSON_END (R106). -/
def execLessonEnd (s : State) : Result :=
  s.takeWord 7 Mode.takesWords anyArgument fun w t =>
    if !t.capture.lessonOpen then t.refuse refusedNoLesson w
    else
      let t1 := (t.setLesson false).markLesson
      let t2 := t1.missWaiting missLessonEnd
      t2.raise .capture .lessonEnded 0 t2.capture.counter 0

end Sys2Proof.Machine
end

