-- ==== Sys2Proof/Machine/Jobs.lean ====
section
/-! DEFINITION. The job runner (07_render_jobs.md, R131 to R149): adding and cancelling, the scan, validation, the three kinds of
job and their ends; and the index insertion of a SIGNATURE job (R40). -/

namespace Sys2Proof.Machine

/-! ## Ends and stops (R134, R145) -/

/-- The pin of a RENDER_LIVE job is released as the last act of its end (R142). -/
def State.releaseJobPin (s : State) (j : RunningJob) : State :=
  match j.pin with
  | some n => s.releasePin n .job
  | none => s

/-- What the job runner holds for its RUNNING job. -/
def State.setRunning (s : State) (j : Option RunningJob) : State := { s with jobs.running := j }

/-- The running job ends (R145): the outcome, JOB_END, the pin, and no job RUNNING. -/
def State.endJob (s : State) (j : RunningJob) (st : JobState) (reason index : Nat) : State :=
  (((s.writeOutcome j.entry { state := st, reason := reason, pieces := j.done, index := index }).raise .jobs .jobEnd j.entry
      st.value reason).releaseJobPin j).setRunning none

/-- The engine is working on a piece of the running job. -/
def State.jobPieceInProgress (s : State) : Bool :=
  s.engine.unit.any fun u => match u.work with
    | .jobPiece _ | .signaturePiece _ => true
    | _ => false

/-- A stop of the RUNNING job is made (R134): pending while a piece of it is in progress, otherwise its end. A stop already
pending keeps its reason (R133). -/
def State.stopJob (s : State) (reason : Nat) : State :=
  match s.jobs.running with
  | none => s
  | some j =>
    if j.stop.isSome then s
    else if s.jobPieceInProgress then s.setRunning (some { j with stop := some reason })
    else s.endJob j .cancelled reason 255

/-! ## Adding and cancelling (R132, R133) -/

/-- JOB_ADD of one entry (R132). -/
def State.addEntry (s : State) (n : Nat) : State :=
  match (s.jobs.entry n).state with
  | .pending | .running => s
  | _ => s.writeOutcome n { state := .pending, reason := reasonNone, pieces := 0, index := 255 }

/-- The scan has read entry n, or is reading it. -/
def Scan.holds (x : Scan) (n : Nat) : Bool := decide (x.reading = some n) || x.got.any fun e => decide (e.1 = n)

/-- An entry that is cancelled is not started by the scan that has read it, or is reading it (R133, R137). One that the scan has not reached
is read if a JOB_ADD has made it PENDING again by then (R136), and may then be started (the model's choice, assumption log 48). -/
def State.dropScanned (s : State) (n : Nat) : State :=
  { s with jobs.scan := s.jobs.scan.map fun x => if x.holds n then { x with dropped := n :: x.dropped } else x }

/-- JOB_CANCEL of one entry (R133). -/
def State.cancelEntry (s : State) (n : Nat) : State :=
  match (s.jobs.entry n).state with
  | .pending => (s.dropScanned n).endEntry n .cancelled reasonHost
  | .running => s.stopJob reasonHost
  | _ => s

/-- Acts on the entries an argument names, in increasing entry number. -/
def State.forEntries (s : State) (argument : Nat) (f : State → Nat → State) : State :=
  ((List.range 16).filter fun n => argument.testBit n).foldl f s

/-! ## Choosing a job (R136, R137) -/

/-- A RENDER_LIVE request is passed over when the pool would refuse a JOB pin on the newest slot (R136). -/
def State.skipped (s : State) (r : Request) : Bool :=
  decide (r.kind = 1) && match s.intake.newest with
    | some n => !s.intake.poolGrants n
    | none => false

/-- The entry of the lowest priority, the lowest number between equal ones, among those read and not skipped (R136). -/
def State.chosen (s : State) (got : List (Nat × Request)) : Option (Nat × Request) :=
  (got.filter fun e => !s.skipped e.2).foldl
    (fun best e =>
      match best with
      | none => some e
      | some b => if e.2.priority < b.2.priority then some e else some b)
    none

/-! ## Validation (R138) -/

def Request.sourceOk (r : Request) : Bool :=
  decide (r.ws % 2 = 0) && decide (16 ≤ r.ws) && decide (r.ws ≤ 4096) && decide (16 ≤ r.hs) && decide (r.hs ≤ 3072)

def Request.targetOk (r : Request) : Bool :=
  decide (r.wd % 2 = 0) && decide (16 ≤ r.wd) && decide (r.wd ≤ 4096) && decide (8 ≤ r.hd) && decide (r.hd ≤ 3072)

/-- Bytes of the destination area (R138). -/
def Request.destinationBytes (r : Request) : Nat := if r.kind = 2 then 48 else 2 * r.wd * r.hd

/-- The source image, where one is read, and the destination area are allowed and apart (R138, BAD_ADDRESS). -/
def Request.addressOk (r : Request) : Bool :=
  areaAllowed r.destination r.destinationBytes &&
    (decide (r.kind = 1) ||
      (areaAllowed r.source (2 * r.ws * r.hs) &&
        !sharesWith r.destination r.destinationBytes r.source (r.source + 2 * r.ws * r.hs)))

/-- The first test of R138 that fails, as its reason. -/
def State.validate (s : State) (r : Request) : Option Nat :=
  if 2 < r.kind then some 1
  else if (r.kind ≠ 1 ∧ !r.sourceOk) ∨ (r.kind ≠ 2 ∧ !r.targetOk) then some 2
  else if !r.addressOk then some 3
  else if r.capacity < r.destinationBytes then some 4
  else if r.kind = 1 ∧ s.intake.newest = none then some reasonNoFrame
  else if r.kind = 2 ∧ r.indexOption = true ∧ s.capture.lessonOpen = false then some reasonNoLesson
  else if r.kind = 2 ∧ r.indexOption = true ∧ r.page = 0 then some 7
  else none

/-! ## Starting a job (R139, R140) -/

def Request.jobKind (r : Request) : JobKind := if r.kind = 0 then .stored else if r.kind = 1 then .live else .signature

/-- The render parameters of a job (R140) with this source; a signature job's targets are not used (R143). -/
def State.jobRender (s : State) (r : Request) (source : Nat) (g : Geometry) : Render :=
  let (gain, coring) := s.post.setup.profile r.profile
  { source := source, ws := g.w, hs := g.h, wp := r.wd, hp := r.hd, zoom := r.zoom, cx := r.cx, cy := r.cy
    gain := gain, coring := coring, mode := levelsModeOf r.mode, black := r.black, white := r.white, copy := none
    background := blankColour, destination := r.destination }

/-- The job becomes RUNNING and offers its first piece (R139). -/
def State.runJob (s : State) (n : Nat) (r : Request) (pin : Option Nat) (render : Render) (total : Nat) : State :=
  let s1 := s.writeOutcome n { state := .running, reason := reasonNone, pieces := 0, index := 255 }
  { s1 with
    jobs.running := some
      { entry := n, kind := r.jobKind, render := render, indexOption := r.indexOption, page := r.page, total := total
        next := 0, done := 0, stop := none, pin := pin, sums := noSums } }

/-- A validated job starts (R139): RENDER_LIVE takes its pin first, and stays PENDING if the pool refuses. -/
def State.startJob (s : State) (n : Nat) (r : Request) : State :=
  match r.jobKind with
  | .stored => s.runJob n r none (s.jobRender r r.source ⟨r.ws, r.hs⟩) (pieceCount r.wd r.hd)
  | .signature => s.runJob n r none (s.jobRender r r.source ⟨r.ws, r.hs⟩) (pieceCount r.ws r.hs)
  | .live =>
    match s.intake.newest with
    | none => s
    | some m =>
      if s.intake.poolGrants m then
        (s.givePin m .job).runJob n r (some m)
          (s.jobRender r (slotAddr m) ((s.intake.slot m).geometry.getD ⟨0, 0⟩)) (pieceCount r.wd r.hd)
      else s

/-- The end of a scan (R137): the chosen entry is started only if it is still PENDING, the mode is LIVE, the degraded flag is
clear and no job is RUNNING; and not if it was cancelled during the scan, or STANDBY or SHUTTING was entered or the degraded
flag set during it. -/
def State.endScan (s : State) (x : Scan) : State :=
  let t := { s with jobs.scan := none }
  match s.chosen x.got with
  | none => t
  | some (n, r) =>
    if x.void = false ∧ n ∉ x.dropped ∧ (s.jobs.entry n).state = .pending ∧ s.jobs.view = .live ∧ s.control.mode = .live
        ∧ s.feeder.degraded = false ∧ s.jobs.running = none then
      match s.validate r with
      | some reason => t.endEntry n .failed reason
      | none => t.startJob n r
    else t

/-! ## Pieces (R141, R143, R144, R146) -/

/-- A job piece has been counted (R141): the last piece ends the job DONE, or CANCELLED where a stop was pending; at any other the
count is written with RUNNING again after it, and then a pending stop ends the job. -/
def State.jobPieceDone (s : State) : State :=
  match s.jobs.running with
  | none => s
  | some j =>
    let j' := { j with done := j.done + 1 }
    let s' := s.setRunning (some j')
    let t := if j'.done < j.total then s'.writePieces j.entry j'.done else s'
    match j.stop with
    | some reason => t.endJob j' .cancelled reason 255
    | none => if j'.done < j.total then t else t.endJob j' .done reasonNone 255

/-- The answer of the page monitor to a SIGNATURE job's insertion (R40): a reason, or the entry number. -/
def State.signatureInsert (s : State) (page : Nat) (sig : Signature) (image : Nat) : State × (Nat ⊕ Nat) :=
  if s.capture.lessonOpen = false then (s, .inl reasonNoLesson)
  else if s.monitor.index.any fun e => decide (e.state = .provisional) && decide (e.page = page) then
    (s, .inl reasonPageBusy)
  else
    let t := if s.capture.counter < page then s.setCounter page else s
    let e : IndexEntry :=
      { state := .valid, seen := 0, page := page, captureFrame := s.intake.frameNumber
        lastSeen := s.intake.frameNumber, image := image, signature := sig }
    match t.monitor.index.findIdx? fun e => decide (e.state = .valid) && decide (e.page = page) with
    | some n => (t.writeEntry .jobs n e, .inr n)
    | none =>
      match t.insertEntry .jobs e with
      | some (t', n) => (t', .inr n)
      | none => (t, .inr 255)

/-- The signature of a SIGNATURE job, from its tile sums under its own levels (R143). -/
def State.jobSignature (s : State) (j : RunningJob) : Signature :=
  let means := tileMeans j.sums j.render.ws j.render.hs
  signatureOf s.post.setup means (levelsOf s.post.setup means)

/-- The job ends as the answer to its insertion says (R144). -/
def State.endInserted (r : State × (Nat ⊕ Nat)) (j : RunningJob) : State :=
  match r with
  | (t, .inr n) => t.endJob j .done reasonNone n
  | (t, .inl reason) => t.endJob j .failed reason 255

/-- The last signature piece is done (R143, R144). -/
def State.finishSignature (s : State) (j : RunningJob) : State :=
  let s1 := s.issueWrite .jobs .jobs [(j.render.destination, leBytes 48 (s.jobSignature j).toNat)]
  if j.indexOption then State.endInserted (s1.signatureInsert j.page (s.jobSignature j) j.render.source) j
  else s1.endJob j .done reasonNone 255

/-- A signature piece has been counted and its samples added (R66, R141, R143). -/
def State.signaturePieceDone (s : State) (u : EngineUnit) : State :=
  match s.jobs.running with
  | none => s
  | some j =>
    let sums := u.parts.foldl (fun acc p => p.addSamples (s.getter u) acc) j.sums
    let j' := { j with done := j.done + 1, sums := sums }
    let s' := s.setRunning (some j')
    let t := if j'.done < j.total then s'.writePieces j.entry j'.done else s'
    match j.stop with
    | some reason => t.endJob j' .cancelled reason 255
    | none => if j'.done < j.total then t else t.finishSignature j'

/-- A job or signature piece was faulted (R146). -/
def State.jobPieceFaulted (s : State) : State :=
  match s.jobs.running with
  | none => s
  | some j => s.endJob j .failed reasonMemory 255

/-! ## Entries of a mode (R147, R148) -/

/-- Every PENDING entry becomes CANCELLED with reason POWER (R148). -/
def State.cancelPending (s : State) : State :=
  (List.range 16).foldl
    (fun t n => if (t.jobs.entry n).state = .pending then t.endEntry n .cancelled reasonPower else t) s

/-- The job runner takes the entry to a mode (R147, R148): a scan in progress starts nothing. At an entry to SHUTTING the running
job's end, where it comes at once, is ahead of those of the PENDING entries (assumption log 38). -/
def State.jobsEntry (s : State) (m : Mode) : State :=
  let t := { s with jobs.view := m }
  match m with
  | .standby => t.voidScan.stopJob reasonStandby
  | .shutting => (t.voidScan.stopJob reasonPower).cancelPending
  | _ => t

/-! ## Commands -/

/-- A set of entries 0..15 that is not empty (R132). -/
def entrySet : Nat → Bool := fun a => decide (a ≠ 0)

/-- JOB_ADD (R132). -/
def execJobAdd (s : State) : Result :=
  s.takeWord 8 Mode.takesWords entrySet fun w t => t.forEntries (postArgument w) State.addEntry

/-- JOB_CANCEL (R133). -/
def execJobCancel (s : State) : Result :=
  s.takeWord 9 Mode.takesWords entrySet fun w t => t.forEntries (postArgument w) State.cancelEntry

/-- The scan has read every request it is to read. -/
def Jobs.scanRead (j : Jobs) : Bool :=
  match j.scan with
  | some sc => decide (sc.reading = none)
  | none => true

/-- JOB_SCAN_DONE (R136 to R139). -/
def execJobScanDone (s : State) : Result :=
  if s.jobs.scan = none then .next s
  else
    let t := s.drain fun x => x.jobs.scanRead && x.free .jobs
    match t.jobs.scan with
    | some x => if x.reading = none then .next (s.closeWork (t.endScan x)) else .next s
    | none => .next s

/-- JOB_PIECE_COMPLETE (R100, R141, R146). -/
def execJobPieceComplete (s : State) : Result :=
  match s.engine.unit with
  | some u =>
    match u.work with
    | .jobPiece _ =>
      match s.finishReads u with
      | (t, true) => .next (s.closeWork ((t.finishWrites u).jobPieceDone.dropUnit.shutdownTest))
      | (t, false) => .next (s.closeWork (t.jobPieceFaulted.dropUnit.shutdownTest))
    | _ => .next s
  | none => .next s

/-- SIGNATURE_PIECE_COMPLETE (R66, R143, R144, R146). -/
def execSignaturePieceComplete (s : State) : Result :=
  match s.engine.unit with
  | some u =>
    match u.work with
    | .signaturePiece _ =>
      match s.finishReads u with
      | (t, true) => .next (s.closeWork ((t.signaturePieceDone u).dropUnit.shutdownTest))
      | (t, false) => .next (s.closeWork (t.jobPieceFaulted.dropUnit.shutdownTest))
    | _ => .next s
  | none => .next s

end Sys2Proof.Machine
end

