-- ==== Sys2Proof/Machine/Feeder.lean ====
section
/-! DEFINITION. The display feeder (04_panes_views_and_the_display_output.md, R68 to R91): strips and their buffers, the frame
turn, layouts and the freeze pin, zoom ramps, late frames, and the frame fields of the status area (R178). -/

namespace Sys2Proof.Machine

/-! ## Strips (R70, R71, R85, R99) -/

/-- Strips of an output mode (R68). -/
def stripCount (outputMode : Nat) : Nat := (rasterSize outputMode).h / 8

/-- The output mode of the raster once the feeder has acted on an event. -/
def FeederEvent.modeAfter (m : Nat) : FeederEvent → Nat
  | .turn n => n
  | _ => m

/-- The output mode that the raster runs in (R68): the one in force at the feeder, or, where a later frame turn is kept behind a layout
read (R72), the one that the frame of that turn uses. The raster runs by its own timing, so that frame has begun (assumption log
13). -/
def Feeder.rasterMode (f : Feeder) : Nat :=
  if f.layoutRead = .idle then f.outputMode else f.deferred.foldl FeederEvent.modeAfter f.outputMode

/-- The raster runs, and the scan-out of strip k is the next to begin (R68, R69). -/
def State.rasterAt (s : State) (k : Nat) : Bool := s.feeder.rasterOn && decide (s.feeder.nextStrip = k)

/-- The raster goes on to strip k. It runs by its own timing, also while the feeder waits for its layout read (R68, R72). -/
def State.moveRaster (s : State) (k : Nat) : State := { s with feeder.nextStrip := k }

def State.setBuffer (s : State) (b : Bool) (image : StripImage) : State :=
  if b then { s with feeder.bufferB := image } else { s with feeder.bufferA := image }

def Feeder.buffer (f : Feeder) (b : Bool) : StripImage := if b then f.bufferB else f.bufferA

/-- The feeder requests strip k into the buffer that is not being scanned out; a strip that crosses no pane with a present
source is filled at once with the background colour (R70, R71). -/
def State.requestStrip (s : State) (k : Nat) : State :=
  let b := !s.feeder.scanning
  if s.feeder.latched.any fun p => p.crosses k then { s with feeder.request := some ⟨k, b⟩ }
  else s.setBuffer b (.solid s.feeder.layout.background)

/-- The engine abandons the strip it is working on, if it is working on one (R99). Under the ENGINE's grant a read made for it
can stand at the DRAM, and still meets what it meets there (R102, assumption log 14). -/
def State.abandonStrip (s : State) : State :=
  match s.engine.unit with
  | some u => match u.work with
    | .strip _ _ =>
      { s.dropUnit with engine.cutOff := if s.port.grant.any fun g => decide (g.who = .engine) then some u else none }
    | _ => s
  | none => s

/-- The outstanding request is withdrawn (R85, R89, R99). -/
def State.withdrawStrip (s : State) : State :=
  match s.feeder.request with
  | some _ => { s with feeder.request := none }.abandonStrip
  | none => s

/-- The strip has underrun (R85): its request is withdrawn, it is scanned out as background, and its frame is late. -/
def State.underrun (s : State) : State :=
  { s.withdrawStrip with
    feeder.underruns := satInc Config.counterMax s.feeder.underruns
    feeder.late := true
    feeder.scanning := !s.feeder.scanning
    feeder.display := .solid s.feeder.layout.background }

/-- The scan-out of a strip begins: its deadline in a frame of LIVE (R70, R85), blank otherwise (R69, R90). -/
def State.beginScanout (s : State) : State :=
  if s.feeder.view = .live ∧ s.feeder.liveFrame = true then
    if s.feeder.request.isSome then s.underrun
    else
      { s with
        feeder.scanning := !s.feeder.scanning
        feeder.display := s.feeder.buffer (!s.feeder.scanning) }
  else { s with feeder.display := .solid blankColour }

/-- The scan-out of strip k, not the last, begins (R70). -/
def State.stripScanout (s : State) (k : Nat) : State :=
  if k + 1 < stripCount s.feeder.outputMode then
    let t := s.beginScanout
    if t.feeder.view = .live ∧ t.feeder.liveFrame = true then t.requestStrip (k + 1) else t
  else s

/-- The engine has completed the strip (R70, R100). -/
def State.stripDone (s : State) (u : EngineUnit) (buffer : Bool) : State :=
  let image := stripImage u.parts (s.getter u) s.feeder.layout.background (rasterSize s.feeder.outputMode).w
  { s.setBuffer buffer image with feeder.request := none }

/-- The engine has reported the strip faulted (R86). -/
def State.stripFaulted (s : State) (buffer : Bool) : State :=
  { s.setBuffer buffer (.solid s.feeder.layout.background) with
    feeder.request := none
    feeder.faults := satInc Config.counterMax s.feeder.faults }

/-! ## Late frames (R87, R88) -/

def State.clearRuns (s : State) : State := { s with feeder.underrunRun := 0, feeder.cleanRun := 0 }

/-- A late frame is judged. -/
def State.judgeLate (s : State) : State :=
  if s.feeder.degraded then { s with feeder.cleanRun := 0 }
  else if s.feeder.underrunRun + 1 < 3 then { s with feeder.underrunRun := s.feeder.underrunRun + 1 }
  else (s.setDegraded true).clearRuns.raise .feeder .displayDegraded 0 s.feeder.frameNumber s.feeder.underruns

/-- A clean frame is judged. -/
def State.judgeClean (s : State) : State :=
  if !s.feeder.degraded then { s with feeder.underrunRun := 0 }
  else if s.feeder.cleanRun + 1 < 60 then { s with feeder.cleanRun := s.feeder.cleanRun + 1 }
  else (s.setDegraded false).clearRuns.raise .feeder .displayRecovered 0 s.feeder.frameNumber 0

/-- Step 2 of the frame turn: only a frame whose strip 0 was requested at a frame turn in LIVE is judged (R87). -/
def State.judge (s : State) : State :=
  if !s.feeder.liveFrame then s else if s.feeder.late then s.judgeLate else s.judgeClean

/-! ## Layout checks (R76 to R78) -/

def Pane.rectOk (p : Pane) (g : Geometry) : Bool :=
  decide (p.w % 2 = 0) && decide (64 ≤ p.w) && decide (p.h % 8 = 0) && decide (8 ≤ p.h) && decide (p.x % 2 = 0)
    && decide (p.y % 8 = 0) && decide (p.x + p.w ≤ g.w) && decide (p.y + p.h ≤ g.h)

/-- Two rectangles share a raster pixel (R78). -/
def Pane.overlaps (a b : Pane) : Bool :=
  decide (a.x < b.x + b.w) && decide (b.x < a.x + a.w) && decide (a.y < b.y + b.h) && decide (b.y < a.y + a.h)

/-- A STORED pane's image passes (R78). -/
def Pane.imageOk (p : Pane) : Bool :=
  decide (p.imageW % 2 = 0) && decide (16 ≤ p.imageW) && decide (p.imageW ≤ 4096) && decide (16 ≤ p.imageH)
    && decide (p.imageH ≤ 3072) && areaAllowed p.image (2 * p.imageW * p.imageH)

/-- A pane's source passes: a known kind, and an image in order where it is STORED (R76, R78). -/
def RawPane.sourceOk (p : RawPane) : Bool := decide (p.kindByte < 2) || (decide (p.kindByte = 2) && p.pane.imageOk)

/-- The higher-numbered pane of the first overlapping pair: b from 1 upward, a from 0 upward (R78). -/
def firstOverlap (panes : List RawPane) : Option Nat :=
  (List.range panes.length).find? fun b =>
    (panes.take b).any fun a => match panes[b]? with
      | some q => a.pane.overlaps q.pane
      | none => false

/-- The first failing check of R76 to R78: the reason and argument B. -/
def RawLayout.failure (l : RawLayout) (g : Geometry) : Option (Nat × Nat) :=
  if 4 < l.count then some (1, l.count)
  else
    match l.panes.findIdx? fun p => !p.pane.rectOk g with
    | some n => some (1, n)
    | none =>
      match firstOverlap l.panes with
      | some b => some (2, b)
      | none => (l.panes.findIdx? fun p => !p.sourceOk).map fun n => (3, n)

/-! ## The freeze pin (R79) -/

/-- The lowest-numbered FREEZE pane. -/
def RawLayout.firstFreeze (l : RawLayout) : Option Nat := l.panes.findIdx? fun p => decide (p.pane.kind = .freeze)

/-- Requests a FREEZE pin on the newest slot; on refusal the old freeze slot, if one was released, is pinned again. -/
def State.requestFreeze (s : State) (m : Nat) (old : Option Nat) : State × Option Nat :=
  if s.intake.poolGrants m then (s.givePin m .freeze, none)
  else
    match old with
    | some o => (s.givePin o .freeze, some 5)
    | none => (s, some 5)

/-- The slot that the feeder finds newest as it settles the freeze pin: none in STANDBY (R79). Between the feeder's entry to STANDBY
and the intake's a slot still carries the mark; R182 leaves the order of the two open, and the model follows the words of R79, R69 and
R89: no freeze pin is granted, nor held, in STANDBY (assumption log 41). -/
def State.newestForFreeze (s : State) : Option Nat := if s.feeder.view = .live then s.intake.newest else none

/-- Settles the freeze pin of a layout that has passed its checks: the state, and the reason of a refusal (R79; assumption log
41). -/
def State.settleFreeze (s : State) (l : RawLayout) : State × Option Nat :=
  if l.firstFreeze = none then (s, none)
  else
    match s.intake.freezeSlot, s.newestForFreeze with
    | some old, newest =>
      if !l.refreeze then (s, none)
      else
        match newest with
        | none => (s, some 4)
        | some m => (s.releasePin old .freeze).requestFreeze m (some old)
    | none, none => (s, some 4)
    | none, some m => s.requestFreeze m none

/-! ## Taking or refusing a layout (R76, R80) -/

/-- The layout is refused as a whole; the posted mark has been cleared (R76). -/
def State.refuseLayout (s : State) (reason generation pane : Nat) : State :=
  s.raise .feeder .layoutRefused reason generation pane

/-- A pane's current zoom: that of the same-numbered pane of the old layout, if it existed (R80). -/
def carryZoom (old : Layout) (n : Nat) (p : Pane) : Pane :=
  match old.panes[n]? with
  | some q => { p with current := q.current }
  | none => p

/-- The layout becomes the working layout (R80). -/
def State.adoptLayout (s : State) (l : RawLayout) : State :=
  let panes := l.panes.zipIdx.map fun (p, n) => carryZoom s.feeder.layout n p.pane
  let s1 := { s with feeder.layout := { generation := l.generation, background := l.background, panes := panes } }
  let s2 :=
    if l.firstFreeze = none then
      match s1.intake.freezeSlot with
      | some n => s1.releasePin n .freeze
      | none => s1
    else s1
  s2.raise .feeder .layoutTaken l.panes.length l.generation 0

/-- Step 4 of the frame turn, the record having been read (R76 to R80). -/
def State.applyLayout (s : State) (bytes : List Byte) : State :=
  let l := parseLayout bytes
  match l.failure (rasterSize s.feeder.outputMode) with
  | some (reason, pane) => s.refuseLayout reason l.generation pane
  | none =>
    match s.settleFreeze l with
    | (t, some reason) => t.refuseLayout reason l.generation (l.firstFreeze.getD 0)
    | (t, none) => t.adoptLayout l

/-! ## The other steps of the frame turn (R72) -/

/-- Step 3: a changed output mode brings the default layout of its raster (R68). The mode is the one that stood in the working setup
as the frame turn came, also where the feeder acts on the turn later (the model's choice, assumption log 13). -/
def State.readOutputMode (s : State) (m : Nat) : State :=
  if s.feeder.outputMode = m then s
  else { s with feeder.outputMode := m, feeder.layout := defaultLayout (rasterSize m) }

/-- One step of a zoom ramp (R83). -/
def rampStep (current target rate : Nat) : Nat :=
  if rate = 0 then target
  else if current ≤ target then current + min (target - current) rate
  else current - min (current - target) rate

def Pane.ramp (p : Pane) : Pane := { p with current := rampStep p.current p.target p.rate }

/-- Step 5. -/
def State.stepRamps (s : State) : State :=
  { s with feeder.layout := { s.feeder.layout with panes := s.feeder.layout.panes.map Pane.ramp } }

/-- Step 6: the display hold (R74). -/
def State.moveHold (s : State) : State :=
  { s with
    intake.hold :=
      if s.feeder.layout.panes.any fun p => decide (p.kind = .live) then s.intake.newest else none }

/-- The slot a pane shows: the display slot or the freeze slot (R82). -/
def State.paneSlot (s : State) (p : Pane) : Option Nat :=
  match p.kind with
  | .live => s.intake.hold
  | .freeze => s.intake.freezeSlot
  | .stored => none

/-- A pane's source image when it is present (R82). -/
def State.paneSource (s : State) (p : Pane) : Option (Nat × Geometry) :=
  match p.kind with
  | .stored => some (p.image, ⟨p.imageW, p.imageH⟩)
  | _ => (s.paneSlot p).map fun n => (slotAddr n, (s.intake.slot n).geometry.getD ⟨0, 0⟩)

/-- The render parameters latched for a pane with a present source (R84). -/
def State.latchPane (s : State) (p : Pane) : Option LatchedPane :=
  (s.paneSource p).map fun (source, g) =>
    let (gain, coring) := s.post.setup.profile p.profile
    { x := p.x, y := p.y, w := p.w, h := p.h
      render :=
        { source := source, ws := g.w, hs := g.h, wp := p.w, hp := p.h, zoom := p.current, cx := p.cx, cy := p.cy
          gain := gain, coring := coring, mode := p.mode, black := p.black, white := p.white, copy := none
          background := s.feeder.layout.background, destination := 0 } }

/-- Step 7 (R84). -/
def State.latchSources (s : State) : State :=
  { s with feeder.latched := s.feeder.layout.panes.filterMap s.latchPane }

/-- The centre used that a LIVE frame turn reports for pane n, the horizontal one first (R73, R84; free where the source is
absent, assumption log 2). -/
def State.reportedCentre (s : State) (n : Nat) (p : Pane) : Nat × Nat :=
  match s.latchPane p with
  | some l => (l.render.centreX, l.render.centreY)
  | none =>
    let v := Config.absentPaneCentre s.feeder.frameNumber n
    (v.toNat % 65536, v.toNat / 65536)

/-- The 8 bytes of pane n among the frame fields: zoom, source slot plus one, reserved, centre (R73, status area 0x50). -/
def State.paneFields (s : State) (n : Nat) : List Byte :=
  match s.feeder.layout.panes[n]? with
  | some p =>
    if s.feeder.view = .live then
      leBytes 2 p.current ++ leBytes 1 ((s.paneSlot p).map (· + 1) |>.getD 0) ++ zeros 1
        ++ leBytes 2 (s.reportedCentre n p).1 ++ leBytes 2 (s.reportedCentre n p).2
    else zeros 8
  | none => zeros 8

/-- The page state as the host sees it: a pattern whose timeout is due has ended (R23, assumption log 8). -/
def Monitor.reportedState (m : Monitor) : PageState := if m.timeoutDue then .settled else m.pageState

/-- The frame fields, status area 0x20 to 0x6F, with the output frame number after the increase (R73, R178). The reserved bytes among
them are written as zeros; those from 0x70 on are not part of the operation (R189, assumption log 42). -/
def State.frameFields (s : State) (frame : Nat) : List Byte :=
  leBytes 4 frame ++ leBytes 4 s.intake.frameNumber ++ leBytes 4 s.intake.malformed ++ leBytes 4 s.intake.drops
    ++ leBytes 4 s.feeder.underruns ++ leBytes 4 s.feeder.faults ++ leBytes 4 s.port.correctable
    ++ leBytes 4 s.port.uncorrectable ++ leBytes 4 s.feeder.layout.generation
    ++ leBytes 1 s.feeder.layout.panes.length ++ leBytes 1 s.monitor.reportedState.value
    ++ leBytes 1 s.monitor.levels.black ++ leBytes 1 s.monitor.levels.white
    ++ leBytes 1 (boolByte s.monitor.levels.valid) ++ zeros 7
    ++ s.paneFields 0 ++ s.paneFields 1 ++ s.paneFields 2 ++ s.paneFields 3

/-- The post port's holdoff timer counts the output frame (R176). -/
def State.countHoldoff (s : State) : State :=
  let s := s.resolveHoldoff
  match s.post.timer with
  | some t => { s with post.timer := some (t + 1), post.holdoffDue := decide (s.post.setup.holdoff ≤ t + 1) }
  | none => s

/-- Mode control's reaction timer and its count of output frames in SHUTTING (R185, R187). -/
def State.countReaction (s : State) : State :=
  { s with
    control.timerCount := if s.control.timerOn then satInc 65535 s.control.timerCount else s.control.timerCount
    control.shuttingFrames :=
      if s.control.mode = .shutting then s.control.shuttingFrames + 1 else s.control.shuttingFrames }

/-- Step 8: the output frame is counted, the frame fields are written, the timers count (R73, R178). -/
def State.countFrame (s : State) : State :=
  let n := wrapInc s.feeder.frameNumber
  { s.issueWrite .feeder .post [(0x20, s.frameFields n)] with feeder.frameNumber := n }.countHoldoff.countReaction

/-- Step 9: strip 0 of the next frame is requested (R70). -/
def State.beginLiveFrame (s : State) : State :=
  { s with feeder.liveFrame := true, feeder.late := false }.requestStrip 0

/-- Steps 5 to 9. -/
def State.frameTurnRest (s : State) : State :=
  if s.feeder.view = .live then
    s.stepRamps.moveHold.latchSources.countFrame.beginLiveFrame.takeWork
  else s.stepRamps.countFrame

/-- Steps 1 and 2: in LIVE the engine takes work at the abandonment of step 1 and at the clearing of the flag in step 2. -/
def State.frameTurnJudge (s : State) : State :=
  if s.feeder.view = .live then s.beginScanout.takeWork.judge.takeWork else s.beginScanout

/-- A posted layout is read at this frame turn (R72, R75). -/
def State.readsLayout (s : State) : Bool :=
  s.feeder.posted && (decide (s.feeder.view = .live) || decide (s.feeder.view = .standby))

/-- The frame turn (R72) after which the raster runs in this output mode, up to the wait for the layout read or to its end. -/
def State.turnFrame (s : State) (mode : Nat) : State :=
  let t := s.frameTurnJudge.readOutputMode mode
  if t.readsLayout then { t with feeder.layoutRead := .waiting }.issue .feeder .feeder (.read .layout Config.layoutBase [])
  else t.frameTurnRest

/-! ## Entries of a mode (R89, R90) -/

/-- The degraded flag is cleared by an entry (R89). -/
def State.recoverAtEntry (s : State) : State :=
  if s.feeder.degraded then
    (s.setDegraded false).raise .feeder .displayRecovered 1 s.feeder.frameNumber 0
  else s

/-- The freeze pin is released, if it is held. -/
def State.releaseFreeze (s : State) : State :=
  match s.intake.freezeSlot with
  | some n => s.releasePin n .freeze
  | none => s

/-- Steps 1 to 5 of R89. An engine that has abandoned the strip takes its next work at that same point, ahead of the record operations
of the later steps (R93, R99). -/
def State.leaveLive (s : State) : State :=
  let t := s.withdrawStrip.takeWork.releaseFreeze
  { t with intake.hold := none, feeder.liveFrame := false, feeder.late := false, feeder.latched := [] }.clearRuns.recoverAtEntry

/-- The feeder takes the entry to a mode (R89, R90). -/
def State.feederEntry (s : State) (m : Mode) : State :=
  let t := { s with feeder.view := m }
  match m with
  | .standby => t.leaveLive
  | .shutting => { t.leaveLive with feeder.posted := false }
  | _ => t

/-! ## Events during the wait for the layout read (R72) -/

/-- The feeder acts on an event. -/
def State.feederEvent (s : State) : FeederEvent → State
  | .scanout k => s.stripScanout k
  | .turn m => s.turnFrame m
  | .takeLayout => { s with feeder.posted := true }
  | .entry m => s.feederEntry m

/-- An event reaches the feeder: it acts on it, or after the frame turn that waits for its read (R72). A TAKE_LAYOUT kept so has left
the post port's hand (the model's choice, assumption log 44). -/
def State.feederTakes (s : State) (e : FeederEvent) : State :=
  if s.feeder.layoutRead = .idle then s.feederEvent e else { s with feeder.deferred := s.feeder.deferred ++ [e] }

/-- The events that came during the wait, in their order; a frame turn among them that waits again leaves the rest. -/
def State.feederAll : List FeederEvent → State → State
  | [], s => s
  | e :: es, s => State.feederAll es ((s.feederTakes e).takeWork)

/-- The frame turn goes on once its read has been performed. -/
def State.resumeTurn (s : State) (bytes : Option (List Byte)) : State :=
  let events := s.feeder.deferred
  let t := { s with feeder.layoutRead := .idle, feeder.posted := false, feeder.deferred := [] }
  let t' :=
    match bytes with
    | some b => t.applyLayout b
    | none => t.refuseLayout 6 t.feeder.layout.generation 0
  State.feederAll events t'.frameTurnRest

/-! ## Commands -/

/-- STRIP_SCANOUT_START (R68, R70, R85, R102): the strips of a frame are scanned out from strip 0 on, so only the next one of the
raster can begin, and the last one's beginning is the frame turn (assumption log 13). -/
def execStripScanoutStart (strip : Nat) (s : State) : Result :=
  if s.rasterAt strip = true ∧ strip + 1 < stripCount s.feeder.rasterMode then
    .next (s.closeWork ((s.moveRaster (strip + 1)).feederTakes (.scanout strip)))
  else .next s

/-- FRAME_TURN (R68, R72, R102): the scan-out of the last strip begins; after it the raster begins again at strip 0, in the output mode
that the working setup now holds (assumption log 13). -/
def execFrameTurn (s : State) : Result :=
  if s.rasterAt (stripCount s.feeder.rasterMode - 1) then
    .next (s.closeWork ((s.moveRaster 0).feederTakes (.turn s.post.setup.outputMode)))
  else .next s

/-- LAYOUT_READ_DONE (R72, R76, R163): an entry to SHUTTING kept behind the frame turn has now been acted on (R187). -/
def execLayoutReadDone (s : State) : Result :=
  if s.feeder.layoutRead = .idle then .next s
  else
    let t := s.drain fun x => x.feeder.layoutRead.settled
    match t.feeder.layoutRead with
    | .got bytes => .next (s.closeWork (t.resumeTurn (some bytes)).shutdownTest)
    | .error _ => .next (s.closeWork (t.resumeTurn none).shutdownTest)
    | _ => .next s

/-- STRIP_COMPLETE (R70, R86, R100). -/
def execStripComplete (s : State) : Result :=
  match s.engine.unit with
  | some u =>
    match u.work with
    | .strip _ buffer =>
      match s.finishReads u with
      | (t, true) => .next (s.closeWork ((t.stripDone u buffer).dropUnit))
      | (t, false) => .next (s.closeWork ((t.stripFaulted buffer).dropUnit))
    | _ => .next s
  | none => .next s

/-- TAKE_LAYOUT (R75). Where the feeder keeps it behind a frame turn that waits for its layout read (R72), the word leaves the hand all the
same, and the port goes on to later words before the feeder acts on it: R168 has a word in hand until its owner has answered, and does
not say whether being kept is an answer (the model's choice, assumption log 44). -/
def execTakeLayout (s : State) : Result := s.takeWord 2 Mode.takesWords anyArgument fun _ t => t.feederTakes .takeLayout

end Sys2Proof.Machine
end

