-- ==== Sys2Proof/Machine/Intake.lean ====
section
/-! DEFINITION. The frame intake (01_frame_intake_and_frame_slots.md, R1 to R18): the sensor events, the shape checks, the intake
buffer, acceptance and the slot choice, instability, and the intake's entries of a mode. -/

namespace Sys2Proof.Machine

/-! ## Bad frames (R4, R5, R14, R15) -/

/-- The latched geometry of the frame in hand (R1). -/
def Intake.frameGeometry (i : Intake) : Geometry := i.geometry.getD ⟨0, 0⟩

/-- The instability counter rises by one, and on reaching 32 with the flag clear sets it and raises SENSOR_UNSTABLE (R14, R15).
`cause` is 0 for a malformed frame and 1 for a dropped one. -/
def State.bumpInstability (s : State) (cause : Nat) : State :=
  let t := s.setInstability (satInc 32 s.intake.instability)
  if s.intake.instability + 1 = 32 ∧ s.intake.suspended = false then
    (t.setSuspended true).raise .intake .sensorUnstable cause s.intake.malformed s.intake.drops
  else t

/-- The slot that was FILLING for the frame in hand becomes FREE (R4, R5, R16, R17). -/
def State.freeTarget (s : State) : State :=
  match s.intake.target with
  | .slot n => s.modifySlot n fun t => { t with fill := .free }
  | _ => s

/-- The frame in hand leaves no trace: its bytes in the buffer are discarded, its slot is FREE, its accumulators are gone. The
bytes of a pending frame stay (R5, R7). A grant of the INTAKE that is left with nothing to move ends as the step closes, so the record
operations of the same command count at the next choice (the model's choice, assumption log 34). -/
def State.discardFrame (s : State) : State :=
  { s.freeTarget with
    intake.buffer := s.intake.buffer.filter BufferByte.ofPending
    intake.target := .standby
    intake.sums := []
    intake.lineOpen := false }

/-- The frame in hand is malformed (R4); the caller gives the next intake state. -/
def State.malformedFrame (s : State) : State :=
  let t := s.discardFrame
  { t with intake.malformed := satInc Config.counterMax t.intake.malformed }.bumpInstability 0

/-- The frame in hand is dropped (R5). -/
def State.dropFrame (s : State) : State :=
  let t := s.discardFrame
  { t with intake.drops := satInc Config.counterMax t.intake.drops, intake.state := .discarding }.bumpInstability 1

/-- Malformed while its lines arrive: the rest is passed over (R3). -/
def State.malformedLine (s : State) : State := { s.malformedFrame with intake.state := .discarding }

/-! ## Slot choice and the beginning of a frame (R2, R7, R9) -/

/-- The lowest-numbered fillable slot (R9). -/
def Intake.choice (i : Intake) : Option Nat := (List.range 5).find? i.fillable

/-- The intake chooses a slot for the frame in hand (R9). A frame for which none is fillable, which R9 says cannot be, is
checked and not stored (assumption log 23). -/
def State.chooseSlot (s : State) : State :=
  match s.intake.choice with
  | some n =>
    { s.modifySlot n fun t => { t with fill := .filling, geometry := some s.intake.frameGeometry } with
      intake.target := .slot n }
  | none => { s with intake.target := .standby }

/-- A new frame begins (R2): the geometry is latched, accumulators and counts are cleared and, in LIVE, a slot is chosen, later
if an acceptance is pending (R7). -/
def State.beginFrame (s : State) : State :=
  let t :=
    { s with
      intake.state := .receiving
      intake.geometry := some ⟨s.post.setup.width, s.post.setup.height⟩
      intake.linesDone := 0
      intake.lineOpen := false
      intake.lineCount := 0
      intake.sums := noSums
      intake.target := .standby }
  if s.intake.view = .live then
    (if s.intake.pendingFrame.isSome then { t with intake.target := .deferred } else t.chooseSlot)
  else t

/-! ## Acceptance (R6, R7, R12 to R14, R114) -/

/-- The capture unit's slot-wait count takes an accepted frame (R114); an expiry once reached stays. -/
def State.countSlotWait (s : State) : State :=
  if s.capture.slotWaiting then
    { s with
      capture.slotCount := s.capture.slotCount + 1
      capture.slotExpired := s.capture.slotExpired || decide (s.post.setup.slotWait ≤ s.capture.slotCount + 1) }
  else s

/-- Steps 2 to 5 of R6: the frame number, the held statistics, the instability counter, and the means on their way to the page
monitor; the slot-wait count takes the frame too (R114). -/
def State.acceptMeans (s : State) (means : List Nat) (g : Geometry) : State :=
  let n := wrapInc s.intake.frameNumber
  let stats : TileStats := { means := means, frame := n, geometry := g }
  let t := { s with intake.frameNumber := n, intake.held := some stats }
  let t := t.setInstability (t.intake.instability - 1)
  { t with intake.meansOut := t.intake.meansOut ++ [stats] }.countSlotWait

/-- Step 1 of R6: the slot becomes COMPLETE and, outside STANDBY, takes the newest mark. An acceptance that was pending at an entry to
STANDBY takes none (R16), also where LIVE or SHUTTING has been entered since: there R16 withholds what R6 and R17 give, and the
model follows R16 (assumption log 39). -/
def State.completeSlot (s : State) (p : PendingFrame) : State :=
  let t := s.modifySlot p.slot fun x => { x with fill := .complete }
  if p.noMark = true ∨ s.intake.view = .standby then t else { t with intake.newest := some p.slot }

/-- The bytes of the pending frame still in the buffer, one plane after the other, with their addresses. -/
def Intake.pendingCells (i : Intake) (slot : Nat) : List (Nat × Byte) :=
  (i.planeBytes true false ++ i.planeBytes true true).map fun b => (slotAddr slot + b.offset, b.value)

/-- The pending frame's last bytes go to the memory port (assumption log 7). -/
def State.deliverPending (s : State) (p : PendingFrame) : State :=
  let t := s.storeRuns .intake ((runsOf (s.intake.pendingCells p.slot)).flatMap burstsOf)
  { t with intake.buffer := t.intake.buffer.filter fun b => !b.ofPending }

/-- The choice that waited for the acceptance is made (R7). -/
def State.deferredChoice (s : State) : State :=
  if s.intake.target = .deferred then s.chooseSlot else s

/-- The pending frame is accepted (R6, R7). -/
def State.acceptPending (s : State) (p : PendingFrame) : State :=
  let t := { (s.deliverPending p).completeSlot p with intake.pendingFrame := none }
  (t.acceptMeans p.means p.geometry).deferredChoice

/-- The tile means of the frame in hand (R12). -/
def Intake.frameMeans (i : Intake) : List Nat := tileMeans i.sums i.frameGeometry.w i.frameGeometry.h

/-- H whole lines have ended and no line is open (R2). -/
def Intake.frameWhole (i : Intake) : Bool := decide (i.linesDone = i.frameGeometry.h) && !i.lineOpen

/-- A complete frame at its frame end (R6): a standby frame is accepted, one with a slot is pending. One whose choice is still
deferred cannot be whole, since it would have filled the buffer; it is dropped (assumption log 23). -/
def State.frameComplete (s : State) : State :=
  match s.intake.target with
  | .standby =>
    { s with intake.state := .waiting, intake.sums := [] }.acceptMeans s.intake.frameMeans s.intake.frameGeometry
  | .slot n =>
    { s with
      intake.state := .waiting
      intake.pendingFrame := some { slot := n, geometry := s.intake.frameGeometry, means := s.intake.frameMeans }
      intake.buffer := s.intake.buffer.map fun b => { b with ofPending := true }
      intake.target := .standby
      intake.sums := [] }
  | .deferred => { s.dropFrame with intake.state := .waiting }

/-! ## Components (R3, R5, R12) -/

/-- The component that arrives as the n-th of line j: its plane and its offset in the slot (R5). -/
def componentPlace (g : Geometry) (j n : Nat) : Bool × Nat :=
  if n % 2 = 0 then (false, j * g.w + n / 2) else (true, g.w * g.h + j * g.w + n / 2)

/-- Stores a component: into the buffer when the frame has a slot or waits for one, and a luma sample into its tile's sum. -/
def State.storeComponent (s : State) (value : Byte) : State :=
  let i := s.intake
  let place := componentPlace i.frameGeometry i.linesDone i.lineCount
  { s with
    intake.lineCount := i.lineCount + 1
    intake.sums :=
      if place.1 then i.sums
      else addSample i.sums i.frameGeometry.w i.frameGeometry.h (i.lineCount / 2) i.linesDone value.toNat
    intake.buffer :=
      if i.target = .standby then i.buffer
      else i.buffer ++ [{ ofPending := false, chroma := place.1, offset := place.2, value := value }] }

/-- A component of an open line (R3, R5). -/
def State.takeComponent (s : State) (value : Byte) : State :=
  if s.intake.lineCount = 2 * s.intake.frameGeometry.w then s.malformedLine
  else if s.intake.target ≠ .standby ∧ Config.bufferBytes ≤ s.intake.buffer.length then s.dropFrame
  else s.storeComponent value

/-! ## Entries of a mode (R16, R17) -/

/-- A frame with a slot or waiting for one is passed over, uncounted (R16). -/
def State.passOver (s : State) : State :=
  if s.intake.state = .receiving ∧ s.intake.target ≠ .standby then
    { s.discardFrame with intake.state := .discarding }
  else s

/-- The pending acceptance will complete without the newest mark (R16). -/
def State.unmarkPending (s : State) : State :=
  { s with intake.pendingFrame := s.intake.pendingFrame.map fun p => { p with noMark := true } }

/-- The intake takes the entry to a mode (R2, R16, R17). -/
def State.intakeEntry (s : State) (m : Mode) : State :=
  let t := { s with intake.view := m }
  match m with
  | .standby =>
    let t := t.passOver.unmarkPending
    { t with
      intake.newest := none
      intake.state := if t.intake.state = .stopped then .waiting else t.intake.state }
  | .shutting => { t.discardFrame with intake.state := .stopped }
  | _ => t

/-! ## Commands -/

/-- FRAME_START (R1, R2, R7, R9). -/
def execFrameStart (s : State) : Result :=
  match s.intake.state with
  | .stopped => .next s
  | .waiting | .discarding => .next (s.close s.beginFrame)
  | .receiving => .next (s.close s.malformedFrame.beginFrame)

/-- FRAME_END (R2, R6, R16). -/
def execFrameEnd (s : State) : Result :=
  match s.intake.state with
  | .stopped | .waiting => .next s
  | .discarding => .next (s.close { s with intake.state := .waiting })
  | .receiving =>
    .next (s.closeWork
      (if s.intake.frameWhole then s.frameComplete else { s.malformedFrame with intake.state := .waiting }))

/-- LINE_START (R1, R3). -/
def execLineStart (s : State) : Result :=
  match s.intake.state with
  | .receiving =>
    .next (s.close
      (if s.intake.linesDone = s.intake.frameGeometry.h then s.malformedLine
       else { s with intake.lineOpen := true, intake.lineCount := 0 }))
  | _ => .next s

/-- LINE_END (R3): a line end while no line is open is disregarded. -/
def execLineEnd (s : State) : Result :=
  match s.intake.state, s.intake.lineOpen with
  | .receiving, true =>
    .next (s.close
      (if s.intake.lineCount = 2 * s.intake.frameGeometry.w then
        { s with intake.lineOpen := false, intake.linesDone := s.intake.linesDone + 1 }
       else s.malformedLine))
  | _, _ => .next s

/-- COMPONENT (R3, R5, R12): a component while no line is open is disregarded. -/
def execComponent (value : Byte) (s : State) : Result :=
  match s.intake.state, s.intake.lineOpen with
  | .receiving, true => .next (s.close (s.takeComponent value))
  | _, _ => .next s

/-- ACCEPTANCE (R6, R7). -/
def execAcceptance (s : State) : Result :=
  match s.intake.pendingFrame with
  | some p => .next (s.closeWork (s.acceptPending p))
  | none => .next s

/-- CLEAR_INSTABILITY (R15). -/
def execClearInstability (s : State) : Result :=
  s.takeWord 12 Mode.takesWords anyArgument fun _ t => (t.setInstability 0).setSuspended false

end Sys2Proof.Machine
end

