-- ==== Sys2Proof/Machine/Monitor.lean ====
section
/-! DEFINITION. The page monitor (02_page_monitor_and_page_index.md, R19 to R33, R41): frame classes, the page state machine, the
STILL frame in LIVE and in STANDBY with the wake it may cause (R184), and PAGE_FORGET. -/

namespace Sys2Proof.Machine

/-! ## Classes (R20, R21) -/

inductive FrameClass where
  | moving | quiet | unsettled
  deriving DecidableEq, Repr

/-- A tile is active (R20). -/
def tileActive (u : Setup) (previous means : List Nat) (t : Nat) : Bool :=
  !u.masked t && decide (u.threshold ≤ ((means.getD t 0 : Int) - (previous.getD t 0 : Int)).natAbs)

/-- The number of active tiles (R20). -/
def activeTiles (u : Setup) (previous means : List Nat) : Nat := (List.range 192).countP (tileActive u previous means)

/-- The class of a frame with n active tiles (R21). -/
def frameClass (u : Setup) (n : Nat) : FrameClass :=
  if u.motionTiles ≤ n then .moving else if n ≤ u.quietTiles then .quiet else .unsettled

/-! ## The page state machine (R22, R23) -/

/-- What the state machine keeps: the page state, the runs and the pattern age. -/
structure Pattern where
  state : PageState
  motionRun : Nat
  stillRun : Nat
  age : Nat
  deriving DecidableEq, Repr

def Monitor.pattern (m : Monitor) : Pattern :=
  { state := m.pageState, motionRun := m.motionRun, stillRun := m.stillRun, age := m.patternAge }

def State.setPattern (s : State) (p : Pattern) : State :=
  { s with monitor.pageState := p.state, monitor.motionRun := p.motionRun, monitor.stillRun := p.stillRun,
           monitor.patternAge := p.age }

/-- No pattern in progress. -/
def settledPattern : Pattern := { state := .settled, motionRun := 0, stillRun := 0, age := 0 }

/-- The step of R22. A flicker leaves the runs and the age as the row gives them; the next pattern starts them afresh. -/
def Pattern.step (u : Setup) (p : Pattern) : FrameClass → Pattern
  | .moving =>
    match p.state with
    | .settled => { state := .moving, motionRun := 1, stillRun := 0, age := 1 }
    | .moving => { p with motionRun := satInc 255 p.motionRun, age := p.age + 1 }
    | .settling => { state := .moving, motionRun := 1, stillRun := 0, age := p.age + 1 }
  | .quiet =>
    match p.state with
    | .settled => p
    | .moving =>
      if u.motionMin ≤ p.motionRun then { p with state := .settling, stillRun := 1, age := p.age + 1 }
      else { p with state := .settled, age := p.age + 1 }
    | .settling => { p with stillRun := p.stillRun + 1, age := p.age + 1 }
  | .unsettled =>
    match p.state with
    | .settled => p
    | .moving => { p with motionRun := satInc 255 p.motionRun, age := p.age + 1 }
    | .settling => { p with stillRun := 0, age := p.age + 1 }

/-- The frame is a STILL frame (R23, first test). -/
def Pattern.still (u : Setup) (p : Pattern) : Bool := decide (p.state = .settling) && decide (u.settleFrames ≤ p.stillRun)

/-- The pattern times out (R23, second test). -/
def Pattern.timesOut (u : Setup) (p : Pattern) : Bool := decide (p.state ≠ .settled) && decide (u.window ≤ p.age)

/-- A pattern that has reached the pattern window ends (R23): PATTERN_TIMEOUT with what it had at the timeout. -/
def State.endPattern (s : State) : State :=
  let m := s.monitor
  { s.setPattern settledPattern with monitor.timeoutDue := false }.raise .monitor .patternTimeout
    (if m.pageState = PageState.settling then 1 else 0) m.patternAge m.motionRun

/-- A timeout that is due is taken before anything else reaches the monitor's pattern (assumption log 8). -/
def State.resolveTimeout (s : State) : State := if s.monitor.timeoutDue then s.endPattern else s

/-! ## The STILL frame (R26 to R32, R184) -/

/-- The best entry for a signature with its distance: the smallest distance, the lowest number between equal ones (R29). -/
def bestEntry (u : Setup) (sig : Signature) (index : List IndexEntry) : Option (Nat × Nat) :=
  index.zipIdx.foldl
    (fun best (e, n) =>
      if e.state = .empty then best
      else
        let d := signatureDistance u sig e.signature
        match best with
        | none => some (n, d)
        | some b => if d < b.2 then some (n, d) else some b)
    none

/-- The matching entry of a lookup with its distance (R29). -/
def lookup (u : Setup) (sig : Signature) (index : List IndexEntry) : Option (Nat × Nat) :=
  (bestEntry u sig index).filter fun b => decide (b.2 ≤ u.tolerance)

/-- A page is seen (R30). R30 and R190 fix the state as the last field written; that the seen count goes before the last-seen frame
number, as at the lower address, and that the fields that do not change are not written again, is the model's choice (assumption log
35). -/
def State.pageSeen (s : State) (n distance frame : Nat) : State :=
  let e := { s.monitor.entry n with seen := satInc 255 (s.monitor.entry n).seen, lastSeen := frame }
  let t := (s.setEntry n e).issueWrite .monitor .monitor
    [(indexAddr n + 1, leBytes 1 e.seen), (indexAddr n + 8, leBytes 4 e.lastSeen), (indexAddr n, leBytes 1 e.state.value)]
  t.raise .monitor .pageSeen n e.page distance

/-- A STILL frame in LIVE (R26 to R31). -/
def State.stillLive (s : State) (f : TileStats) : State :=
  let u := s.post.setup
  let levels := levelsOf u f.means
  let sig := signatureOf u f.means levels
  let t := { s with monitor.levels := levels }
  if !t.capture.lessonOpen then t
  else
    match lookup u sig t.monitor.index with
    | some (n, d) => t.pageSeen n d f.frame
    | none =>
      if u.autoCapture = true ∧ t.intake.suspended = false then
        { t with capture.decisions := t.capture.decisions ++ [{ frame := f.frame, signature := sig, levels := levels }] }
      else t

/-- Mode control learns of a presence (R184). -/
def State.wake (s : State) : State :=
  if s.control.mode = .standby ∧ s.post.setup.autoWake = true then
    let t := s.changeMode .live causePresence
    { t with
      control.timerOn := decide (s.post.setup.hostWait ≠ 0)
      control.timerCount := 0
      control.timerWait := s.post.setup.hostWait }
  else s

/-- A STILL frame in STANDBY (R32). -/
def State.stillStandby (s : State) (age : Nat) : State := (s.raise .monitor .presence 0 age 0).wake

/-- The tests of R23 after the step of R22. -/
def State.judgePattern (s : State) (p : Pattern) (f : TileStats) : State :=
  if p.still s.post.setup then
    let t := s.setPattern settledPattern
    if s.monitor.view = .live then t.stillLive f else t.stillStandby p.age
  else { s.setPattern p with monitor.timeoutDue := p.timesOut s.post.setup }

/-- The capture unit learns that a frame is MOVING (R112). -/
def State.tellMoving (s : State) (c : FrameClass) : State :=
  if c = .moving ∧ s.capture.context.state = .waitingPin then s.missCapture missPageMoved else s

/-- A frame is classified and acted on (R19 to R23). -/
def State.classify (s : State) (previous : List Nat) (f : TileStats) : State :=
  let c := frameClass s.post.setup (activeTiles s.post.setup previous f.means)
  (s.tellMoving c).judgePattern (s.monitor.pattern.step s.post.setup c) f

/-- The means to compare a frame's with, when it is to be classified (R19). -/
def State.comparable (s : State) (f : TileStats) : Option (List Nat) :=
  match s.monitor.previous with
  | some (means, g) =>
    if g = f.geometry ∧ s.monitor.view ≠ .shutting ∧ s.monitor.view ≠ .powerdown then some means else none
  | none => none

/-- The frame is classified where its means can be compared (R19). -/
def State.judgeMeans (s : State) (f : TileStats) : State :=
  match s.comparable f with
  | some previous => s.classify previous f
  | none => s

/-- An accepted frame's means reach the monitor, and then replace the previous ones (R19). -/
def State.takeMeans (s : State) (f : TileStats) : State :=
  let t := s.resolveTimeout.judgeMeans f
  { t with monitor.previous := some (f.means, f.geometry) }

/-! ## Entries of a mode (R25) -/

/-- The monitor takes the entry to a mode (R25); a timeout that was due came before it. -/
def State.monitorEntry (s : State) (m : Mode) : State :=
  let t := { s with monitor.view := m }
  match m with
  | .standby | .live | .shutting => { t.resolveTimeout.setPattern settledPattern with monitor.previous := none }
  | _ => t

/-! ## Commands -/

/-- TILE_MEANS_ARRIVAL (R19), unless the monitor waits for room (R155). -/
def execTileMeansArrival (s : State) : Result :=
  match s.intake.meansOut, s.free .monitor with
  | f :: rest, true => .next (s.closeWork ({ s with intake.meansOut := rest }.takeMeans f))
  | _, _ => .next s

/-- PATTERN_TIMEOUT (R23). -/
def execPatternTimeout (s : State) : Result :=
  if s.monitor.timeoutDue ∧ s.free .monitor then .next (s.close s.endPattern) else .next s

/-- PAGE_FORGET (R41). -/
def execPageForget (s : State) : Result :=
  s.takeWord 11 Mode.takesWords (fun a => decide (a ≤ 63)) fun w t =>
    if (t.monitor.entry (postArgument w)).state = .valid then t.setEntryState .monitor (postArgument w) .empty
    else t.refuse refusedNotValid w

end Sys2Proof.Machine
end

