-- ==== Sys2Proof/Machine/PostPort.lean ====
section
/-! DEFINITION. The post port (09_host_port_and_event_queue.md, R166 to R176): the post FIFO, words of unknown kind, setups, the
event queue and its acknowledgement, moderation, and the writes of CAUSE and MASK. -/

namespace Sys2Proof.Machine

/-! ## Setups (R171, R172) -/

/-- The input geometry is refused (R171, BAD_GEOMETRY). -/
def badGeometry (u : Setup) : Bool :=
  !(decide (u.width % 16 = 0) && decide (640 ≤ u.width) && decide (u.width ≤ 4096)
    && decide (u.height % 16 = 0) && decide (480 ≤ u.height) && decide (u.height ≤ 3072))

/-- A field that only STANDBY may change differs (R171, NEEDS_STANDBY). -/
def standbyFieldsDiffer (u old : Setup) : Bool :=
  decide (u.width ≠ old.width) || decide (u.height ≠ old.height) || decide (u.outputMode ≠ old.outputMode)
    || decide (u.queueSize ≠ old.queueSize)

/-- The first check of R171 that fails, as its reason. The mode is the one in which the word was taken, also where it has changed between
STANDBY and LIVE by the time of the checks (R168 and R185 have a word act under that mode; the model's choice, assumption log 49). -/
def State.setupFailure (s : State) (u : Setup) : Option Nat :=
  if badGeometry u then some 1
  else if ¬ u.quietTiles < u.motionTiles then some 2
  else if u.window < u.motionMin + u.settleFrames then some 3
  else if u.watermark = 0 then some 4
  else if s.post.handMode ≠ .standby ∧ standbyFieldsDiffer u s.post.setup = true then some 5
  else if u.queueSize ≠ s.post.setup.queueSize ∧ s.post.fill ≠ 0 then some 6
  else none

/-- SETUP_REFUSED for a record that could not be read (R170, R171). -/
def setupMemory : Nat := 7

/-- Moderation when a setup is taken (R176). -/
def State.rejudge (s : State) : State :=
  if s.post.setup.watermark ≤ s.post.fill ∧ s.post.unsignalled ≠ 0 then s.signalReady
  else if s.post.setup.holdoff = 0 then s.stopTimer
  else if s.post.unsignalled ≠ 0 ∧ s.post.timer = none then { s with post.timer := some 0, post.holdoffDue := false }
  else s

/-- A resize finds an empty queue and starts it at position 0 (R172). -/
def State.resizeQueue (s : State) (size : Nat) : State :=
  if size = s.post.setup.queueSize then s else (s.setPut 0).setGet 0

/-- A setup that passes is taken (R172). -/
def State.takeSetup (s : State) (u : Setup) (generation : Nat) : State :=
  let s := s.resolveHoldoff.resizeQueue u.queueSize
  let t := { s with post.setup := u, post.setupGeneration := generation }.rejudge
  (t.liveField .post 0x10 4 generation).takeEvent .setupTaken 0 generation 0 s.intake.frameNumber

/-- The setup record has been read (R170 to R172). -/
def State.setupRead (s : State) (bytes : List Byte) : State :=
  let u := parseSetup bytes
  match s.setupFailure u with
  | some reason => s.takeEvent .setupRefused reason (recordGeneration bytes) 0 s.intake.frameNumber
  | none => s.takeSetup u (recordGeneration bytes)

/-- The generation number of a setup record whose read was abandoned (R163, R171): free where it had not been read. -/
def State.generationBefore (s : State) (before : List Byte) : Nat :=
  if 4 ≤ before.length then recordGeneration before else (Config.unreadGeneration s.port.uncorrectable).toNat

/-! ## Acknowledgement (R173, R175, R176) -/

/-- How far position k lies from get around the ring. -/
def State.ringDistance (s : State) (k : Nat) : Nat := (k + s.post.setup.queueSize - s.post.get) % s.post.setup.queueSize

/-- Position k is unacknowledged (R173). -/
def State.unacknowledged (s : State) (k : Nat) : Bool :=
  decide (k < s.post.setup.queueSize) && decide (s.ringDistance k < s.post.fill)

/-- Moderation at an acknowledgement (R176). -/
def State.settleUnsignalled (s : State) : State :=
  let t := { s with post.unsignalled := min s.post.unsignalled s.post.fill }
  if t.post.unsignalled = 0 then t.stopTimer else t

/-- An acknowledgement that is taken (R175). -/
def State.acknowledge (s : State) (k : Nat) : State :=
  let s := s.resolveHoldoff
  let t := { s with post.fill := s.post.fill - (s.ringDistance k + 1) }
  (t.publishGet (ringNext s.post.setup.queueSize k)).settleUnsignalled

/-! ## Events on their way (R174) -/

/-- Of the events waiting, number n can be the next taken: those before it were raised together with it and by other blocks
(R174; assumption log 5). -/
def eligible (raised : List RaisedEvent) (n : Nat) : Bool :=
  match raised[n]? with
  | none => false
  | some e => ((raised.take (n + 1)).drop 1).all RaisedEvent.linked && (raised.take n).all fun x => decide (x.owner ≠ e.owner)

/-- POWER_SAFE has been taken: SAFE waits for the record operations issued so far (R187). With the event queue full R187 counts those
issued up to the taking, where it otherwise counts up to and including the record and its put index. The write of the lost count
that the taking itself issues (R174, R177) is among those that the model waits for: R187 does not say whether it is (the model's
choice, assumption log 46). -/
def State.watchSafe (s : State) (k : EventKind) : State := if k = .powerSafe then s.emit .post .safe else s

/-- An event is taken from those waiting; after POWER_SAFE SAFE waits for what stands issued then (assumption log 46). -/
def State.takeRaised (s : State) (n : Nat) (e : RaisedEvent) : State :=
  ({ s with post.raised := s.post.raised.eraseIdx n }.takeEvent e.kind e.small e.a e.b e.frame).watchSafe e.kind

/-! ## Commands -/

/-- POST_WRITE (R167). R152 and R167 speak of a word posted after a host write has ended. One that comes while the host bridge still
holds a host access in wait states joins the FIFO at once, and may be taken ahead of the held write: the registers have a select of
their own (R165), and the manual does not say whether the host can use it meanwhile (the model's choice, assumption log 45). -/
def execPostWrite (word : Word) (s : State) : Result :=
  match s.control.mode with
  | .reset | .boot => .next s
  | _ =>
    if s.post.fifo.length < Config.fifoRoom then .next { s with post.fifo := s.post.fifo ++ [word] }
    else .next (s.setCause .postOverflow)

/-- POST_UNKNOWN_KIND (R168, R169). -/
def execPostUnknownKind (s : State) : Result :=
  match s.post.fifo with
  | [] => .next s
  | w :: rest =>
    if (postKind w = 0 ∨ 12 < postKind w) ∧ s.portFree = true then
      .next (s.closeWork ((s.wordTaken rest).refuse refusedUnknown w))
    else .next s

/-- APPLY_SETUP (R170): the word stays in hand while the record is read. -/
def execApplySetup (s : State) : Result :=
  s.takeWord 1 Mode.takesWords anyArgument fun w t =>
    { t with post.inHand := some w, post.handMode := t.control.mode, post.setupRead := .waiting }.issue .post .post
      (.read .setup Config.setupBase [])

/-- SETUP_READ_DONE (R170 to R172). The end of a read that the post port waits for is not put off by a wait for room in the record queue:
the working setup is replaced at once, and what the port sends on goes out behind its wait (the model's choice, assumption log 22). -/
def execSetupReadDone (s : State) : Result :=
  if s.post.setupRead = .idle then .next s
  else
    let t := s.drain fun x => x.post.setupRead.settled
    let t' := { t with post.setupRead := .idle, post.inHand := none }
    match t.post.setupRead with
    | .got bytes => .next (s.closeWork (t'.setupRead bytes))
    | .error before => .next (s.closeWork (t'.takeEvent .setupRefused setupMemory (t'.generationBefore before) 0 t'.intake.frameNumber))
    | _ => .next s

/-- EVENT_ACK (R175). -/
def execEventAck (s : State) : Result :=
  s.takeWord 10 Mode.takesWords (fun a => decide (a ≤ 255)) fun w t =>
    if t.unacknowledged (postArgument w) then t.acknowledge (postArgument w) else t.refuse refusedIndex w

/-- EVENT_ARRIVAL (R174): the event taken is given by its place among those waiting. The post port takes none while it waits for room
(R155). -/
def execEventArrival (position : Nat) (s : State) : Result :=
  match s.post.raised[position]? with
  | none => .next s
  | some e =>
    if eligible s.post.raised position ∧ s.free .post then .next (s.close (s.takeRaised position e)) else .next s

/-- HOLDOFF_EXPIRY (R176). -/
def execHoldoffExpiry (s : State) : Result :=
  if s.post.holdoffDue ∧ s.free .post then .next s.signalReady else .next s

/-- CAUSE_WRITE (R166): each cause written as 1 is cleared. -/
def execCauseWrite (value : Word) (s : State) : Result :=
  if s.registersAnswer then .next { s with post.cause := s.post.cause &&& ~~~(value.setWidth 6) } else .next s

/-- MASK_WRITE (R166): all six enables are replaced. -/
def execMaskWrite (value : Word) (s : State) : Result :=
  if s.registersAnswer then .next { s with post.mask := value.setWidth 6 } else .next s

end Sys2Proof.Machine
end

