-- ==== Sys2Proof/Machine/MemoryPort.lean ====
section
/-! DEFINITION. The memory port (08_shared_memory_port.md, R150 to R163): a burst of each requester, the course of a grant, host
accesses, and the admission to the record queue. -/

namespace Sys2Proof.Machine

/-! ## DRAM words that go bad (R161 to R163) -/

/-- What befalls the DRAM before the burst is made. A word that is uncorrectable stays so until a write covers it whole (R161). The
read that stood at the DRAM for a strip as the engine abandoned it is made at most once: the memory port corrects, counts and
reports what it meets, and no unit is faulted (R102). -/
def State.upset (s : State) : Upset → State
  | .correctable w =>
    if w < Config.memTop / 4 ∧ w ∉ s.port.bad ∧ w ∉ s.port.weak then { s with port.weak := w :: s.port.weak } else s
  | .uncorrectable w v =>
    if w < Config.memTop / 4 then
      { s with
        mem := s.mem.writeBytes (4 * w) (leBytes 4 v.toNat)
        port.weak := s.port.weak.erase w
        port.bad := if w ∈ s.port.bad then s.port.bad else w :: s.port.bad }
    else s
  | .cutOff addr len =>
    if s.engine.cutOff.any fun u => u.moves ⟨false, addr, len⟩ then
      { (s.load .engine addr len).1 with engine.cutOff := none }
    else s

/-- What befell the DRAM before the burst, after which no read of an abandoned strip is left at it. -/
def State.befall (s : State) (upsets : List Upset) : State :=
  { upsets.foldl State.upset s with engine.cutOff := none }

/-! ## One burst (R157) -/

/-- The intake's burst: the oldest bytes of a plane go to their slot (R5). -/
def State.intakeBurst (s : State) : State :=
  match s.intake.nextBurst with
  | some (a, bs) =>
    let t := s.store .intake a (bs.map BufferByte.value)
    { t with intake.buffer := t.intake.buffer.filter fun b => decide (b ∉ bs) }
  | none => s

/-- A unit's read has met an uncorrectable error: it is reported to its owner and discarded (R86, R102, R122, R146). The owner's record
operations are issued before the ENGINE's grant ends, so RECORD is waiting at the choice that follows; R158 does not say whether a
request of the same moment counts there (the model's choice, assumption log 34). -/
def State.faultUnit (s : State) (u : EngineUnit) : State :=
  let t := match u.work with
    | .strip _ buffer => s.stripFaulted buffer
    | .capturePiece _ => s.capturePieceFaulted
    | .jobPiece _ | .signaturePiece _ => s.jobPieceFaulted
  t.dropUnit.shutdownTest

/-- The engine's burst. -/
def State.engineBurst (s : State) (u : EngineUnit) (b : EngineBurst) : State :=
  if b.write then
    let cells := (s.destinationCells u).filter fun c => (burstAddrs b).contains c.1
    (s.storeRuns .engine ((runsOf cells).flatMap burstsOf)).setUnit { u with written := burstAddrs b ++ u.written }
  else
    match s.load .engine b.addr b.len with
    | (t, some bytes) => t.setUnit { u with fetched := (burstAddrs b).zip bytes ++ u.fetched }
    | (t, none) => t.faultUnit u

/-- The bytes of a host write are put in place (R152); a write with no byte enabled writes nothing (assumption log 28). -/
def State.hostStore (s : State) (addr : Nat) (data : Word) (enables : BitVec 4) : State :=
  if enables = 0#4 then s
  else { s with mem := s.mem.writeEnabled addr data enables }.codeWord .host (decide (enables = 15#4)) (addr / 4)

/-- The host bridge's one transfer (R152, R163). -/
def State.hostBurst (s : State) : State :=
  match s.port.bridge with
  | none => s
  | some (.read a) =>
    match s.load .host a 4 with
    | (t, some bytes) =>
      { t with port.bridge := none, port.response := .data (BitVec.ofNat 32 (ofLe bytes)) }
    | (t, none) => { t with port.bridge := none, port.response := .error }
  | some (.write a d e) => { s.hostStore a d e with port.bridge := none, port.response := .done }

/-- The burst of a requester, none where the engine's is no transfer of its unit. -/
def State.burstOf (s : State) (q : Requester) (b : EngineBurst) : Option State :=
  match q with
  | .intake => some s.intakeBurst
  | .record => some s.recordBurst
  | .host => some s.hostBurst
  | .engine =>
    match s.engine.unit with
    | some u => if u.moves b then some (s.engineBurst u b) else none
    | none => none

/-! ## The course of a grant (R158) -/

/-- Another requester is waiting. -/
def State.othersWait (s : State) (q : Requester) : Bool :=
  [Requester.intake, .engine, .record, .host].any fun r => decide (r ≠ q) && s.waits r

/-- A burst of a requester is counted: the limit of 8 is extended to 16 when no other requester waits, and a grant at its limit
ends. A grant that ended with the burst, as at a fault (R157), has no count to go on. -/
def State.countBurst (s : State) (q : Requester) : State :=
  match s.port.grant with
  | none => s
  | some g =>
    if g.who = q then
      let n := g.bursts + 1
      if n < g.limit then { s with port.grant := some { g with bursts := n } }
      else if g.limit = 8 ∧ s.othersWait q = false then { s with port.grant := some { g with bursts := n, limit := 16 } }
      else { s with port.grant := none }
    else s

/-! ## Host accesses (R150, R152 to R154) -/

/-- The bridge holds an access until BOOT has ended (R154). -/
def State.holdsHost (s : State) : Bool := decide (s.control.mode = .reset) || decide (s.control.mode = .boot)

/-- The byte address of the word that a host access names (R152). -/
def hostWord (addr : Word) : Nat := addr.toNat / 4 * 4

def HostAccess.addr : HostAccess → Nat
  | .read a => a
  | .write a _ _ => a

/-- The access ends at once with an error response, or as a dropped write, and sets ACCESS (R150, R153). -/
def HostAccess.ending (h : HostAccess) : Option HostResponse :=
  if Config.memTop ≤ h.addr then some .error
  else
    match h with
    | .read _ => none
    | .write a _ _ => if protectedWord a then some .done else none

/-- The bridge, past BOOT, has an access: it ends at once or is held for its transfer. -/
def State.admitHost (s : State) (h : HostAccess) : State :=
  match h.ending with
  | some r => { s with port.bridge := none, port.response := r }.setCause .access
  | none => { s with port.bridge := some h }

/-- A host access arrives at the bridge. The port takes one access at a time, so none arrives while one is held (R152). -/
def State.hostAccess (s : State) (h : HostAccess) : State :=
  if s.port.bridge.isSome then s
  else
    let t := { s with port.response := .none }
    if s.holdsHost then { t with port.bridge := some h } else t.admitHost h

/-! ## Commands -/

/-- MEMORY_BURST_COMPLETE (R157 to R163). With no grant, the burst is the read of a strip that the engine abandoned, or none at
all (R102). -/
def execMemoryBurstComplete (upsets : List Upset) (engine : EngineBurst) (s : State) : Result :=
  match s.port.grant with
  | none => if s.engine.cutOff.isSome then .next (s.closeWork (s.befall upsets)) else .next s
  | some g =>
    match (s.befall upsets).burstOf g.who engine with
    | some t => .next (s.closeWork (t.countBurst g.who))
    | none => .next s

/-- HOST_MEMORY_READ (R150, R152, R154). -/
def execHostMemoryRead (addr : Word) (s : State) : Result := .next (s.close (s.hostAccess (.read (hostWord addr))))

/-- HOST_MEMORY_WRITE (R150, R152 to R154). -/
def execHostMemoryWrite (addr data : Word) (enables : BitVec 4) (s : State) : Result :=
  .next (s.close (s.hostAccess (.write (hostWord addr) data enables)))

/-- RECORD_QUEUE_ADMIT (R155). -/
def execRecordQueueAdmit (s : State) : Result :=
  if s.port.blocked = [] ∨ Config.recordRoom ≤ s.port.queue.length then .next s
  else .next (s.closeWork s.admitBlocked)

end Sys2Proof.Machine
end

