-- ==== Sys2Proof/Machine/ModeControl.lean ====
section
/-! DEFINITION. Mode control (10_operating_modes_and_power_events.md, R180 to R188): resets and BOOT, the host's mode requests, the
entries of a mode, the reaction timer, the power warning and SAFE; and the SYSCTL writes of R165. -/

namespace Sys2Proof.Machine

/-! ## Resets (R18, R44, R67, R91, R104, R130, R149, R164, R179, R180) -/

/-- Every block after a reset. What a reset leaves is shared memory with its bad words, the host access that the bridge holds,
the levels of the input pins, and the commands still to come. -/
def State.resetAll (s : State) : State :=
  { control :=
      { warnLevel := s.control.warnLevel, pinActive := s.control.pinActive, supplyGood := s.control.supplyGood }
    port :=
      { weak := s.port.weak, bad := s.port.bad, bridge := s.port.bridge, response := s.port.response }
    mem := s.mem
    pending := s.pending }

/-! ## BOOT (R154, R181) -/

/-- The zeros of BOOT stand over the control block, each word with a fresh code (R154). -/
def State.clearControl (s : State) : State :=
  { s with
    mem := s.mem.clearBelow Config.controlTop
    port.weak := s.port.weak.filter fun w => decide (Config.controlTop / 4 ≤ w)
    port.bad := s.port.bad.filter fun w => decide (Config.controlTop / 4 ≤ w) }

/-- The whole status area from its values after reset, with mode BOOT: every other field stands at zero (R178). -/
def bootStatus : List Byte := leBytes 1 Mode.boot.value ++ zeros 511

/-- Every block takes the mode in which BOOT ends (R181). -/
def State.setViews (s : State) (m : Mode) : State :=
  { s with intake.view := m, monitor.view := m, feeder.view := m, capture.view := m, jobs.view := m }

/-- The held host access is released (R154). -/
def State.releaseHost (s : State) : State :=
  match s.port.bridge with
  | some h => s.admitHost h
  | none => s

/-- The mode in which BOOT ends (R181). -/
def ModeControl.bootTarget (c : ModeControl) : Mode := if c.warned || c.warnLevel then .shutting else .standby

/-- The mode in which BOOT ends is entered, and MODE_CHANGED written (R181). It is the first record after a reset, at position 0 with
sequence number 0 (R182), so the post port takes it as it is raised, ahead of any other record (assumption log 24). -/
def State.leaveBoot (s : State) (m : Mode) : State :=
  (s.enterMode m).takeEvent .modeChanged m.value s.control.mode.value causeBootEnd s.intake.frameNumber

/-- BOOT has ended (R181): the blocks begin in the new mode, which MODE_CHANGED reports; with nothing to wait for, SHUTTING goes
on at once to POWERDOWN (R187). -/
def State.endBoot (s : State) : State :=
  let m := s.control.bootTarget
  let t := { s with port.boot := .none, control.warned := false, feeder.rasterOn := true }.releaseHost.leaveBoot m
  let t := { t with control.announcements := [] }.setViews m
  { t with intake.state := if m = Mode.standby then IntakeState.waiting else IntakeState.stopped }.shutdownTest

/-- The record queue has performed everything. -/
def State.recordsDone (s : State) : Bool := decide (s.port.queue = []) && decide (s.port.blocked = [])

/-! ## Entries of a mode (R182) -/

/-- A block takes the entry to a mode. The engine, the memory port and the post port have no action of their own at an entry;
mode control announces and is told nothing. -/
def State.blockEntry (s : State) (b : Block) (m : Mode) : State :=
  match b with
  | .intake => s.intakeEntry m
  | .monitor => s.monitorEntry m
  | .feeder => s.feederTakes (.entry m)
  | .capture => s.captureEntry m
  | .jobs => s.jobsEntry m
  | .engine | .memory | .post | .mode => s

/-- The oldest announcement on its way to a block. -/
def ModeControl.announced (c : ModeControl) (b : Block) : Option Announcement :=
  c.announcements.find? fun a => decide (a.block = b)

/-- The block has the announcement. -/
def State.dropAnnouncement (s : State) (a : Announcement) : State :=
  { s with control.announcements := s.control.announcements.erase a }

/-! ## Commands -/

/-- RESET_PIN (R180). -/
def execResetPin (s : State) : Result :=
  let t := s.resetAll
  .next { t with control.pinActive := true }

/-- SUPPLY_GOOD_LOSS (R180). -/
def execSupplyGoodLoss (s : State) : Result :=
  let t := s.resetAll
  .next { t with control.supplyGood := false }

/-- SOFT_RESET (R165, R180): in RESET register writes have no effect. -/
def execSoftReset (s : State) : Result := if s.registersAnswer then .next s.resetAll else .next s

/-- RESET_RELEASE (R180, R181). -/
def execResetRelease (s : State) : Result :=
  if s.control.mode = .reset then
    .next
      { s with
        control.mode := .boot
        control.pinActive := false
        control.supplyGood := true
        control.warned := s.control.warnLevel
        port.boot := .clearing }
  else .next s

/-- BOOT_CLEAR_DONE (R154, R178). -/
def execBootClearDone (s : State) : Result :=
  if s.control.mode = .boot ∧ s.port.boot = .clearing then
    let t := s.clearControl
    .next (s.close ({ t with port.boot := .status }.issueWrite .post .post [(0, bootStatus)]))
  else .next s

/-- BOOT_END (R181, R182). -/
def execBootEnd (s : State) : Result :=
  if s.control.mode = .boot ∧ s.port.boot = .status then
    .next (s.closeWork (s.drain State.recordsDone).endBoot)
  else .next s

/-- MODE_REQUEST_STANDBY (R183). -/
def execModeRequestStandby (s : State) : Result :=
  match s.control.mode with
  | .live => .next (s.closeWork (s.stopReaction.changeMode .standby causeHostRequest))
  | _ => .next s

/-- MODE_REQUEST_LIVE (R183). -/
def execModeRequestLive (s : State) : Result :=
  match s.control.mode with
  | .standby => .next (s.closeWork (s.changeMode .live causeHostRequest))
  | .live => .next s.stopReaction
  | _ => .next s

/-- REGISTER_WRITE_OTHER (R165): a write to ID, or to SYSCTL with no request and no reset, has no effect. -/
def execRegisterWriteOther (_register : Register) (_value : Word) (s : State) : Result := .next s

/-- A word in hand is for this block, which has not acted on it yet (R168). -/
def State.owesAnswer (s : State) (block : Block) : Bool :=
  match s.dispatched with
  | some w => (wordOwners (postKind w)).contains block
  | none => false

/-- A block takes an announcement, unless it waits for room (R155); the feeder, which waits only within a frame turn, keeps it (R72). A
post word that was taken before the entry acts under the old mode (R168): the block acts on a word in hand first (the model's choice
where the entry was announced before the word was taken, assumption log 22). -/
def State.takesEntry (s : State) (block : Block) : Bool :=
  (s.free block && !s.owesAnswer block) || decide (block = .feeder)

/-- MODE_ENTRY (R182, R187). -/
def execModeEntry (block : Block) (s : State) : Result :=
  match s.control.announced block, s.takesEntry block with
  | some a, true => .next (s.closeWork (((s.dropAnnouncement a).blockEntry block a.mode).shutdownTest))
  | _, _ => .next s

/-- REACTION_TIMER_EXPIRY (R185). -/
def execReactionTimerExpiry (s : State) : Result :=
  if s.control.mode = .live ∧ s.control.timerOn = true ∧ s.control.timerWait ≤ s.control.timerCount then
    .next (s.closeWork
      ((s.stopReaction.changeMode .standby causeNoAnswer).raise .mode .wakeUnanswered 0 s.control.timerWait
        s.feeder.frameNumber))
  else .next s

/-- POWER_WARN (R181, R186). -/
def execPowerWarn (s : State) : Result :=
  let t := { s with control.warnLevel := true }
  match s.control.mode with
  | .boot => .next { t with control.warned := true }
  | .standby | .live => .next (s.closeWork (t.changeMode .shutting causePowerWarn))
  | _ => .next t

/-- POWER_WARN_INACTIVE (R186). -/
def execPowerWarnInactive (s : State) : Result := .next { s with control.warnLevel := false }

/-- The record operations that SAFE waits for have been performed (R187). -/
def State.safeReached (s : State) : Bool := decide (s.control.safeAfter = some 0)

/-- SAFE_ASSERT (R187). -/
def execSafeAssert (s : State) : Result :=
  if s.control.safeAfter.isSome then
    let t := s.drain State.safeReached
    .next (s.closeWork ({ t with control.safe := true, control.safeAfter := none }.setCause .powerSafe))
  else .next s

end Sys2Proof.Machine
end

