-- ==== Sys2Proof/Machine/Dispatch.lean ====
section
/-! DEFINITION. The dispatch: one arm per command, each one call of its meaning. -/

namespace Sys2Proof.Machine

/-- The effect of a command on everything but the queue of waiting commands. -/
def exec (i : Instr) (s : State) : Host.Outcome State Fault Refusal :=
  match i with
  | .frameStart => Sys2Proof.Machine.execFrameStart s
  | .frameEnd => Sys2Proof.Machine.execFrameEnd s
  | .lineStart => Sys2Proof.Machine.execLineStart s
  | .lineEnd => Sys2Proof.Machine.execLineEnd s
  | .component value => Sys2Proof.Machine.execComponent value s
  | .acceptance => Sys2Proof.Machine.execAcceptance s
  | .tileMeansArrival => Sys2Proof.Machine.execTileMeansArrival s
  | .patternTimeout => Sys2Proof.Machine.execPatternTimeout s
  | .captureDecision => Sys2Proof.Machine.execCaptureDecision s
  | .slotWaitExpiry => Sys2Proof.Machine.execSlotWaitExpiry s
  | .descriptorReadDone => Sys2Proof.Machine.execDescriptorReadDone s
  | .stripScanoutStart strip => Sys2Proof.Machine.execStripScanoutStart strip s
  | .frameTurn => Sys2Proof.Machine.execFrameTurn s
  | .layoutReadDone => Sys2Proof.Machine.execLayoutReadDone s
  | .stripComplete => Sys2Proof.Machine.execStripComplete s
  | .capturePieceComplete => Sys2Proof.Machine.execCapturePieceComplete s
  | .jobPieceComplete => Sys2Proof.Machine.execJobPieceComplete s
  | .signaturePieceComplete => Sys2Proof.Machine.execSignaturePieceComplete s
  | .jobScanDone => Sys2Proof.Machine.execJobScanDone s
  | .memoryBurstComplete upsets engine => Sys2Proof.Machine.execMemoryBurstComplete upsets engine s
  | .hostMemoryRead addr => Sys2Proof.Machine.execHostMemoryRead addr s
  | .hostMemoryWrite addr data enables => Sys2Proof.Machine.execHostMemoryWrite addr data enables s
  | .recordQueueAdmit => Sys2Proof.Machine.execRecordQueueAdmit s
  | .postWrite word => Sys2Proof.Machine.execPostWrite word s
  | .postUnknownKind => Sys2Proof.Machine.execPostUnknownKind s
  | .applySetup => Sys2Proof.Machine.execApplySetup s
  | .setupReadDone => Sys2Proof.Machine.execSetupReadDone s
  | .takeLayout => Sys2Proof.Machine.execTakeLayout s
  | .captureCredit => Sys2Proof.Machine.execCaptureCredit s
  | .captureRestart => Sys2Proof.Machine.execCaptureRestart s
  | .controlWordsReadDone => Sys2Proof.Machine.execControlWordsReadDone s
  | .captureNow => Sys2Proof.Machine.execCaptureNow s
  | .lessonBegin => Sys2Proof.Machine.execLessonBegin s
  | .lessonEnd => Sys2Proof.Machine.execLessonEnd s
  | .jobAdd => Sys2Proof.Machine.execJobAdd s
  | .jobCancel => Sys2Proof.Machine.execJobCancel s
  | .eventAck => Sys2Proof.Machine.execEventAck s
  | .pageForget => Sys2Proof.Machine.execPageForget s
  | .clearInstability => Sys2Proof.Machine.execClearInstability s
  | .eventArrival position => Sys2Proof.Machine.execEventArrival position s
  | .holdoffExpiry => Sys2Proof.Machine.execHoldoffExpiry s
  | .causeWrite value => Sys2Proof.Machine.execCauseWrite value s
  | .maskWrite value => Sys2Proof.Machine.execMaskWrite value s
  | .softReset => Sys2Proof.Machine.execSoftReset s
  | .modeRequestStandby => Sys2Proof.Machine.execModeRequestStandby s
  | .modeRequestLive => Sys2Proof.Machine.execModeRequestLive s
  | .registerWriteOther register value => Sys2Proof.Machine.execRegisterWriteOther register value s
  | .modeEntry block => Sys2Proof.Machine.execModeEntry block s
  | .reactionTimerExpiry => Sys2Proof.Machine.execReactionTimerExpiry s
  | .powerWarn => Sys2Proof.Machine.execPowerWarn s
  | .safeAssert => Sys2Proof.Machine.execSafeAssert s
  | .resetPin => Sys2Proof.Machine.execResetPin s
  | .supplyGoodLoss => Sys2Proof.Machine.execSupplyGoodLoss s
  | .resetRelease => Sys2Proof.Machine.execResetRelease s
  | .bootClearDone => Sys2Proof.Machine.execBootClearDone s
  | .bootEnd => Sys2Proof.Machine.execBootEnd s
  | .powerWarnInactive => Sys2Proof.Machine.execPowerWarnInactive s

end Sys2Proof.Machine
end

