-- ==== Sys2Proof/Safety.lean ====
section
/-! DEFINITION. The terms that statements use: the pieces of state that a frame names, and the invariants that a run keeps. -/

namespace Sys2Proof.Machine

/-- The pieces that a frame statement tells apart. Together they are the whole State. -/
inductive Piece where
  | mode | timer | safety | announcements | inputs | views
  | shape | buffer | slots | statistics | badFrames | instability
  | pattern | levels | index
  | unit
  | layout | strips | raster | lateness | frameNumber | stripCounts | frameTurn
  | lesson | chain | context | slotWait | descriptorRead | decisions
  | jobEntries | runningJob | scan
  | arbiter | records | host | boot | errors | memory
  | cause | mask | fifo | setup | events | lost | moderation | raised | portReads
  | pending
  deriving DecidableEq, Repr

/-- A piece of state is the same in two states. Memory is compared byte by byte, through the read of one byte. -/
def same (s t : State) : Piece → Prop
  | .mode => t.control.mode = s.control.mode
  | .timer => t.control.timerOn = s.control.timerOn ∧ t.control.timerCount = s.control.timerCount
      ∧ t.control.timerWait = s.control.timerWait
  | .safety => t.control.safe = s.control.safe ∧ t.control.safeAfter = s.control.safeAfter
      ∧ t.control.shuttingFrames = s.control.shuttingFrames
  | .announcements => t.control.announcements = s.control.announcements
  | .inputs => t.control.warned = s.control.warned ∧ t.control.warnLevel = s.control.warnLevel
      ∧ t.control.pinActive = s.control.pinActive ∧ t.control.supplyGood = s.control.supplyGood
  | .views => t.intake.view = s.intake.view ∧ t.monitor.view = s.monitor.view ∧ t.feeder.view = s.feeder.view
      ∧ t.capture.view = s.capture.view ∧ t.jobs.view = s.jobs.view
  | .shape => t.intake.state = s.intake.state ∧ t.intake.geometry = s.intake.geometry
      ∧ t.intake.linesDone = s.intake.linesDone ∧ t.intake.lineOpen = s.intake.lineOpen
      ∧ t.intake.lineCount = s.intake.lineCount ∧ t.intake.sums = s.intake.sums ∧ t.intake.target = s.intake.target
  | .buffer => t.intake.buffer = s.intake.buffer ∧ t.intake.pendingFrame = s.intake.pendingFrame
  | .slots => t.intake.slots = s.intake.slots ∧ t.intake.newest = s.intake.newest ∧ t.intake.hold = s.intake.hold
  | .statistics => t.intake.held = s.intake.held ∧ t.intake.frameNumber = s.intake.frameNumber
      ∧ t.intake.meansOut = s.intake.meansOut
  | .badFrames => t.intake.malformed = s.intake.malformed ∧ t.intake.drops = s.intake.drops
  | .instability => t.intake.instability = s.intake.instability ∧ t.intake.suspended = s.intake.suspended
  | .pattern => t.monitor.previous = s.monitor.previous ∧ t.monitor.pageState = s.monitor.pageState
      ∧ t.monitor.motionRun = s.monitor.motionRun ∧ t.monitor.stillRun = s.monitor.stillRun
      ∧ t.monitor.patternAge = s.monitor.patternAge ∧ t.monitor.timeoutDue = s.monitor.timeoutDue
  | .levels => t.monitor.levels = s.monitor.levels
  | .index => t.monitor.index = s.monitor.index
  | .unit => t.engine = s.engine
  | .layout => t.feeder.layout = s.feeder.layout ∧ t.feeder.outputMode = s.feeder.outputMode
      ∧ t.feeder.rasterOn = s.feeder.rasterOn
  | .strips => t.feeder.bufferA = s.feeder.bufferA ∧ t.feeder.bufferB = s.feeder.bufferB
      ∧ t.feeder.scanning = s.feeder.scanning ∧ t.feeder.request = s.feeder.request
      ∧ t.feeder.display = s.feeder.display ∧ t.feeder.latched = s.feeder.latched
  | .raster => t.feeder.nextStrip = s.feeder.nextStrip
  | .lateness => t.feeder.liveFrame = s.feeder.liveFrame ∧ t.feeder.late = s.feeder.late
      ∧ t.feeder.underrunRun = s.feeder.underrunRun ∧ t.feeder.cleanRun = s.feeder.cleanRun
      ∧ t.feeder.degraded = s.feeder.degraded
  | .frameNumber => t.feeder.frameNumber = s.feeder.frameNumber
  | .stripCounts => t.feeder.underruns = s.feeder.underruns ∧ t.feeder.faults = s.feeder.faults
  | .frameTurn => t.feeder.posted = s.feeder.posted ∧ t.feeder.layoutRead = s.feeder.layoutRead
      ∧ t.feeder.deferred = s.feeder.deferred
  | .lesson => t.capture.lessonOpen = s.capture.lessonOpen ∧ t.capture.counter = s.capture.counter
  | .chain => t.capture.running = s.capture.running ∧ t.capture.head = s.capture.head
      ∧ t.capture.credit = s.capture.credit
  | .context => t.capture.context = s.capture.context
  | .slotWait => t.capture.slotWaiting = s.capture.slotWaiting ∧ t.capture.slotCount = s.capture.slotCount
      ∧ t.capture.slotExpired = s.capture.slotExpired
  | .descriptorRead => t.capture.read = s.capture.read
  | .decisions => t.capture.decisions = s.capture.decisions
  | .jobEntries => t.jobs.entries = s.jobs.entries
  | .runningJob => t.jobs.running = s.jobs.running
  | .scan => t.jobs.scan = s.jobs.scan
  | .arbiter => t.port.grant = s.port.grant ∧ t.port.last = s.port.last ∧ t.port.pass = s.port.pass
  | .records => t.port.queue = s.port.queue ∧ t.port.blocked = s.port.blocked ∧ t.port.later = s.port.later
  | .host => t.port.bridge = s.port.bridge ∧ t.port.response = s.port.response
  | .boot => t.port.boot = s.port.boot
  | .errors => t.port.correctable = s.port.correctable ∧ t.port.uncorrectable = s.port.uncorrectable
      ∧ t.port.weak = s.port.weak ∧ t.port.bad = s.port.bad
  | .memory => ∀ a, t.mem.read a = s.mem.read a
  | .cause => t.post.cause = s.post.cause
  | .mask => t.post.mask = s.post.mask
  | .fifo => t.post.fifo = s.post.fifo ∧ t.post.inHand = s.post.inHand ∧ t.post.handMode = s.post.handMode
  | .setup => t.post.setup = s.post.setup ∧ t.post.setupGeneration = s.post.setupGeneration
  | .events => t.post.put = s.post.put ∧ t.post.get = s.post.get ∧ t.post.fill = s.post.fill
      ∧ t.post.sequence = s.post.sequence
  | .lost => t.post.lost = s.post.lost
  | .moderation => t.post.unsignalled = s.post.unsignalled ∧ t.post.timer = s.post.timer
      ∧ t.post.holdoffDue = s.post.holdoffDue
  | .raised => t.post.raised = s.post.raised
  | .portReads => t.post.setupRead = s.post.setupRead ∧ t.post.controlRead = s.post.controlRead
  | .pending => t.pending = s.pending

/-- Everything but the pieces named is unchanged. -/
def Unchanged (changed : List Piece) (s t : State) : Prop := ∀ p, p ∉ changed → same s t p

/-- What a step can change beside its own effect: the arbiter makes or ends a grant (R158 to R160), and the events raised are marked as
raised by one step (assumption log 5). -/
abbrev closing : List Piece := [.arbiter, .raised]

/-- What a step in which the engine may take work can change beside its own effect: the unit, its owner's next piece, a scan
and its first read (R94, R98, R136). -/
abbrev takingWork : List Piece := [.arbiter, .raised, .unit, .context, .runningJob, .scan, .records]

/-- The kind and arguments of the events waiting, in order, without the marks of their steps. -/
def State.news (s : State) : List (Block × EventKind × Nat × Nat × Nat) :=
  s.post.raised.map fun e => (e.owner, e.kind, e.small, e.a, e.b)

/-- The command acts, and the state it leaves is as said. -/
def Completes (c : Instr) (s : State) (after : State → Prop) : Prop := ∃ t, exec c s = .next t ∧ after t

/-- The head of the post FIFO is a word of this kind that the port can take, with these words behind it (R168): the port holds none in
hand, and does not wait for room in the record queue (R155). -/
def State.offersWord (s : State) (kind : Nat) (w : Word) (rest : List Word) : Prop :=
  s.post.fifo = w :: rest ∧ postKind w = kind ∧ s.post.inHand = none ∧ s.free .post = true

/-- The port can take the word, and no block that acts on it waits for room, so that the answer is immediate (R168, R155). -/
def State.holdsWord (s : State) (kind : Nat) (w : Word) (rest : List Word) : Prop :=
  s.offersWord kind w rest ∧ s.ownersFree kind = true

/-- The word is in hand, dispatched to a block that waited for room, and not answered: no read is performed for it (R168; assumption log
22). -/
def State.keepsWord (s : State) (w : Word) : Prop :=
  s.post.inHand = some w ∧ s.post.setupRead = .idle ∧ s.post.controlRead = .idle

/-- The block can take an entry to a mode: it does not wait for room (R155), and no word in hand is for it (R168; assumption log 22). -/
def State.readyForEntry (s : State) (b : Block) : Prop :=
  s.free b = true ∧ ∀ w, s.keepsWord w → b ∉ wordOwners (postKind w)

/-- The port takes words of this kind in this mode, and this argument is legal for it (R168's table). -/
def wordPasses (kind : Nat) (m : Mode) (argument : Nat) : Prop :=
  (m = .live ∨ (m = .standby ∧ kind ≠ 5))
    ∧ (kind = 3 → 1 ≤ argument ∧ argument ≤ 255) ∧ ((kind = 8 ∨ kind = 9) → argument ≠ 0)
    ∧ (kind = 10 → argument ≤ 255) ∧ (kind = 11 → argument ≤ 63)

/-- The twelve kinds of post word with the command that takes each (R168's table). -/
def knownWords : List (Nat × Instr) :=
  [(1, .applySetup), (2, .takeLayout), (3, .captureCredit), (4, .captureRestart), (5, .captureNow), (6, .lessonBegin),
   (7, .lessonEnd), (8, .jobAdd), (9, .jobCancel), (10, .eventAck), (11, .pageForget), (12, .clearInstability)]

/-! ## Record traffic -/

/-- The record operations issued and not yet performed, in the order of issue: those in the queue, then those that wait for
room (R155). -/
def State.ops (s : State) : List RecordOp := s.port.queue ++ s.port.blocked.map Wait.op

/-- No block waits for room in the record queue, and nothing waits behind one (R155). -/
abbrev State.noneWait (s : State) : Prop := s.port.blocked = [] ∧ s.port.later = []

/-- The record queue takes `n` operations more with no block waiting for room (R155). -/
def State.roomFor (s : State) (n : Nat) : Prop := s.noneWait ∧ s.port.queue.length + n ≤ 32

/-- The events that a step raised carry the input frame number current as they arose (R13). -/
def Stamped (s t : State) : Prop := ∀ e ∈ t.post.raised.drop s.post.raised.length, e.frame = t.intake.frameNumber

/-- The operation that writes these runs of bytes, in their order, each run cut into bursts (R155, R157). That fields side by side are
one run, the bursts of a run, and that a write carries the changed fields alone, are the model's choice (assumption log 35). -/
def writeRuns (runs : List (Nat × List Byte)) : RecordOp := .write (runs.flatMap burstsOf)

/-- The operation that writes one run of bytes. -/
def writeOf (addr : Nat) (bytes : List Byte) : RecordOp := writeRuns [(addr, bytes)]

/-- The operation that writes a live field of the status area (R177). -/
def fieldWrite (off size value : Nat) : RecordOp := writeOf off (leBytes size value)

/-- A live field is written when its value changes, and only then (R177). -/
def fieldChange (same : Prop) [Decidable same] (off size value : Nat) : List RecordOp :=
  if same then [] else [fieldWrite off size value]

/-- The operation that writes an event that arose at this input frame number at the put position (R13, R174). -/
def State.eventOp (s : State) (kind small a b frame : Nat) : RecordOp :=
  writeOf (0x2000 + 16 * s.post.put) (eventBytes kind small s.post.sequence frame a b)

/-! ## Post words -/

/-- The word has gone from the head of the FIFO, and in STANDBY and LIVE the reaction timer has stopped (R168, R185). -/
def Took (rest : List Word) (s t : State) : Prop :=
  t.post.fifo = rest
    ∧ t.control.timerOn = (if s.control.mode = .standby ∨ s.control.mode = .live then false else s.control.timerOn)
    ∧ t.control.timerCount = s.control.timerCount ∧ t.control.timerWait = s.control.timerWait

/-- At most the first read of a scan, which the engine's reaching of step 4 of R94 lets the job runner issue (R98, R136). -/
def AtMostAScan (more : List RecordOp) : Prop := more = [] ∨ ∃ n, n < 16 ∧ more = [.read (.job n) (jobAddr n) []]

/-! ## The engine's taking of work (R94, R95) -/

/-- The stretch of a unit that starts with these latched levels (R61). -/
def stretchAt (r : Render) (latched : Levels) : Option (Nat × Nat) :=
  if r.mode = .fixed then (if r.black < r.white then some (r.black, r.white) else none)
  else if r.mode = .auto then
    (if (r.copy.getD latched).valid = true then some ((r.copy.getD latched).black, (r.copy.getD latched).white) else none)
  else none

/-- Piece n of an image of w × h: 8 rows by at most 1,024 columns, left to right across a band, band after band from the top (R64,
R66). -/
def pieceAt (r : Render) (stretch : Option (Nat × Nat)) (w h n : Nat) : Part :=
  let across := (w + 1023) / 1024
  { render := r, stretch := stretch, col := n % across * 1024, cols := min 1024 (w - n % across * 1024), row := n / across * 8
    rows := min 8 (h - n / across * 8), rasterX := 0 }

/-- How many pieces an image of w × h has (R64). -/
def piecesOf (w h : Nat) : Nat := (w + 1023) / 1024 * ((h + 7) / 8)

/-- The parts of strip k: for each latched pane that the strip crosses, 8 rows at the full pane width (R71, R92). -/
def State.stripParts (s : State) (k : Nat) : List Part :=
  (s.feeder.latched.filter fun p => decide (p.y ≤ 8 * k ∧ 8 * k < p.y + p.h)).map fun p =>
    { render := p.render, stretch := stretchAt p.render s.monitor.levels, col := 0, cols := p.w, row := 8 * k - p.y, rows := 8
      rasterX := p.x }

/-- The unit of the next piece of the running job (R92): a signature piece covers its source, a job piece its target. -/
def State.jobWork (s : State) (j : RunningJob) : Work × Part :=
  if j.kind = .signature then (.signaturePiece j.next, pieceAt j.render none j.render.ws j.render.hs j.next)
  else (.jobPiece j.next, pieceAt j.render (stretchAt j.render s.monitor.levels) j.render.wp j.render.hp j.next)

/-- A display strip is offered (R95). -/
def State.stripStands (s : State) : Prop := s.control.mode = .live ∧ s.feeder.request ≠ none

/-- A capture piece is offered (R95); the capture unit offers none while it waits for room (assumption log 22). -/
def State.captureStands (s : State) : Prop :=
  s.capture.context.state = .rendering ∧ s.free .capture = true
    ∧ ∃ r, s.capture.context.render = some r ∧ s.capture.context.next < piecesOf r.wp r.hp

/-- A job piece or a signature piece is offered and not held back (R95, R101); the job runner offers none while it waits for room
(assumption log 22). -/
def State.jobStands (s : State) : Prop :=
  s.control.mode = .live ∧ s.feeder.degraded = false ∧ s.free .jobs = true
    ∧ ∃ j, s.jobs.running = some j ∧ j.next < j.total ∧ j.stop = none

/-- A scan is offered (R98): in LIVE, not degraded, with no job RUNNING, and asked for by the job runner, which has a PENDING entry and
no scan. (The runner's own mode: assumption log 15; its wait for room: log 22.) -/
def State.scanStands (s : State) : Prop :=
  s.control.mode = .live ∧ s.jobs.view = .live ∧ s.feeder.degraded = false ∧ s.jobs.running = none ∧ s.jobs.scan = none
    ∧ s.free .jobs = true ∧ ∃ k, k < 16 ∧ (s.jobs.entries.getD k {}).state = .pending

/-- A unit just begun: nothing of it is read or written. -/
def freshUnit (w : Work) (parts : List Part) : EngineUnit :=
  { work := w, parts := parts, ready := ({ work := w, parts := parts } : EngineUnit).unfinished }

/-- The unit is one that the engine has just taken of what its owner offers (R94, R95): the strip requested, or the piece before the one
that its owner offers next. -/
def State.justBegun (t : State) (u : EngineUnit) : Prop :=
  match u.work with
  | .strip k b => t.control.mode = .live ∧ t.feeder.request = some ⟨k, b⟩ ∧ u = freshUnit u.work (t.stripParts k)
  | .capturePiece n =>
    t.capture.context.state = .rendering ∧ t.capture.context.next = n + 1
      ∧ ∃ r, t.capture.context.render = some r ∧ n < piecesOf r.wp r.hp
        ∧ u = freshUnit u.work [pieceAt r (stretchAt r t.monitor.levels) r.wp r.hp n]
  | .jobPiece n | .signaturePiece n =>
    t.control.mode = .live ∧ ∃ j, t.jobs.running = some j ∧ j.next = n + 1 ∧ n < j.total ∧ j.stop = none
      ∧ u.work = (t.jobWork { j with next := n }).1 ∧ u = freshUnit u.work [(t.jobWork { j with next := n }).2]

/-- What R94 puts ahead of the unit is not offered: no strip ahead of a piece, no capture piece ahead of job work, and no job work while
degraded. -/
def State.stoodFirst (t : State) (u : EngineUnit) : Prop :=
  match u.work with
  | .strip _ _ => True
  | .capturePiece _ => ¬ t.stripStands
  | .jobPiece _ | .signaturePiece _ => ¬ t.stripStands ∧ ¬ t.captureStands ∧ t.feeder.degraded = false

/-- A unit has ended, and the engine has taken its next work as R94 gives, or is IDLE with nothing offered. -/
def State.tookNext (t : State) : Prop :=
  (∀ u, t.engine.unit = some u → t.justBegun u ∧ t.stoodFirst u)
    ∧ (t.engine.unit = none → ¬ t.stripStands ∧ ¬ t.captureStands ∧ ¬ t.jobStands)

/-- The outstanding strip has been withdrawn: the engine abandons it if it works on it, and goes on with what R94 gives next, as it does
where it was IDLE; work of another kind goes on (R89, R97, R99). -/
def StripAbandoned (s t : State) : Prop :=
  ((s.engine.unit = none ∨ ∃ u k b, s.engine.unit = some u ∧ u.work = .strip k b) → t.tookNext)
    ∧ ∀ u, s.engine.unit = some u → (∀ k b, u.work ≠ .strip k b) → t.engine.unit = some u

/-- The feeder has withdrawn its request, if one was outstanding: a strip that is not goes on (R89). -/
def StripWithdrawn (s t : State) : Prop :=
  if s.feeder.request.isSome = true then StripAbandoned s t
  else (∀ u, s.engine.unit = some u → t.engine.unit = some u) ∧ (s.engine.unit = none → t.tookNext)

/-! ## Whole frames -/

/-- What a step did when only the arbiter closed it: it changed nothing but the pieces named; and, where the record queue has room for
them (what becomes of them otherwise is BlocksWaitForRoom), it issued these record operations, in order, and raised these events, in
order, each with the input frame number. -/
def DidOnly (changed : List Piece) (new : List RecordOp) (events : List (Block × EventKind × Nat × Nat × Nat)) (s t : State) :
    Prop :=
  Unchanged (changed ++ .records :: closing) s t
    ∧ (s.roomFor new.length → t.ops = s.ops ++ new ∧ t.news = s.news ++ events ∧ Stamped s t)

/-- What a step did when the engine could take work at its end (R94, R96): beside what DidOnly says, an IDLE engine may have begun the unit
that R94 puts first, the next piece of the capture or of the running job may have moved on with it, and the first read of a scan may
have been issued after the step's own operations. A unit in progress is kept (R97), unless the unit is among what the step changes:
then the statement says what the engine holds. -/
def Did (changed : List Piece) (new : List RecordOp) (events : List (Block × EventKind × Nat × Nat × Nat)) (s t : State) :
    Prop :=
  Unchanged (changed ++ takingWork) s t
    ∧ (.unit ∉ changed →
        (∀ u, s.engine.unit = some u → t.engine.unit = some u)
          ∧ (s.engine.unit = none → ∀ u, t.engine.unit = some u → t.justBegun u ∧ t.stoodFirst u))
    ∧ (.context ∉ changed → { t.capture.context with next := s.capture.context.next } = s.capture.context)
    ∧ (.runningJob ∉ changed →
        t.jobs.running.map (fun j => { j with next := 0 }) = s.jobs.running.map fun j => { j with next := 0 })
    ∧ (s.roomFor new.length →
        (∃ more, AtMostAScan more ∧ t.ops = s.ops ++ new ++ more) ∧ t.news = s.news ++ events ∧ Stamped s t)

/-- The word is refused with this reason, and nothing else happens, whether or not another block waits for room (R169). -/
def RefusesWord (c : Instr) (s : State) (w : Word) (rest : List Word) (reason : Nat) : Prop :=
  Completes c s fun t =>
    Took rest s t ∧ t.post.inHand = none ∧ t.news = s.news ++ [(.post, .postRefused, reason, postKind w, postArgument w)]
      ∧ Did [.fifo, .timer] [] [(.post, .postRefused, reason, postKind w, postArgument w)] s t

/-- What the moderation does when a record is written (R176): the fill level is then at least the watermark and EVENTS_READY is set,
or the record waits unsignalled. -/
def Moderated (s t : State) : Prop :=
  if t.post.setup.watermark ≤ t.post.fill then
    (∀ i, t.post.cause.getLsbD i = (s.post.cause.getLsbD i || decide (i = 0))) ∧ t.post.unsignalled = 0 ∧ t.post.timer = none
  else
    t.post.cause = s.post.cause ∧ t.post.unsignalled = s.post.unsignalled + 1
      ∧ t.post.timer = if s.post.unsignalled = 0 ∧ t.post.setup.holdoff ≠ 0 then some 0 else s.post.timer

/-- No word that `n` bytes from an address lie in holds an error (R161). -/
def State.cleanWords (s : State) (a n : Nat) : Prop :=
  ∀ w, a / 4 ≤ w → 4 * w < a + n → w ∉ s.port.bad ∧ w ∉ s.port.weak

/-- Memory after the bytes stand at consecutive addresses: they read as written, and every other byte as before. -/
def Written (s t : State) (a : Nat) (bytes : List Byte) : Prop :=
  ∀ x, t.mem.read x = if a ≤ x ∧ x < a + bytes.length then bytes.getD (x - a) 0#8 else s.mem.read x

/-- A frame has been judged malformed (cause 0) or dropped (cause 1): the counters, the instability counter with its live field,
SENSOR_UNSTABLE and the suspension flag when the counter reaches 32 with the flag clear, and the discarded bytes (R4, R5, R14,
R15). -/
def JudgedBad (cause : Nat) (s t : State) : Prop :=
  t.intake.malformed = (if cause = 0 then min 4294967295 (s.intake.malformed + 1) else s.intake.malformed)
    ∧ t.intake.drops = (if cause = 1 then min 4294967295 (s.intake.drops + 1) else s.intake.drops)
    ∧ t.intake.instability = min 32 (s.intake.instability + 1)
    ∧ t.intake.suspended = (s.intake.suspended || decide (s.intake.instability + 1 = 32))
    ∧ t.intake.buffer = s.intake.buffer.filter (fun b => b.ofPending) ∧ t.intake.pendingFrame = s.intake.pendingFrame
    ∧ t.intake.newest = s.intake.newest ∧ t.intake.hold = s.intake.hold

/-- The record operations of a frame judged bad. -/
def badOps (s : State) : List RecordOp :=
  fieldChange (s.intake.instability = min 32 (s.intake.instability + 1)) 0x0D 1 (min 32 (s.intake.instability + 1))
    ++ if s.intake.instability + 1 = 32 ∧ s.intake.suspended = false then [fieldWrite 0x0E 1 1] else []

/-- The events of a frame judged bad, with the counters after the increase. -/
def badNews (cause : Nat) (s t : State) : List (Block × EventKind × Nat × Nat × Nat) :=
  if s.intake.instability + 1 = 32 ∧ s.intake.suspended = false then
    [(.intake, .sensorUnstable, cause, t.intake.malformed, t.intake.drops)]
  else []

/-- Only these slots may differ. -/
def SlotsKept (except : Nat → Prop) (s t : State) : Prop :=
  t.intake.slots.length = s.intake.slots.length ∧ ∀ n, ¬ except n → t.intake.slot n = s.intake.slot n

/-- Steps 2 to 5 of an acceptance (R6, R12 to R14), and the slot-wait count (R114), for these means over this geometry. -/
def AcceptedMeans (s t : State) (means : List Nat) (g : Geometry) : Prop :=
  let n := (s.intake.frameNumber + 1) % 4294967296
  t.intake.frameNumber = n ∧ t.intake.held = some ⟨means, n, g⟩
    ∧ t.intake.meansOut = s.intake.meansOut ++ [⟨means, n, g⟩]
    ∧ t.intake.instability = s.intake.instability - 1 ∧ t.intake.suspended = s.intake.suspended
    ∧ t.capture.slotWaiting = s.capture.slotWaiting
    ∧ (if s.capture.slotWaiting = true then
        t.capture.slotCount = s.capture.slotCount + 1
          ∧ t.capture.slotExpired = (s.capture.slotExpired || decide (s.post.setup.slotWait ≤ s.capture.slotCount + 1))
      else t.capture.slotCount = s.capture.slotCount ∧ t.capture.slotExpired = s.capture.slotExpired)

/-- The record operation of an acceptance: the instability counter's live field, when it changes. -/
def acceptOps (s : State) : List RecordOp :=
  fieldChange (s.intake.instability = s.intake.instability - 1) 0x0D 1 (s.intake.instability - 1)

/-- The frame whose means arrive next is a STILL frame (R19 to R23): it can be compared with the previous means, it is QUIET, and with it
the still run reaches the settle frames count. No timeout is due (assumption log 8), and the monitor does not wait for room (R155). -/
def State.StillAt (s : State) (f : TileStats) (later : List TileStats) (means : List Nat) : Prop :=
  let u := s.post.setup
  let change (i : Nat) : Nat := (f.means.getD i 0 - means.getD i 0) + (means.getD i 0 - f.means.getD i 0)
  let n := ((List.range 192).filter fun i => !u.mask.getLsbD i && decide (u.threshold ≤ change i)).length
  s.intake.meansOut = f :: later ∧ s.free .monitor = true ∧ s.monitor.timeoutDue = false ∧ s.monitor.previous = some (means, f.geometry)
    ∧ n < u.motionTiles ∧ n ≤ u.quietTiles
    ∧ ((s.monitor.pageState = .settling ∧ u.settleFrames ≤ s.monitor.stillRun + 1)
        ∨ (s.monitor.pageState = .moving ∧ u.motionMin ≤ s.monitor.motionRun ∧ u.settleFrames ≤ 1))

/-- The pattern has ended at the frame, whose means are now the previous ones (R19, R23). -/
def PatternEnded (s t : State) (f : TileStats) (later : List TileStats) : Prop :=
  t.intake.meansOut = later ∧ t.intake.held = s.intake.held ∧ t.intake.frameNumber = s.intake.frameNumber
    ∧ t.monitor.previous = some (f.means, f.geometry) ∧ t.monitor.pageState = .settled ∧ t.monitor.motionRun = 0
    ∧ t.monitor.stillRun = 0 ∧ t.monitor.patternAge = 0 ∧ t.monitor.timeoutDue = false

/-! ## Captures and jobs -/

/-- The capture in hand has ended: the context is IDLE and cleared, no count and no descriptor read goes on, its pin is off its slot
(R111, R121, R123). -/
def CaptureEnded (s t : State) : Prop :=
  t.capture.context = {} ∧ t.capture.slotWaiting = false ∧ t.capture.slotCount = 0 ∧ t.capture.slotExpired = false
    ∧ t.capture.read = .idle
    ∧ t.intake.newest = s.intake.newest ∧ t.intake.hold = s.intake.hold
    ∧ t.intake.slots =
        match s.capture.context.pinned with
        | some n => s.intake.slots.modify n fun x => { x with pinCapture := false }
        | none => s.intake.slots

/-- The pieces that the end of a capture can change. -/
abbrev endingCapture : List Piece := [.context, .slotWait, .descriptorRead, .slots]

/-- No read of a slot descriptor is in the record queue, so that none is disregarded at the end of a capture (R115). -/
def State.noDescriptorRead (s : State) : Prop := ∀ a got, RecordOp.read .descriptor a got ∉ s.ops

/-- The place that an insertion takes (R35, R36): the lowest EMPTY entry, or, with none EMPTY, the entry that an eviction chooses. -/
def State.placeIs (s : State) (k : Nat) : Prop :=
  k < s.monitor.index.length
    ∧ (((s.monitor.entry k).state = .empty ∧ ∀ j, j < k → (s.monitor.entry j).state ≠ .empty)
      ∨ ((∀ e ∈ s.monitor.index, e.state ≠ .empty) ∧ evictionChoice s.intake.frameNumber s.monitor.index = some k))

/-- INDEX_EVICT for the entry that an insertion at this place overwrites, with its page and its age, if it is not EMPTY (R36). -/
def State.evictNews (s : State) (k : Nat) : List (Block × EventKind × Nat × Nat × Nat) :=
  if (s.monitor.entry k).state = .empty then []
  else
    [(.monitor, .indexEvict, k, (s.monitor.entry k).page,
      (((s.intake.frameNumber : Int) - (s.monitor.entry k).lastSeen) % 4294967296).toNat)]

/-- The running job has ended: no job is RUNNING and the pin of a RENDER_LIVE job is off its slot (R142, R145). -/
def JobEnded (s t : State) (j : RunningJob) : Prop :=
  t.jobs.running = none ∧ t.intake.newest = s.intake.newest ∧ t.intake.hold = s.intake.hold
    ∧ t.intake.slots = match j.pin with
      | some p => s.intake.slots.modify p fun x => { x with pinJob := false }
      | none => s.intake.slots

/-- The release of the job's pin has no capture to serve: the job has none, or no capture waits for one (R11). -/
def State.noOneToServe (s : State) (j : RunningJob) : Prop := j.pin = none ∨ s.capture.context.state ≠ .waitingPin

/-- The test of R187 does not hold once the capture has ended: the mode is not SHUTTING, an entry is still to be taken, or a job
runs or waits for room. -/
def State.upAfterCapture (s : State) : Prop :=
  s.control.mode ≠ .shutting ∨ s.entriesDone = false ∨ s.jobs.running ≠ none ∨ s.free .jobs = false

/-- The test of R187 does not hold once the job has ended. -/
def State.upAfterJob (s : State) : Prop :=
  s.control.mode ≠ .shutting ∨ s.entriesDone = false ∨ s.capture.context.state ≠ .idle ∨ s.free .capture = false

/-- A step that ends neither a capture nor a job leaves the test of R187 unmet. -/
def State.staysUp (s : State) : Prop := s.upAfterCapture ∨ s.upAfterJob

/-- The part has entered POWERDOWN and raised POWER_SAFE: the write of the mode field and the events (R187). -/
abbrev powerdownOps : List RecordOp := [fieldWrite 0 1 5]
def State.powerdownNews (s : State) : List (Block × EventKind × Nat × Nat × Nat) :=
  [(.mode, .modeChanged, 5, 4, 5), (.mode, .powerSafe, 0, s.control.shuttingFrames, s.capture.counter)]

/-- The mode is POWERDOWN, and is announced to every block (R182, R187). -/
def PoweredDown (s t : State) : Prop :=
  t.control.mode = .powerdown ∧ t.control.announcements = s.control.announcements ++ announcedBlocks.map (Announcement.mk · .powerdown)

/-- The operation that writes an outcome of a job entry, the state last (R131). -/
def outcomeOp (n state reason pieces index : Nat) : RecordOp :=
  writeRuns
    [(0x800 + 64 * n + 0x31, leBytes 1 reason ++ leBytes 1 index ++ [0#8] ++ leBytes 4 pieces ++ List.replicate 8 0#8),
     (0x800 + 64 * n + 0x30, leBytes 1 state)]

/-- The operation that returns a slot descriptor with its result, the owner HOST last (R126). -/
def returnOp (d : Descriptor) (status flags entry page black white frame : Nat) (size : Geometry) (written : Nat) : RecordOp :=
  writeRuns
    [(d.addr + 1, leBytes 1 status ++ leBytes 1 flags ++ leBytes 1 entry),
     (d.addr + 16, leBytes 2 page ++ leBytes 1 black ++ leBytes 1 white ++ leBytes 4 frame ++ leBytes 2 size.w ++ leBytes 2 size.h
        ++ leBytes 4 written),
     (d.addr, [0#8])]

/-- A descriptor address that R115 lets be read: a multiple of 32, below the top of shared memory, outside the control block and the
frame slots. -/
def headReadable (head : Nat) : Prop :=
  head % 32 = 0 ∧ 0x10000 ≤ head ∧ head + 32 ≤ 0x10000000 ∧ (head + 32 ≤ 0x1000000 ∨ 0x8800000 ≤ head)

/-- The kind of the chain fault of a head address that may not be read: UNALIGNED, OUT_OF_RANGE or PROTECTED (R115, R116). That of two rows
that hold the first gives the kind is the model's choice (assumption log 47). -/
def headFaultKind (head : Nat) : Nat := if head % 32 ≠ 0 then 1 else if 0x10000000 < head + 32 then 2 else 3

/-- The operations and the events of a chain fault of a capture with its PROVISIONAL entry at k: credit 0, chain STOPPED, CHAIN_FAULT,
and the capture missed with reason CHAIN (R116, R123). The credit was not 0. -/
def chainFaultOps (k : Nat) : List RecordOp :=
  [fieldWrite 0x0C 1 0, fieldWrite 3 1 0, writeOf (0x1000 + 64 * k) [0#8], fieldWrite 2 1 0]
def chainFaultNews (kind head page : Nat) (reason : Reason) : List (Block × EventKind × Nat × Nat × Nat) :=
  [(.capture, .chainFault, kind, head, page), (.capture, .captureMissed, 6, page, reason.value)]

/-- A decision has passed the tests of R110: the capture takes the next page number and inserts its PROVISIONAL entry at the place
k that R35 and R36 give, with INDEX_EVICT for the entry it overwrites (R37). Without a pin it waits for one (R111); with one it
waits for a slot, with credit 0 (R113, R114), or reads the head descriptor (R115), or, with a head that may not be read, stops the chain
with CHAIN_FAULT and is missed (R115, R116), or, with the chain STOPPED, is missed (R113, R123). -/
def DecisionTaken (c : Instr) (s : State) (moved : List Piece) (also : State → Prop) (kind : Reason) (frame : Nat) (sig : Signature)
    (levels : Levels) : Prop :=
  ∀ k, s.placeIs k →
    let page := s.capture.counter + 1
    let e : IndexEntry := ⟨.provisional, 0, page, frame, frame, 0, sig⟩
    let ops := [fieldWrite 0x0A 2 page, writeRuns [(0x1000 + 64 * k + 1, e.fieldBytes), (0x1000 + 64 * k, [1#8])]]
    let begun (t : State) := also t ∧ t.capture.counter = page ∧ t.capture.lessonOpen = s.capture.lessonOpen
    let context : Context := { page := page, reason := kind, entry := some k, levels := levels }
    let changed := moved ++ [.lesson, .index]
    (s.intake.newest = none ∨ (∃ n, s.intake.newest = some n ∧ s.intake.poolGrants n = false) →
      Completes c s fun t =>
        begun t ∧ t.monitor.index = s.monitor.index.set k e ∧ t.capture.context = { context with state := .waitingPin }
          ∧ Did (changed ++ [.context]) (ops ++ [fieldWrite 2 1 1]) (s.evictNews k) s t)
    ∧ ∀ n, s.intake.newest = some n → s.intake.poolGrants n = true →
        let pinned (t : State) :=
          t.capture.context = { context with state := .waitingSlot, pinned := some n, frame := s.intake.frameNumber }
            ∧ t.monitor.index = s.monitor.index.set k e
            ∧ t.intake.slots = s.intake.slots.modify n (fun x => { x with pinCapture := true })
            ∧ t.intake.newest = s.intake.newest ∧ t.intake.hold = s.intake.hold
        let missed (t : State) :=
          t.capture.context = {} ∧ t.capture.slotWaiting = false
            ∧ t.monitor.index = s.monitor.index.set k { e with state := .empty }
            ∧ (∀ m, (t.intake.slot m).pinCapture = (decide (m ≠ n) && (s.intake.slot m).pinCapture))
            ∧ t.intake.newest = s.intake.newest ∧ t.intake.hold = s.intake.hold
        (s.capture.running = true → s.capture.credit = 0 →
          Completes c s fun t =>
            begun t ∧ pinned t ∧ t.capture.slotWaiting = true ∧ t.capture.slotCount = 0 ∧ t.capture.slotExpired = false
              ∧ t.capture.read = s.capture.read
              ∧ Did (changed ++ endingCapture) (ops ++ [fieldWrite 2 1 2]) (s.evictNews k) s t)
        ∧ (s.capture.running = true → 1 ≤ s.capture.credit → headReadable s.capture.head →
          Completes c s fun t =>
            begun t ∧ pinned t ∧ t.capture.slotWaiting = s.capture.slotWaiting ∧ t.capture.read = .waiting
              ∧ Did (changed ++ endingCapture) (ops ++ [fieldWrite 2 1 2, .read .descriptor s.capture.head []]) (s.evictNews k) s t)
        ∧ (s.capture.running = true → 1 ≤ s.capture.credit → ¬ headReadable s.capture.head → s.noDescriptorRead →
          Completes c s fun t =>
            begun t ∧ missed t ∧ t.capture.credit = 0 ∧ t.capture.running = false ∧ t.capture.head = s.capture.head
              ∧ Did (changed ++ endingCapture ++ [.chain]) (ops ++ fieldWrite 2 1 2 :: chainFaultOps k)
                  (s.evictNews k ++ chainFaultNews (headFaultKind s.capture.head) s.capture.head page kind) s t)
        ∧ (s.capture.running = false → s.noDescriptorRead →
          Completes c s fun t =>
            begun t ∧ missed t
              ∧ Did (changed ++ endingCapture) (ops ++ [fieldWrite 2 1 2, writeOf (0x1000 + 64 * k) [0#8], fieldWrite 2 1 0])
                  (s.evictNews k ++ [(.capture, .captureMissed, 4, page, kind.value)]) s t)

/-- With the entry of the job runner taken, and no job RUNNING, the test of R187 still does not hold. -/
def State.upBesidesJobs (s : State) : Prop := s.control.mode ≠ .shutting ∨ ∃ a ∈ s.control.announcements, a.block ≠ .jobs

/-- The command ends the RENDER_LIVE job, and the release of its pin leaves the slot unpinned with a capture in WAITING_PIN (R11, R112,
R142). The capture gets its pin on the newest slot, if there is one: then it waits for a slot, with credit 0 (R113, R114), or reads the
head descriptor (R115), or, with a head that may not be read, stops the chain with CHAIN_FAULT and is missed (R115, R116), or, with the
chain STOPPED, is missed (R113, R123). What the end of the job issues and raises comes before that, and what the command does after the
end comes behind it. -/
def JobPinServes (c : Instr) (s : State) (j : RunningJob) (moved : List Piece) (also : State → Prop) (ops later : List RecordOp)
    (news : State → List (Block × EventKind × Nat × Nat × Nat)) (laterNews : List (Block × EventKind × Nat × Nat × Nat)) : Prop :=
  ∀ p, j.pin = some p → (s.intake.slot p).pinFreeze = false → (s.intake.slot p).pinCapture = false →
    s.capture.context.state = .waitingPin →
    let x := s.capture.context
    let freed := s.intake.slots.modify p fun y => { y with pinJob := false }
    let ended (t : State) : Prop :=
      also t ∧ t.jobs.running = none ∧ t.intake.newest = s.intake.newest ∧ t.intake.hold = s.intake.hold
    let changed := moved ++ .runningJob :: endingCapture
    (s.intake.newest = none →
      Completes c s fun t =>
        ended t ∧ t.intake.slots = freed ∧ Did (moved ++ [.runningJob, .slots]) (ops ++ later) (news t ++ laterNews) s t)
    ∧ ∀ m, s.intake.newest = some m →
        let granted (t : State) : Prop :=
          ended t ∧ t.intake.slots = freed.modify m (fun y => { y with pinCapture := true })
            ∧ t.capture.context = { x with state := .waitingSlot, pinned := some m, frame := s.intake.frameNumber }
        let missed (k : Nat) (t : State) : Prop :=
          ended t ∧ t.capture.context = {} ∧ t.capture.slotWaiting = false
            ∧ t.intake.slots = freed.modify m (fun y => { y with pinCapture := false })
            ∧ t.monitor.index = s.monitor.index.set k { s.monitor.entry k with state := .empty }
        (s.capture.running = true → s.capture.credit = 0 →
          Completes c s fun t =>
            granted t ∧ t.capture.slotWaiting = true ∧ t.capture.slotCount = 0 ∧ t.capture.slotExpired = false
              ∧ t.capture.read = s.capture.read
              ∧ Did changed (ops ++ fieldWrite 2 1 2 :: later) (news t ++ laterNews) s t)
        ∧ (s.capture.running = true → 1 ≤ s.capture.credit → headReadable s.capture.head →
          Completes c s fun t =>
            granted t ∧ t.capture.slotWaiting = s.capture.slotWaiting ∧ t.capture.read = .waiting
              ∧ Did changed (ops ++ fieldWrite 2 1 2 :: .read .descriptor s.capture.head [] :: later) (news t ++ laterNews) s t)
        ∧ (s.noDescriptorRead → s.upBesidesJobs → ∀ k, x.entry = some k →
            (s.capture.running = true → 1 ≤ s.capture.credit → ¬ headReadable s.capture.head →
              Completes c s fun t =>
                missed k t ∧ t.capture.credit = 0 ∧ t.capture.running = false ∧ t.capture.head = s.capture.head
                  ∧ Did (changed ++ [.index, .chain]) (ops ++ fieldWrite 2 1 2 :: (chainFaultOps k ++ later))
                      (news t ++ chainFaultNews (headFaultKind s.capture.head) s.capture.head x.page x.reason ++ laterNews) s t)
            ∧ (s.capture.running = false →
              Completes c s fun t =>
                missed k t
                  ∧ Did (changed ++ [.index]) (ops ++ [fieldWrite 2 1 2, writeOf (0x1000 + 64 * k) [0#8], fieldWrite 2 1 0] ++ later)
                      (news t ++ (.capture, .captureMissed, 4, x.page, x.reason.value) :: laterNews) s t))

/-- The unit of the engine meets no word with an error, in what it has still to read or in what it writes (R102, R161). -/
def State.cleanUnit (s : State) (u : EngineUnit) : Prop :=
  ∀ w, w ∈ s.port.bad ∨ w ∈ s.port.weak → u.needsWord w = false ∧ ∀ c ∈ s.unitCells u, c.1 / 4 ≠ w

/-- The count of correctable errors after `k` more have been found (R162). -/
def State.correctableAfter (s : State) (k : Nat) : Nat := if k = 0 then s.port.correctable else min 4294967295 (s.port.correctable + k)

/-- A read of the unit meets its first uncorrectable word x in this command, having read k correctable ones: in a burst of the ENGINE's
grant, in the order of addresses (R102, R163), or at the completion, which makes the reads that no burst has made, in the order of
addresses too (the model's own choice, assumption logs 7 and 14: the manual has the fault within MEMORY_BURST_COMPLETE). -/
def State.faultsAt (s : State) (u : EngineUnit) (completion c : Instr) (x k : Nat) : Prop :=
  x ∈ s.port.bad ∧ s.engine.unit = some u
    ∧ ((c = completion ∧ u.needsWord x = true ∧ (∀ y ∈ s.port.bad, u.needsWord y = true → x ≤ y)
          ∧ k = (s.port.weak.filter fun y => u.needsWord y && decide (y < x)).length)
      ∨ ∃ b g, c = .memoryBurstComplete [] b ∧ s.port.grant = some g ∧ g.who = .engine ∧ b.write = false ∧ u.moves b = true
          ∧ b.addr / 4 ≤ x ∧ 4 * x < b.addr + b.len ∧ (∀ y, b.addr / 4 ≤ y → y < x → y ∉ s.port.bad)
          ∧ k = ((List.range (x - b.addr / 4)).filter fun i => decide (b.addr / 4 + i ∈ s.port.weak)).length)

/-- The memory port has reported the uncorrectable error (R163) and counted the k correctable ones before it (R162). -/
def FaultReported (s t : State) (k : Nat) : Prop :=
  t.port.uncorrectable = min 4294967295 (s.port.uncorrectable + 1) ∧ t.port.correctable = s.correctableAfter k
    ∧ t.port.bad = s.port.bad ∧ t.port.weak = s.port.weak
    ∧ ∀ i, t.post.cause.getLsbD i = (s.post.cause.getLsbD i || decide (i = 5))

/-- The bytes of pixel (i, j) of the unit's part, where `here` says that this step writes them: the luma at destination + j × Wp + i, and
at destination + Wp × Hp + j × Wp + i its byte of the chroma pair, Cb for an even i and Cr for an odd one (R63, R151). -/
def PixelWritten (here : Nat → Prop) (s t : State) (u : EngineUnit) (p : Part) (i j : Nat) : Prop :=
  let r := p.render
  let luma := r.destination + j * r.wp + i
  let chroma := r.destination + r.wp * r.hp + j * r.wp + i
  (here luma → luma < 0x10000000 → luma ∉ u.written → t.mem.read luma = BitVec.ofNat 8 (p.luma (s.getter u) i j))
    ∧ (here chroma → chroma < 0x10000000 → chroma ∉ u.written →
        t.mem.read chroma = BitVec.ofNat 8 (p.chroma (s.getter u) (i % 2) i j))

/-- Every pixel of the unit's part has its bytes where `here` says so. (A piece of a capture or of a job is one part, and lies within its
target, R64.) -/
def PixelsWritten (here : Nat → Prop) (s t : State) (u : EngineUnit) : Prop :=
  ∀ p, u.parts = [p] → p.col + p.cols ≤ p.render.wp → p.row + p.rows ≤ p.render.hp →
    ∀ i j, p.col ≤ i → i < p.col + p.cols → p.row ≤ j → j < p.row + p.rows → PixelWritten here s t u p i j

/-- The unit's destination bytes stand in memory, each at the address that R63 and R151 give it, and every other byte is unchanged. -/
def UnitWritten (s t : State) (u : EngineUnit) : Prop :=
  PixelsWritten (fun _ => True) s t u ∧
  (∀ c ∈ s.unitCells u, c.1 < Config.memTop → (∀ c' ∈ s.unitCells u, c'.1 = c.1 → c'.2 = c.2) → t.mem.read c.1 = c.2)
    ∧ (∀ a, (∀ c ∈ s.unitCells u, c.1 ≠ a) → t.mem.read a = s.mem.read a)
    ∧ ∀ a, (∀ p ∈ u.parts, ∀ i j, p.col ≤ i → i < p.col + p.cols → p.row ≤ j → j < p.row + p.rows →
          a ≠ p.render.destination + j * p.render.wp + i
            ∧ a ≠ p.render.destination + p.render.wp * p.render.hp + j * p.render.wp + i) →
        t.mem.read a = s.mem.read a

/-- The samples of a signature piece that lie in the tile of column c and row r, added (R66): source columns c × floor(Ws / 16) to
(c + 1) × floor(Ws / 16) − 1 and rows r × floor(Hs / 12) to (r + 1) × floor(Hs / 12) − 1, each luma sample at source + y × Ws + x. -/
def Part.tileSum (p : Part) (rd : Getter) (c r : Nat) : Nat :=
  let tw := p.render.ws / 16
  let th := p.render.hs / 12
  ((List.range p.rows).map fun dy => ((List.range p.cols).map fun dx =>
    let x := p.col + dx
    let y := p.row + dy
    if c * tw ≤ x ∧ x < (c + 1) * tw ∧ r * th ≤ y ∧ y < (r + 1) * th then rd (p.render.source + y * p.render.ws + x) else 0).sum).sum

/-! ## Output frames -/

/-- The output mode of the frame that the raster is in (R68): the one in force at the feeder, or, while it waits for its layout read, the
one of the last frame turn kept behind it (assumption log 13). -/
def State.frameMode (s : State) : Nat :=
  if s.feeder.layoutRead = .idle then s.feeder.outputMode
  else ((s.feeder.deferred.filterMap fun e => match e with | .turn m => some m | _ => none).getLast?).getD s.feeder.outputMode

/-- The strips of a frame of the raster (R68). -/
def State.frameStrips (s : State) : Nat := if s.frameMode = 0 then 90 else if s.frameMode = 1 then 135 else 150

/-- Every pane's zoom has moved one step toward its target (R83). -/
def rampedLayout (l : Layout) : Layout :=
  { l with panes := l.panes.map fun p =>
      { p with current :=
          if p.rate = 0 then p.target
          else if p.current ≤ p.target then min p.target (p.current + p.rate) else max p.target (p.current - p.rate) } }

/-- The output frame has been counted (R73): its number, the holdoff timer (R176), the reaction timer (R185) and, in SHUTTING, the output
frames since its entry (R187). -/
def Counted (s t : State) : Prop :=
  t.feeder.frameNumber = (s.feeder.frameNumber + 1) % 4294967296
    ∧ t.post.timer = s.post.timer.map (· + 1) ∧ t.post.unsignalled = s.post.unsignalled
    ∧ t.post.holdoffDue = s.post.timer.any (fun x => decide (s.post.setup.holdoff ≤ x + 1))
    ∧ t.control.timerOn = s.control.timerOn ∧ t.control.timerWait = s.control.timerWait
    ∧ t.control.timerCount = (if s.control.timerOn = true then min 65535 (s.control.timerCount + 1) else s.control.timerCount)
    ∧ t.control.safe = s.control.safe ∧ t.control.safeAfter = s.control.safeAfter
    ∧ t.control.shuttingFrames = (if s.control.mode = .shutting then s.control.shuttingFrames + 1 else s.control.shuttingFrames)

/-! ## Invariants -/

/-- At no time are more than two frame slots pinned (R10). So that a release never serves a waiting capture beside two pinned slots, a
RENDER_LIVE job's pin is on the slot it names, and every slot named is one of the five. -/
def State.pinsOk (s : State) : Prop :=
  s.intake.pinnedCount ≤ 2 ∧ s.intake.slots.length = 5
    ∧ (∀ n, s.intake.newest = some n → n < 5) ∧ (∀ n, s.intake.target = .slot n → n < 5)
    ∧ (∀ p, s.intake.pendingFrame = some p → p.slot < 5)
    ∧ ∀ j n, s.jobs.running = some j → j.pin = some n → (s.intake.slot n).pinJob = true

/-- Shared memory has its canonical form. -/
def State.memoryOk (s : State) : Prop := s.mem.wf = true

/-- The event queue stays in its ring, and put stands the fill level after get (R173). -/
def State.queueOk (s : State) : Prop :=
  0 < s.post.setup.queueSize ∧ s.post.get < s.post.setup.queueSize ∧ s.post.fill ≤ s.post.setup.queueSize
    ∧ s.post.put = (s.post.get + s.post.fill) % s.post.setup.queueSize

/-- Counters and buffers stay within the sizes that the manual gives them (R5, R14, R124, R155, R167, R174). -/
def State.boundsOk (s : State) : Prop :=
  s.intake.instability ≤ 32 ∧ s.intake.buffer.length ≤ Config.bufferBytes ∧ s.capture.credit ≤ 255
    ∧ s.port.queue.length ≤ Config.recordRoom ∧ s.post.fifo.length ≤ Config.fifoRoom ∧ s.post.lost ≤ 65535
    ∧ s.post.sequence < 65536

/-- A PROVISIONAL entry is the entry of the capture in hand (R35, R37 to R39). -/
def State.provisionalOk (s : State) : Prop :=
  ∀ n, (s.monitor.entry n).state = .provisional → s.capture.context.state ≠ .idle ∧ s.capture.context.entry = some n

/-- What R8 says of the frame slots: a slot that carries the newest mark, is held for display or is pinned is COMPLETE, and each owner
holds at most one pin. So that the slot of a frame in progress, or of one that waits for its acceptance, is none of these, it is
FILLING; and so that an owner that asks for a pin holds none, the pins of the capture unit and of the job runner are on the slots
that their contexts name. -/
def State.slotsOk (s : State) : Prop :=
  s.intake.slots.length = 5
    ∧ (∀ n, s.intake.newest = some n ∨ s.intake.hold = some n ∨ (s.intake.slot n).pinned = true → (s.intake.slot n).fill = .complete)
    ∧ (∀ n m, (s.intake.slot n).pinFreeze = true → (s.intake.slot m).pinFreeze = true → n = m)
    ∧ (∀ n, (s.intake.slot n).pinCapture = true → s.capture.context.pinned = some n)
    ∧ (s.capture.context.state = .idle ∨ s.capture.context.state = .waitingPin → s.capture.context.pinned = none)
    ∧ (∀ n, (s.intake.slot n).pinJob = true → ∃ j, s.jobs.running = some j ∧ j.pin = some n)
    ∧ (∀ n, s.intake.target = .slot n → (s.intake.slot n).fill = .filling ∧ s.intake.pendingFrame = none)
    ∧ ∀ p, s.intake.pendingFrame = some p → (s.intake.slot p.slot).fill = .filling

/-- What R35 says of the page index: no two entries that are VALID or PROVISIONAL have the same page number, and no page number is above
the lesson page counter. So that a capture completes the entry it inserted, the entry that the context names is PROVISIONAL. -/
def State.pagesOk (s : State) : Prop :=
  (∀ n m, n ≠ m → (s.monitor.entry n).state ≠ .empty → (s.monitor.entry m).state ≠ .empty →
      (s.monitor.entry n).page ≠ (s.monitor.entry m).page)
    ∧ (∀ n, (s.monitor.entry n).state ≠ .empty → (s.monitor.entry n).page ≤ s.capture.counter)
    ∧ ∀ n, s.capture.context.entry = some n → (s.monitor.entry n).state = .provisional

/-- The strip that the raster comes to next is one of the output mode that it runs in (R68), so that its scan-out, or the frame turn, can
begin. So that this mode is known, nothing is kept for the feeder while it waits for no layout read (R72). -/
def State.rasterOk (s : State) : Prop :=
  (s.feeder.layoutRead = .idle → s.feeder.deferred = []) ∧ s.feeder.nextStrip < s.frameStrips

/-- The arbiter's grant is within its limit, and the limit is 8 or 16 (R158). -/
def State.grantOk (s : State) : Prop :=
  ∀ g, s.port.grant = some g → g.bursts < g.limit ∧ (g.limit = 8 ∨ g.limit = 16)

end Sys2Proof.Machine
end

