-- ==== Sys2Proof/Certificates/Slice0/Obligations.lean ====
section
/-! DEFINITION. The statements for the provers: one Prop each, from the numbered rules of spec/. A statement of what a command does
says its results, the record operations it issues and the events it raises, in order, and the pieces of state it may change; every
other piece is unchanged (Safety.lean: Did, DidOnly, Unchanged). -/

section

open Sys2Proof Sys2Proof.Machine

/-! ## Steps, resets, BOOT and modes -/

/-- A step takes the command at the front of the queue and is that command's exec on the state with the queue's rest. With no command
waiting the part idles: the model's choice, assumption log 4. -/
def Obligations.StepRunsTheFrontCommand : Prop :=
  (∀ (c : Instr) (s : State), step { s with pending := c :: s.pending } = exec c s)
    ∧ ∀ s : State, s.pending = [] → step s = .next s

/-- Every command answers a next state in every state, and leaves the queue of waiting commands alone. That a command which cannot occur in
the state it finds still answers, and then changes nothing, is the model's choice (assumption log 4); the manual gives each event where
it can occur. -/
def Obligations.EveryCommandAnswers : Prop :=
  ∀ (c : Instr) (s : State), Completes c s fun t => t.pending = s.pending

/-- Each of the three resets, in every state in which it can come, puts every block into its state after reset (R18, R44, R67, R91, R104,
R130, R149, R164, R179, R180); the values of the tables are named in the second half. Shared memory stays. The model's own readings:
what else a reset leaves (the words with errors, the host access held and its last response, the level of POWER_WARN) is assumption log
30, the values of the fields that no table names log 33, the levels of the inputs log 3, and the resets as commands, with SOFT_RESET
without effect in RESET, log 18. -/
def Obligations.ResetsGiveTheTablesValues : Prop :=
  (∀ (c : Instr) (s : State), (c = .resetPin ∨ c = .supplyGoodLoss ∨ (c = .softReset ∧ s.control.mode ≠ .reset)) →
    Completes c s fun t =>
      t.intake = State.reset.intake ∧ t.monitor = State.reset.monitor ∧ t.engine = State.reset.engine
        ∧ t.feeder = State.reset.feeder ∧ t.capture = State.reset.capture ∧ t.jobs = State.reset.jobs
        ∧ t.post = State.reset.post
        ∧ t.control = { State.reset.control with
            warnLevel := s.control.warnLevel
            pinActive := s.control.pinActive || decide (c = .resetPin)
            supplyGood := s.control.supplyGood && decide (c ≠ .supplyGoodLoss) }
        ∧ t.port = { State.reset.port with
            bridge := s.port.bridge, response := s.port.response, weak := s.port.weak, bad := s.port.bad }
        ∧ (∀ a, t.mem.read a = s.mem.read a))
  ∧ (∀ s : State, s.control.mode = .reset → exec .softReset s = .next s)
  ∧ let s := State.reset
    s.control.mode = .reset ∧ s.control.warned = false ∧ s.control.timerOn = false ∧ s.control.timerCount = 0
    ∧ s.control.safe = false
    ∧ s.intake.state = .stopped ∧ s.intake.geometry = none ∧ s.intake.buffer = []
    ∧ s.intake.slots.length = 5 ∧ (∀ x ∈ s.intake.slots, x.fill = .free ∧ x.geometry = none ∧ x.pinned = false)
    ∧ s.intake.newest = none ∧ s.intake.hold = none ∧ s.intake.held = none ∧ s.intake.frameNumber = 0
    ∧ s.intake.malformed = 0 ∧ s.intake.drops = 0 ∧ s.intake.instability = 0 ∧ s.intake.suspended = false
    ∧ s.monitor.previous = none ∧ s.monitor.pageState = .settled ∧ s.monitor.motionRun = 0 ∧ s.monitor.stillRun = 0
    ∧ s.monitor.patternAge = 0 ∧ s.monitor.levels = ⟨0, 0, false⟩ ∧ s.monitor.index.length = 64
    ∧ (∀ e ∈ s.monitor.index, e = ⟨.empty, 0, 0, 0, 0, 0, 0#384⟩)
    ∧ s.engine.unit = none
    ∧ s.feeder.outputMode = 1 ∧ s.feeder.layout.generation = 0 ∧ s.feeder.layout.background = ⟨16, 128, 128⟩
    ∧ s.feeder.layout.panes = [⟨0, 0, 1920, 1080, .live, 1, .none, 0, 0, 0, 0, 256, 256, 26112, 19584, 0, 0⟩]
    ∧ s.feeder.rasterOn = false ∧ s.feeder.posted = false ∧ s.feeder.bufferA = .empty ∧ s.feeder.bufferB = .empty ∧ s.feeder.request = none
    ∧ s.feeder.underrunRun = 0 ∧ s.feeder.cleanRun = 0 ∧ s.feeder.degraded = false ∧ s.feeder.frameNumber = 0
    ∧ s.feeder.underruns = 0 ∧ s.feeder.faults = 0
    ∧ s.capture.lessonOpen = false ∧ s.capture.counter = 0
    ∧ s.capture.context = ⟨.idle, 0, .auto, none, ⟨0, 0, false⟩, none, 0, none, none, 0, 0⟩
    ∧ s.capture.slotWaiting = false ∧ s.capture.slotCount = 0
    ∧ s.capture.running = false ∧ s.capture.head = 0 ∧ s.capture.credit = 0
    ∧ s.jobs.running = none ∧ s.jobs.scan = none ∧ s.jobs.entries.length = 16 ∧ (∀ e ∈ s.jobs.entries, e = ⟨.idle, 0, 0, 0⟩)
    ∧ s.port.grant = none ∧ s.port.last = none ∧ s.port.pass = ⟨0, 0, 0, 0⟩ ∧ s.port.queue = [] ∧ s.port.blocked = []
    ∧ s.port.correctable = 0 ∧ s.port.uncorrectable = 0
    ∧ s.post.cause = 0#6 ∧ s.post.mask = 0#6 ∧ s.post.fifo = [] ∧ s.post.inHand = none ∧ s.post.setupGeneration = 0
    ∧ s.post.put = 0 ∧ s.post.get = 0 ∧ s.post.fill = 0 ∧ s.post.lost = 0 ∧ s.post.sequence = 0
    ∧ s.post.unsignalled = 0 ∧ s.post.timer = none
    ∧ s.post.setup = ⟨3264, 2448, 1, 12, 8, 2, 3, 10, 12, 60, 300, 0, false, true, 2, true, 0, 0, 64, 1, 0,
        [(0, 0), (24, 2), (40, 3), (64, 4)], 0#192⟩

/-- The release of reset enters BOOT, with the pending warning flag set if POWER_WARN is active. Then the zeros of BOOT stand over the
control block and nowhere else, the words marked there are cured, and the one operation issued writes the status area: mode BOOT and
zeros. -/
def Obligations.BootClearsTheControlBlock : Prop :=
  (∀ s : State, s.control.mode = .reset →
    Completes .resetRelease s fun t =>
      t.control.mode = .boot ∧ t.control.warned = s.control.warnLevel ∧ t.control.warnLevel = s.control.warnLevel
        ∧ t.control.pinActive = false ∧ t.control.supplyGood = true ∧ t.port.boot = .clearing
        ∧ Unchanged [.mode, .inputs, .boot] s t)
  ∧ ∀ s : State, s.control.mode = .boot → s.port.boot = .clearing →
    Completes .bootClearDone s fun t =>
      (∀ a, t.mem.read a = if a < 0x10000 then 0#8 else s.mem.read a)
        ∧ (∀ w, w ∈ t.port.bad ↔ w ∈ s.port.bad ∧ 0x4000 ≤ w)
        ∧ (∀ w, w ∈ t.port.weak ↔ w ∈ s.port.weak ∧ 0x4000 ≤ w)
        ∧ t.port.correctable = s.port.correctable ∧ t.port.uncorrectable = s.port.uncorrectable
        ∧ t.port.boot = .status
        ∧ DidOnly [.memory, .errors, .boot] [writeOf 0 (1#8 :: List.replicate 511 0#8)] [] s t

/-- BOOT ends when the status write has been performed: in STANDBY, or, warned, in SHUTTING, which goes on at once to POWERDOWN. Either way
every block begins in the new mode, the raster starts, and a host access held goes on to memory, or ends at once with ACCESS set. The
mode field is written, and MODE_CHANGED at the put position, with the put index, the fill level, the sequence number and the moderation
as for every record: at position 0 with sequence number 0, where the post port stands as the reset left it. With nothing to wait for,
SHUTTING goes on to POWERDOWN, which is announced to every block, with a MODE_CHANGED of its own and POWER_SAFE behind it. (That the
blocks take the new mode within BOOT_END, with no announcement of it left, is assumption log 16, DEDUCED; that an access held above
shared memory, or a write held into a protected range, ends at once, without a grant, is assumption log 17, DEDUCED; that the post port
takes its MODE_CHANGED in the same step, so that no other record comes ahead of it, is the model's reading of R182, assumption log 24.) -/
def Obligations.BootEndsInStandbyOrShutsDown : Prop :=
  ∀ s : State, s.control.mode = .boot → s.port.boot = .status → s.port.queue = [] → s.noneWait → s.post.holdoffDue = false →
    s.post.fill < s.post.setup.queueSize →
    let put := if s.post.put + 1 < s.post.setup.queueSize then s.post.put + 1 else 0
    -- the mode field and the record of MODE_CHANGED with the put index, for the mode of this number
    let ops (mode : Nat) : List RecordOp :=
      [fieldWrite 0 1 mode, s.eventOp 1 mode 1 0 s.intake.frameNumber, fieldWrite 0x04 2 put]
    let recorded (t : State) : Prop :=
      t.post.put = put ∧ t.post.get = s.post.get ∧ t.post.fill = s.post.fill + 1
        ∧ t.post.sequence = (s.post.sequence + 1) % 65536 ∧ t.post.holdoffDue = false
        ∧ if s.post.setup.watermark ≤ s.post.fill + 1 then t.post.unsignalled = 0 ∧ t.post.timer = none
          else
            t.post.unsignalled = s.post.unsignalled + 1
              ∧ t.post.timer = if s.post.unsignalled = 0 ∧ s.post.setup.holdoff ≠ 0 then some 0 else s.post.timer
    -- the causes, ACCESS set where the host access has ended
    let causes (access : Bool) (t : State) : Prop :=
      ∀ i, t.post.cause.getLsbD i =
        (s.post.cause.getLsbD i || decide (i = 0 ∧ s.post.setup.watermark ≤ s.post.fill + 1) || (access && decide (i = 3)))
    let begun (m : Mode) (t : State) : Prop :=
      t.intake = { s.intake with view := m, state := if m = .standby then .waiting else .stopped }
        ∧ t.feeder = { s.feeder with view := m, rasterOn := true } ∧ t.monitor.view = m ∧ t.capture.view = m ∧ t.jobs.view = m
    let changed : List Piece :=
      [.boot, .inputs, .layout, .mode, .announcements, .views, .shape, .host, .cause, .events, .moderation]
    Completes .bootEnd s fun t =>
      t.port.boot = .none ∧ t.control.warned = false ∧ t.control.warnLevel = s.control.warnLevel
        ∧ t.control.pinActive = s.control.pinActive ∧ t.control.supplyGood = s.control.supplyGood ∧ recorded t
        ∧ (s.port.bridge = none → t.port.bridge = none ∧ t.port.response = s.port.response ∧ causes false t)
        ∧ (∀ h, s.port.bridge = some h →
            (h.ending = none → t.port.bridge = some h ∧ t.port.response = s.port.response ∧ causes false t)
            ∧ ∀ r, h.ending = some r → t.port.bridge = none ∧ t.port.response = r ∧ causes true t)
        ∧ (s.control.warned = false → s.control.warnLevel = false →
            t.control.mode = .standby ∧ t.control.announcements = [] ∧ begun .standby t ∧ Did changed (ops 2) [] s t)
        ∧ ((s.control.warned = true ∨ s.control.warnLevel = true) → s.capture.context.state = .idle → s.jobs.running = none →
            s.feeder.deferred = [] →
            t.control.mode = .powerdown ∧ t.control.announcements = announcedBlocks.map (Announcement.mk · .powerdown)
              ∧ begun .shutting t ∧ t.control.timerOn = false ∧ t.control.timerCount = s.control.timerCount
              ∧ t.control.timerWait = s.control.timerWait ∧ t.control.safe = s.control.safe
              ∧ t.control.safeAfter = s.control.safeAfter ∧ t.control.shuttingFrames = 0
              ∧ Did (changed ++ [.timer, .safety]) (ops 4 ++ [fieldWrite 0 1 5])
                  [(.mode, .modeChanged, 5, 4, 5), (.mode, .powerSafe, 0, 0, s.capture.counter)] s t)

/-- The SYSCTL mode requests act as R183's table says, with MODE_CHANGED, the mode field and an announcement to every block for each change,
and nothing without one. -/
def Obligations.ModeRequestsFollowTheTable : Prop :=
  ∀ s : State,
    (s.control.mode = .live →
      (Completes .modeRequestStandby s fun t =>
        t.control.mode = .standby ∧ t.control.timerOn = false ∧ t.control.timerCount = s.control.timerCount
          ∧ t.control.announcements = s.control.announcements ++
              announcedBlocks.map (Announcement.mk · .standby)
          ∧ Did [.mode, .announcements, .timer] [fieldWrite 0 1 2] [(.mode, .modeChanged, 2, 3, 1)] s t)
      ∧ Completes .modeRequestLive s fun t =>
          t.control.timerOn = false ∧ t.control.timerCount = s.control.timerCount ∧ Unchanged [.timer] s t)
    ∧ (s.control.mode = .standby →
      exec .modeRequestStandby s = .next s
        ∧ Completes .modeRequestLive s fun t =>
          t.control.mode = .live
            ∧ t.control.announcements = s.control.announcements ++
                announcedBlocks.map (Announcement.mk · .live)
            ∧ Did [.mode, .announcements] [fieldWrite 0 1 3] [(.mode, .modeChanged, 3, 2, 1)] s t)
    ∧ (s.control.mode ≠ .standby → s.control.mode ≠ .live →
        exec .modeRequestStandby s = .next s ∧ exec .modeRequestLive s = .next s)

/-- The entries to a mode reach the frame intake and the page monitor. The intake passes over the frame it is filling, or that waits behind
a pending acceptance for its slot, uncounted: its bytes are discarded and its slot is FREE, with the slot's pins, and every other slot,
as before. In STANDBY no slot carries the newest mark, and a frame without a slot goes on; in SHUTTING the intake stops; an entry to
LIVE changes nothing else. The monitor abandons its pattern without an event and unloads the previous means. (The entry does not end the
shutdown: where it does, see ShutdownEndsInPowerdownAndSafe.) A pattern whose timeout is due, the model's own field of assumption log 8,
ends with PATTERN_TIMEOUT first. -/
def Obligations.EntriesReachIntakeAndMonitor : Prop :=
  ∀ (s : State) (m : Mode),
    let passedOver (t : State) : Prop :=
      t.intake.buffer = s.intake.buffer.filter (fun b => b.ofPending) ∧ t.intake.target = .standby ∧ t.intake.lineOpen = false
        ∧ SlotsKept (fun n => s.intake.target = .slot n) s t
        ∧ ∀ n, s.intake.target = .slot n → n < s.intake.slots.length →
            t.intake.slot n = { s.intake.slot n with fill := .free }
    (s.control.announced .intake = some ⟨.intake, m⟩ → s.readyForEntry .intake → (s.dropAnnouncement ⟨.intake, m⟩).staysUp →
      Completes (.modeEntry .intake) s fun t =>
        t.intake.view = m ∧ t.control.announcements = s.control.announcements.erase ⟨.intake, m⟩
          ∧ t.intake.malformed = s.intake.malformed ∧ t.intake.drops = s.intake.drops ∧ t.intake.hold = s.intake.hold
          ∧ (m = .standby → t.intake.newest = none ∧ (s.intake.state = .stopped → t.intake.state = .waiting)
              ∧ (s.intake.state = .receiving → s.intake.target ≠ .standby → passedOver t ∧ t.intake.state = .discarding)
              ∧ (s.intake.state ≠ .receiving ∨ s.intake.target = .standby →
                  t.intake.slots = s.intake.slots ∧ t.intake.buffer = s.intake.buffer ∧ t.intake.target = s.intake.target
                    ∧ t.intake.lineOpen = s.intake.lineOpen ∧ t.intake.sums = s.intake.sums
                    ∧ (s.intake.state ≠ .stopped → t.intake.state = s.intake.state))
              ∧ (s.intake.pendingFrame = none → t.intake.pendingFrame = none)
              ∧ (∀ p, s.intake.pendingFrame = some p → t.intake.pendingFrame = some { p with noMark := true }))
          ∧ (m = .shutting → t.intake.state = .stopped ∧ t.intake.newest = s.intake.newest
              ∧ t.intake.pendingFrame = s.intake.pendingFrame ∧ passedOver t)
          ∧ (m = .live → t.intake = { s.intake with view := .live })
          ∧ Did [.announcements, .views, .shape, .buffer, .slots] [] [] s t)
    ∧ (s.control.announced .monitor = some ⟨.monitor, m⟩ → s.readyForEntry .monitor → (s.dropAnnouncement ⟨.monitor, m⟩).staysUp →
      Completes (.modeEntry .monitor) s fun t =>
        t.monitor.view = m ∧ t.control.announcements = s.control.announcements.erase ⟨.monitor, m⟩
          ∧ (m = .live ∨ m = .standby ∨ m = .shutting →
              t.monitor.pageState = .settled ∧ t.monitor.motionRun = 0 ∧ t.monitor.stillRun = 0 ∧ t.monitor.patternAge = 0
                ∧ t.monitor.timeoutDue = false ∧ t.monitor.previous = none
                ∧ Did [.announcements, .views, .pattern] []
                    (if s.monitor.timeoutDue = true then
                      [(.monitor, .patternTimeout, if s.monitor.pageState = .settling then 1 else 0, s.monitor.patternAge,
                        s.monitor.motionRun)]
                    else []) s t))

/-- The entries to a mode reach the capture unit and the job runner. A capture that waits for a pin or a slot is missed with reason STANDBY
or POWER, its entry withdrawn, its pin released and a descriptor read of its own disregarded; a RENDERING capture is not touched, and
decisions on their way see the entry. A RUNNING job gets a pending stop while a piece of it is in progress, and otherwise ends CANCELLED
with reason STANDBY or POWER; at the entry to SHUTTING every PENDING entry ends CANCELLED with reason POWER, in increasing number (the
running job's end comes before theirs: the model's choice, assumption log 38); and a scan in progress will start nothing. An entry to
LIVE changes nothing else. (A capture that waits for the pin of the job that ends: CapturesThatWaitAreServedOrMissed. The entry does not
end the shutdown: where it does, see ShutdownEndsInPowerdownAndSafe.) (That a write of a record's state carries only the fields that
change is assumption log 35, DESIGN CHOICE.) -/
def Obligations.EntriesReachCaptureAndJobs : Prop :=
  ∀ (s : State) (m : Mode), (m = .standby ∨ m = .shutting ∨ m = .live) →
    (s.control.announced .capture = some ⟨.capture, m⟩ → s.readyForEntry .capture →
      let s' := s.dropAnnouncement ⟨.capture, m⟩
      let entered (t : State) : Prop :=
        t.capture.view = m ∧ t.control.announcements = s'.control.announcements
          ∧ t.capture.decisions = s.capture.decisions.map fun d =>
              { d with sawStandby := d.sawStandby || decide (m = .standby), sawShutting := d.sawShutting || decide (m = .shutting) }
      (m ≠ .live → s.capture.context.state = .waitingPin ∨ s.capture.context.state = .waitingSlot → s'.upAfterCapture →
        Completes (.modeEntry .capture) s fun t =>
          entered t ∧ CaptureEnded s t
            ∧ Unchanged (.announcements :: .views :: .decisions :: .slots :: .index :: .slotWait :: .descriptorRead :: takingWork) s t
            ∧ ∀ k, s.capture.context.entry = some k →
                t.monitor.index = s.monitor.index.set k { s.monitor.entry k with state := .empty }
                  ∧ Did (endingCapture ++ [.announcements, .views, .decisions, .index]) [writeOf (0x1000 + 64 * k) [0#8], fieldWrite 2 1 0]
                      [(.capture, .captureMissed, if m = .standby then 8 else 9, s.capture.context.page,
                        s.capture.context.reason.value)] s.abandonRead t)
      ∧ (m = .live ∨ s.capture.context.state = .idle ∨ s.capture.context.state = .rendering → s'.staysUp →
        Completes (.modeEntry .capture) s fun t => entered t ∧ Did [.announcements, .views, .decisions] [] [] s t))
    ∧ (s.control.announced .jobs = some ⟨.jobs, m⟩ → s.readyForEntry .jobs → s.jobs.entries.length = 16 →
      let s' := s.dropAnnouncement ⟨.jobs, m⟩
      let reason := if m = .standby then 11 else 12
      let cancelled := if m = .shutting then (List.range 16).filter fun n => decide ((s.jobs.entry n).state = .pending) else []
      let ops : List RecordOp := cancelled.map fun n => outcomeOp n 4 12 0 255
      let news : List (Block × EventKind × Nat × Nat × Nat) := cancelled.map fun n => (.jobs, .jobEnd, n, 4, 12)
      let entered (t : State) : Prop :=
        t.jobs.view = m ∧ t.control.announcements = s'.control.announcements
          ∧ t.jobs.scan = s.jobs.scan.map fun x => { x with void := true }
      (m = .live → s'.staysUp →
        Completes (.modeEntry .jobs) s fun t =>
          t.jobs.view = m ∧ t.control.announcements = s'.control.announcements ∧ Did [.announcements, .views] [] [] s t)
      ∧ (m ≠ .live →
        (s.jobs.running = none → s'.upAfterJob →
          Completes (.modeEntry .jobs) s fun t =>
            entered t ∧ (∀ n, n < 16 → t.jobs.entry n = if n ∈ cancelled then ⟨.cancelled, 12, 0, 255⟩ else s.jobs.entry n)
              ∧ Did [.announcements, .views, .jobEntries] ops news s t)
        ∧ ∀ j, s.jobs.running = some j → j.entry < 16 → (s.jobs.entry j.entry).state = .running →
            (s.jobPieceInProgress = true ∨ j.stop ≠ none →
              Completes (.modeEntry .jobs) s fun t =>
                entered t ∧ t.jobs.running = some { j with stop := some (j.stop.getD reason) }
                  ∧ (∀ n, n < 16 → t.jobs.entry n = if n ∈ cancelled then ⟨.cancelled, 12, 0, 255⟩ else s.jobs.entry n)
                  ∧ Did [.announcements, .views, .runningJob, .jobEntries] ops news s t)
            ∧ (s.jobPieceInProgress = false → j.stop = none → s.noOneToServe j → s'.upAfterJob →
              Completes (.modeEntry .jobs) s fun t =>
                entered t ∧ JobEnded s t j
                  ∧ (∀ n, n < 16 → t.jobs.entry n =
                      if n ∈ cancelled then ⟨.cancelled, 12, 0, 255⟩
                      else if n = j.entry then ⟨.cancelled, reason, j.done, 255⟩ else s.jobs.entry n)
                  ∧ Did [.announcements, .views, .runningJob, .jobEntries, .slots] (outcomeOp j.entry 4 reason j.done 255 :: ops)
                      ((.jobs, .jobEnd, j.entry, 4, reason) :: news) s t)))

/-- The entries to STANDBY and SHUTTING reach the display feeder: the outstanding strip is withdrawn, and the engine abandons it if it works
on it, and goes on with what R94 gives next; work of another kind, and a strip that is not outstanding, go on. The display hold and a
freeze pin are released, and no pane is latched; the runs are cleared, and the degraded flag with DISPLAY_RECOVERED; at the entry to
SHUTTING the posted mark is cleared too. No frame of LIVE goes on, so that the port carries blank from the next scan-out on
(StripsAreScannedOutAndRequested): the strip that it carries, the strip buffers and the working layout stay. An entry to LIVE changes
nothing else. (No capture waits for the pin that is released, and the entry does not end the shutdown.) -/
def Obligations.EntriesReachTheFeeder : Prop :=
  ∀ (s : State) (m : Mode), s.control.announced .feeder = some ⟨.feeder, m⟩ → s.feeder.layoutRead = .idle →
    (s.dropAnnouncement ⟨.feeder, m⟩).staysUp →
    (m = .live →
      Completes (.modeEntry .feeder) s fun t =>
        t.feeder = { s.feeder with view := .live } ∧ t.control.announcements = s.control.announcements.erase ⟨.feeder, .live⟩
          ∧ Did [.announcements, .views] [] [] s t)
    ∧ (m = .standby ∨ m = .shutting → s.intake.slots.length = 5 → s.capture.context.state ≠ .waitingPin ∨ s.intake.freezeSlot = none →
      Completes (.modeEntry .feeder) s fun t =>
        t.feeder = { s.feeder with
            view := m, request := none, latched := [], liveFrame := false, late := false, underrunRun := 0, cleanRun := 0
            degraded := false, posted := s.feeder.posted && decide (m = .standby) }
          ∧ t.control.announcements = s.control.announcements.erase ⟨.feeder, m⟩
          ∧ t.intake.hold = none ∧ t.intake.newest = s.intake.newest
          ∧ t.intake.slots = (match s.intake.freezeSlot with
              | some n => s.intake.slots.modify n fun x => { x with pinFreeze := false }
              | none => s.intake.slots)
          ∧ StripWithdrawn s t
          ∧ Did [.announcements, .views, .strips, .lateness, .slots, .frameTurn, .unit]
              (if s.feeder.degraded = true then [fieldWrite 0x0F 1 0] else [])
              (if s.feeder.degraded = true then [(.feeder, .displayRecovered, 1, s.feeder.frameNumber, 0)] else []) s t)

/-- POWER_WARN in STANDBY or LIVE enters SHUTTING, in BOOT it sets the pending warning flag, and elsewhere only the level of the input
changes; the signal becoming inactive changes its level alone. Each change of mode is announced to every block. The expiry of the
reaction timer in LIVE returns the part to STANDBY and then raises WAKE_UNANSWERED with the host wait in force when the timer started
and the output frame number. -/
def Obligations.PowerWarningsAndUnansweredWakesChangeTheMode : Prop :=
  ∀ s : State,
    ((s.control.mode = .standby ∨ s.control.mode = .live) →
      Completes .powerWarn s fun t =>
        t.control.mode = .shutting ∧ t.control.timerOn = false ∧ t.control.shuttingFrames = 0 ∧ t.control.warnLevel = true
          ∧ t.control.warned = s.control.warned ∧ t.control.safe = s.control.safe ∧ t.control.safeAfter = s.control.safeAfter
          ∧ t.control.timerCount = s.control.timerCount ∧ t.control.timerWait = s.control.timerWait
          ∧ t.control.announcements = s.control.announcements ++ announcedBlocks.map (Announcement.mk · .shutting)
          ∧ Did [.inputs, .mode, .announcements, .timer, .safety] [fieldWrite 0 1 4]
              [(.mode, .modeChanged, 4, if s.control.mode = .standby then 2 else 3, 4)] s t)
    ∧ (s.control.mode = .boot →
      Completes .powerWarn s fun t => t.control.warned = true ∧ t.control.warnLevel = true ∧ Unchanged [.inputs] s t)
    ∧ ((s.control.mode = .reset ∨ s.control.mode = .shutting ∨ s.control.mode = .powerdown) →
      Completes .powerWarn s fun t =>
        t.control.warned = s.control.warned ∧ t.control.warnLevel = true ∧ Unchanged [.inputs] s t)
    ∧ (Completes .powerWarnInactive s fun t =>
        t.control.warnLevel = false ∧ t.control.warned = s.control.warned ∧ Unchanged [.inputs] s t)
    ∧ (s.control.mode = .live → s.control.timerOn = true → s.control.timerWait ≤ s.control.timerCount →
      Completes .reactionTimerExpiry s fun t =>
        t.control.mode = .standby ∧ t.control.timerOn = false
          ∧ t.control.announcements = s.control.announcements ++ announcedBlocks.map (Announcement.mk · .standby)
          ∧ Did [.mode, .announcements, .timer] [fieldWrite 0 1 2]
              [(.mode, .modeChanged, 2, 3, 3), (.mode, .wakeUnanswered, 0, s.control.timerWait, s.feeder.frameNumber)] s t)

/-- In SHUTTING, when the last entry has been taken and acted on, whichever block takes it, with the capture context IDLE and no job
RUNNING, the part enters POWERDOWN and raises POWER_SAFE, after what the block's own entry issues and raises. An entry that the display
feeder keeps behind the layout read of a frame turn is acted on at LAYOUT_READ_DONE, and the part goes on from there. Once POWER_SAFE
has been taken and the record operations up to it are performed, the POWER_SAFE cause is set and SAFE asserted. (That the last
announcement handed over, with none kept for the feeder, counts as every entry taken is assumption log 31, DEDUCED; a pattern whose
timeout is due, the model's own field of assumption log 8, ends with PATTERN_TIMEOUT first at the entry of the monitor.) (The engine
after the entry of the display feeder: as EntriesReachTheFeeder says.) -/
def Obligations.ShutdownEndsInPowerdownAndSafe : Prop :=
  (∀ (s : State) (b : Block), s.control.mode = .shutting → s.control.announcements = [⟨b, .shutting⟩] → b ≠ .mode →
    s.capture.context.state = .idle → s.jobs.running = none → s.free .capture = true → s.free .jobs = true →
    (s.readyForEntry b ∨ b = .feeder) → (b = .feeder → s.feeder.layoutRead = .idle) →
    (∀ e ∈ s.feeder.deferred, ∀ m, e ≠ .entry m) →
    let cancelled := (List.range 16).filter fun n => decide ((s.jobs.entry n).state = .pending)
    let ops : List RecordOp := match b with
      | .jobs => cancelled.map fun n => outcomeOp n 4 12 0 255
      | .feeder => if s.feeder.degraded = true then [fieldWrite 0x0F 1 0] else []
      | _ => []
    let news : List (Block × EventKind × Nat × Nat × Nat) := match b with
      | .jobs => cancelled.map fun n => (.jobs, .jobEnd, n, 4, 12)
      | .feeder => if s.feeder.degraded = true then [(.feeder, .displayRecovered, 1, s.feeder.frameNumber, 0)] else []
      | .monitor =>
        if s.monitor.timeoutDue = true then
          [(.monitor, .patternTimeout, if s.monitor.pageState = .settling then 1 else 0, s.monitor.patternAge, s.monitor.motionRun)]
        else []
      | _ => []
    let own : List Piece := match b with
      | .intake => [.views, .shape, .buffer, .slots]
      | .monitor => [.views, .pattern]
      | .feeder => [.views, .strips, .lateness, .slots, .frameTurn, .unit]
      | .capture => [.views, .decisions]
      | .jobs => [.views, .jobEntries]
      | _ => []
    (b = .jobs → s.roomFor ops.length) →
    Completes (.modeEntry b) s fun t =>
      t.control.mode = .powerdown ∧ t.control.announcements = announcedBlocks.map (Announcement.mk · .powerdown)
        ∧ (b = .feeder → StripWithdrawn s t)
        ∧ Did (own ++ [.mode, .announcements]) (ops ++ powerdownOps) (news ++ s.powerdownNews) s t)
  ∧ (∀ s : State, s.control.mode = .shutting → s.control.announcements = [] → s.feeder.deferred = [.entry .shutting] →
    (∃ bytes, s.feeder.layoutRead = .got bytes ∨ s.feeder.layoutRead = .error bytes) →
    s.capture.context.state = .idle → s.jobs.running = none → s.free .capture = true → s.free .jobs = true →
    Completes .layoutReadDone s fun t =>
      t.control.mode = .powerdown ∧ t.control.announcements = announcedBlocks.map (Announcement.mk · .powerdown)
        ∧ t.feeder.view = .shutting ∧ t.feeder.layoutRead = .idle ∧ t.feeder.deferred = [] ∧ t.feeder.posted = false
        ∧ t.feeder.request = none ∧ t.intake.hold = none
        ∧ t.control.shuttingFrames = s.control.shuttingFrames + 1
        ∧ (s.roomFor 3 → ∃ ops news, t.ops = s.ops ++ ops ++ powerdownOps
            ∧ t.news = s.news ++ news ++ { s with control.shuttingFrames := s.control.shuttingFrames + 1 }.powerdownNews))
  ∧ ∀ s : State, s.control.safeAfter = some 0 →
    Completes .safeAssert s fun t =>
      t.control.safe = true ∧ t.control.safeAfter = none ∧ t.control.shuttingFrames = s.control.shuttingFrames
        ∧ (∀ i, t.post.cause.getLsbD i = (s.post.cause.getLsbD i || decide (i = 4)))
        ∧ Did [.safety, .cause] [] [] s t

/-! ## The host's registers, post words and the event queue -/

/-- The registers as the host reads them, the writes of CAUSE and MASK, the writes without effect, and the interrupt line, which is asserted
while some cause that is enabled is set. A word written to POST joins the FIFO while it holds fewer than 8, and is otherwise dropped
with POST_OVERFLOW; in RESET and BOOT it is ignored. (That the registers answer, and the word joins at once, also while the host bridge
holds an access in wait states is assumption log 45, DESIGN CHOICE.) -/
def Obligations.RegistersReadAndWrite : Prop :=
  ∀ s : State,
    s.readRegister .id = 0x05630001#32
    ∧ s.readRegister .sysctl = (match s.control.mode with
        | .reset => 0#32 | .boot => 1#32 | .standby => 2#32 | .live => 3#32 | .shutting => 4#32 | .powerdown => 5#32)
    ∧ s.readRegister .post = 0#32
    ∧ (∀ i, (s.readRegister .cause).getLsbD i = s.post.cause.getLsbD i ∧ (s.readRegister .mask).getLsbD i = s.post.mask.getLsbD i)
    ∧ (s.interruptLine = true ↔ ∃ i, s.post.cause.getLsbD i = true ∧ s.post.mask.getLsbD i = true)
    ∧ ∀ v : Word,
        (∀ r : Register, (Instr.registerWriteOther r v).wellFormed = true → exec (.registerWriteOther r v) s = .next s)
        ∧ (s.control.mode = .reset → exec (.causeWrite v) s = .next s ∧ exec (.maskWrite v) s = .next s)
        ∧ (s.control.mode ≠ .reset →
            (Completes (.causeWrite v) s fun t =>
              (∀ i, t.post.cause.getLsbD i = (s.post.cause.getLsbD i && !v.getLsbD i)) ∧ Unchanged [.cause] s t)
            ∧ Completes (.maskWrite v) s fun t =>
              (∀ i, t.post.mask.getLsbD i = (v.getLsbD i && decide (i < 6))) ∧ Unchanged [.mask] s t)
        ∧ ((s.control.mode = .boot ∨ s.control.mode = .reset) → exec (.postWrite v) s = .next s)
        ∧ (s.control.mode ≠ .boot → s.control.mode ≠ .reset →
            (s.post.fifo.length < 8 →
              Completes (.postWrite v) s fun t =>
                t.post.fifo = s.post.fifo ++ [v] ∧ t.post.inHand = s.post.inHand ∧ t.post.handMode = s.post.handMode
                  ∧ Unchanged [.fifo] s t)
            ∧ (8 ≤ s.post.fifo.length →
              Completes (.postWrite v) s fun t =>
                (∀ i, t.post.cause.getLsbD i = (s.post.cause.getLsbD i || decide (i = 2))) ∧ Unchanged [.cause] s t))

/-- The post port's own refusals, in the order of R168: a kind that is none of the twelve, a kind not allowed in the mode, an argument
illegal for the kind. The word is taken, POST_REFUSED carries reason, kind and argument, and nothing else changes, also while the block
that owns the kind waits for room in the record queue. -/
def Obligations.ThePostPortRefusesWords : Prop :=
  ∀ (s : State) (w : Word) (rest : List Word) (k : Nat), s.offersWord k w rest →
    (s.control.mode = .standby ∨ s.control.mode = .live ∨ s.control.mode = .shutting ∨ s.control.mode = .powerdown →
      (k = 0 ∨ 12 < k) → RefusesWord .postUnknownKind s w rest 1)
    ∧ (∀ c, (k, c) ∈ knownWords →
        (s.control.mode = .shutting ∨ s.control.mode = .powerdown ∨ (c = .captureNow ∧ s.control.mode = .standby) →
          RefusesWord c s w rest 2)
        ∧ (s.control.mode = .standby ∨ s.control.mode = .live →
            ((k = 3 ∧ (postArgument w = 0 ∨ 255 < postArgument w)) ∨ (k = 8 ∧ postArgument w = 0)
              ∨ (k = 9 ∧ postArgument w = 0) ∨ (k = 10 ∧ 255 < postArgument w) ∨ (k = 11 ∧ 63 < postArgument w)) →
            RefusesWord c s w rest 3))

/-- APPLY_SETUP issues the read of the setup record and stays in hand, with the mode in which it was taken; TAKE_LAYOUT sets the posted
mark, or waits for the end of a frame turn that waits for its read. (That TAKE_LAYOUT has left the hand then, before the feeder has
acted on it, is assumption log 44, DESIGN CHOICE.) -/
def Obligations.SetupAndLayoutWordsAreTaken : Prop :=
  ∀ (s : State) (w : Word) (rest : List Word), s.control.mode = .standby ∨ s.control.mode = .live →
    (s.holdsWord 1 w rest →
      Completes .applySetup s fun t =>
        Took rest s t ∧ t.post.inHand = some w ∧ t.post.handMode = s.control.mode
          ∧ t.post.setupRead = .waiting ∧ t.post.controlRead = s.post.controlRead
          ∧ Did [.fifo, .timer, .portReads] [.read .setup 0x200 []] [] s t)
    ∧ (s.holdsWord 2 w rest →
      Completes .takeLayout s fun t =>
        Took rest s t ∧ t.post.inHand = none ∧ t.feeder.layoutRead = s.feeder.layoutRead
          ∧ (s.feeder.layoutRead = .idle → t.feeder.posted = true ∧ t.feeder.deferred = s.feeder.deferred)
          ∧ (s.feeder.layoutRead ≠ .idle →
              t.feeder.posted = s.feeder.posted ∧ t.feeder.deferred = s.feeder.deferred ++ [.takeLayout])
          ∧ Did [.fifo, .timer, .frameTurn] [] [] s t)

/-- When the setup record has been read, the first failing check refuses it with SETUP_REFUSED and the working setup stays; the checks go by
the mode in which the word was taken (the model's choice where the mode has changed since, assumption log 49). A setup that passes
becomes the working setup as a whole, a changed queue size starts the empty ring at 0, and the generation and then SETUP_TAKEN are
written. The moderation judges by the new setup: with the watermark reached and records unsignalled EVENTS_READY is set, a holdoff of 0
stops the timer, another starts it where a record waits unsignalled with none running; then SETUP_TAKEN is moderated as any record. A
record that could not be read is refused with reason MEMORY (with the generation number free where it had not been read: assumption log
27). With the event queue full the record of either is counted as lost. (A holdoff expiry that is due, the model's own field of
assumption log 9, comes first.) -/
def Obligations.ASetupIsTakenOrRefused : Prop :=
  ∀ s : State, (∃ bytes, s.post.setupRead = .got bytes ∨ s.post.setupRead = .error bytes) →
    (s.post.holdoffDue = true → s.free .post = true →
      exec .setupReadDone s = exec .setupReadDone
        { s with post.holdoffDue := false, post.timer := none, post.unsignalled := 0, post.cause := s.post.cause ||| 1#6 })
    ∧ (s.post.holdoffDue = false →
      let old := s.post.setup
      -- the unsignalled count and the timer once a setup has been taken
      let judged (u : Setup) : Nat × Option Nat :=
        if u.watermark ≤ s.post.fill ∧ s.post.unsignalled ≠ 0 then (0, none)
        else
          (s.post.unsignalled,
            if u.holdoff = 0 then none else if s.post.unsignalled ≠ 0 ∧ s.post.timer = none then some 0 else s.post.timer)
      -- the setup in force, the kind, the reason, the generation number, and the operations ahead of the event record
      let answers (u : Setup) (kind reason generation : Nat) (before : List RecordOp) : Prop :=
        let put := if u.queueSize = old.queueSize then s.post.put else 0
        Completes .setupReadDone s fun t =>
          t.post.setupRead = .idle ∧ t.post.controlRead = s.post.controlRead ∧ t.post.inHand = none ∧ t.post.fifo = s.post.fifo
            ∧ t.post.setup = u ∧ t.post.setupGeneration = (if kind = 2 then generation else s.post.setupGeneration)
            ∧ t.post.get = (if u.queueSize = old.queueSize then s.post.get else 0)
            ∧ (s.post.fill < u.queueSize →
                t.post.fill = s.post.fill + 1 ∧ t.post.sequence = (s.post.sequence + 1) % 65536 ∧ t.post.lost = s.post.lost
                  ∧ t.post.put = (if put + 1 < u.queueSize then put + 1 else 0)
                  ∧ (kind = 3 → s.roomFor 2 → Moderated s t)
                  ∧ (kind = 2 → s.roomFor (before.length + 2) →
                      if u.watermark ≤ s.post.fill + 1 then
                        (∀ i, t.post.cause.getLsbD i = (s.post.cause.getLsbD i || decide (i = 0)))
                          ∧ t.post.unsignalled = 0 ∧ t.post.timer = none
                      else
                        t.post.cause = s.post.cause ∧ t.post.unsignalled = (judged u).1 + 1
                          ∧ t.post.timer = if (judged u).1 = 0 ∧ u.holdoff ≠ 0 then some 0 else (judged u).2)
                  ∧ Did [.portReads, .fifo, .events, .moderation, .cause, .setup]
                      (before ++ [writeOf (0x2000 + 16 * put) (eventBytes kind reason s.post.sequence s.intake.frameNumber generation 0),
                        fieldWrite 0x04 2 t.post.put]) [] s t)
            ∧ (u.queueSize ≤ s.post.fill →
                t.post.fill = s.post.fill ∧ t.post.sequence = s.post.sequence ∧ t.post.lost = min 65535 (s.post.lost + 1)
                  ∧ t.post.put = put
                  ∧ (s.roomFor (before.length + 1) → t.post.cause.getLsbD 1 = true
                      ∧ (kind = 3 → ∀ i, t.post.cause.getLsbD i = (s.post.cause.getLsbD i || decide (i = 1)))
                      ∧ (kind = 2 → t.post.unsignalled = (judged u).1 ∧ t.post.timer = (judged u).2
                          ∧ ∀ i, t.post.cause.getLsbD i = (s.post.cause.getLsbD i || decide (i = 1)
                              || decide (i = 0 ∧ u.watermark ≤ s.post.fill ∧ s.post.unsignalled ≠ 0))))
                  ∧ Did [.portReads, .fifo, .events, .lost, .moderation, .cause, .setup]
                      (before ++ fieldChange (s.post.lost = t.post.lost) 0x08 2 t.post.lost) [] s t)
      (∀ bytes, s.post.setupRead = .got bytes →
        let u := parseSetup bytes
        let generation := ofLe (bytes.take 4)
        let reason :=
          if ¬ (u.width % 16 = 0 ∧ 640 ≤ u.width ∧ u.width ≤ 4096 ∧ u.height % 16 = 0 ∧ 480 ≤ u.height ∧ u.height ≤ 3072) then 1
          else if u.motionTiles ≤ u.quietTiles then 2
          else if u.window < u.motionMin + u.settleFrames then 3
          else if u.watermark = 0 then 4
          else if s.post.handMode ≠ .standby ∧ (u.width ≠ old.width ∨ u.height ≠ old.height ∨ u.outputMode ≠ old.outputMode
              ∨ u.queueSize ≠ old.queueSize) then 5
          else if u.queueSize ≠ old.queueSize ∧ s.post.fill ≠ 0 then 6
          else 0
        (reason ≠ 0 → answers old 3 reason generation [])
        ∧ (reason = 0 →
            answers u 2 0 generation
              ((if u.queueSize = old.queueSize then []
                else fieldChange (s.post.put = 0) 0x04 2 0 ++ fieldChange (s.post.get = 0) 0x06 2 0)
                ++ [fieldWrite 0x10 4 generation])))
      ∧ ∀ before, s.post.setupRead = .error before →
          answers old 3 7
            (if 4 ≤ before.length then ofLe (before.take 4) else (Config.unreadGeneration s.port.uncorrectable).toNat) [])

/-- The corrections of R170: whatever bytes stand in the setup record, every corrected field lies in its range, and a field that is in its
range is taken as it stands. -/
def Obligations.SetupFieldsAreCorrected : Prop :=
  ∀ r : List Byte,
    let u := parseSetup r
    let v (off : Nat) : Nat := ofLe ((r.drop off).take 1)
    let v2 (off : Nat) : Nat := ofLe ((r.drop off).take 2)
    u.width = v2 4 ∧ u.height = v2 6 ∧ u.hostWait = v2 0x12
    ∧ (u.outputMode ≤ 2 ∧ (v 8 ≤ 2 → u.outputMode = v 8) ∧ (2 < v 8 → u.outputMode = 2))
    ∧ (1 ≤ u.threshold ∧ u.threshold ≤ 255 ∧ (1 ≤ v 9 → v 9 ≤ 255 → u.threshold = v 9) ∧ (v 9 = 0 → u.threshold = 1))
    ∧ (1 ≤ u.motionTiles ∧ u.motionTiles ≤ 192 ∧ (1 ≤ v 10 → v 10 ≤ 192 → u.motionTiles = v 10) ∧ (192 < v 10 → u.motionTiles = 192))
    ∧ (u.quietTiles ≤ 191 ∧ (v 11 ≤ 191 → u.quietTiles = v 11) ∧ (191 < v 11 → u.quietTiles = 191))
    ∧ (1 ≤ u.motionMin ∧ u.motionMin ≤ 63 ∧ (1 ≤ v 12 → v 12 ≤ 63 → u.motionMin = v 12) ∧ (63 < v 12 → u.motionMin = 63))
    ∧ (1 ≤ u.settleFrames ∧ u.settleFrames ≤ 63 ∧ (1 ≤ v 13 → v 13 ≤ 63 → u.settleFrames = v 13) ∧ (63 < v 13 → u.settleFrames = 63))
    ∧ (u.tolerance ≤ 192 ∧ (v 14 ≤ 192 → u.tolerance = v 14) ∧ (192 < v 14 → u.tolerance = 192))
    ∧ (1 ≤ u.slotWait ∧ u.slotWait ≤ 255 ∧ (1 ≤ v 15 → v 15 ≤ 255 → u.slotWait = v 15) ∧ (v 15 = 0 → u.slotWait = 1))
    ∧ (2 ≤ u.window ∧ u.window ≤ 1023 ∧ (2 ≤ v2 16 → v2 16 ≤ 1023 → u.window = v2 16) ∧ (1023 < v2 16 → u.window = 1023))
    ∧ (u.autoWake = true ↔ v 20 ≠ 0) ∧ (u.autoCapture = true ↔ v 21 ≠ 0) ∧ (u.captureAuto = true ↔ v 23 = 1)
    ∧ (u.captureProfile ≤ 3 ∧ (v 22 ≤ 3 → u.captureProfile = v 22) ∧ (3 < v 22 → u.captureProfile = 3))
    ∧ (u.captureW = 0 ∨ 16 ≤ u.captureW) ∧ u.captureW ≤ 4096 ∧ u.captureW % 2 = 0
    ∧ (16 ≤ v2 24 → v2 24 ≤ 4096 → u.captureW = v2 24 - v2 24 % 2) ∧ (v2 24 ≤ 1 → u.captureW = 0)
    ∧ (2 ≤ v2 24 → v2 24 ≤ 15 → u.captureW = 16)
    ∧ (u.captureH = 0 ∨ 8 ≤ u.captureH) ∧ u.captureH ≤ 3072 ∧ (8 ≤ v2 26 → v2 26 ≤ 3072 → u.captureH = v2 26)
    ∧ (v2 26 = 0 → u.captureH = 0) ∧ (1 ≤ v2 26 → v2 26 ≤ 7 → u.captureH = 8)
    ∧ (8 ≤ u.queueSize ∧ u.queueSize ≤ 256 ∧ (8 ≤ v2 28 → v2 28 ≤ 256 → u.queueSize = v2 28) ∧ (v2 28 < 8 → u.queueSize = 8))
    ∧ (u.watermark ≤ u.queueSize ∧ (v2 30 ≤ u.queueSize → u.watermark = v2 30) ∧ (u.queueSize < v2 30 → u.watermark = u.queueSize))
    ∧ (u.holdoff ≤ 63 ∧ (v 32 ≤ 63 → u.holdoff = v 32) ∧ (63 < v 32 → u.holdoff = 63))
    ∧ u.profiles.length = 4
    ∧ (∀ p, p < 4 → (u.profile p).1 ≤ 127 ∧ (u.profile p).2 ≤ 31
        ∧ (v (0x24 + 2 * p) ≤ 127 → (u.profile p).1 = v (0x24 + 2 * p)) ∧ (v (0x25 + 2 * p) ≤ 31 → (u.profile p).2 = v (0x25 + 2 * p)))

/-- An event waiting is taken by the post port: the oldest, or one behind it that was raised together with all before it, which other blocks
raised (which those are is assumption log 5, DEDUCED). With room in the queue it is written at put, with the input frame number current
as it arose (assumption log 6), the put index follows as a separate write, and fill level, sequence number and moderation move; with the
queue full it is counted as lost. At POWER_SAFE mode control waits for the operations issued up to it, with the queue full for the write
of the lost count too (assumption log 46, DESIGN CHOICE). (A holdoff expiry that is due, the model's own field of assumption log 9,
comes first.) -/
def Obligations.AnEventIsWrittenOrLost : Prop :=
  ∀ (s : State) (n : Nat) (e : RaisedEvent), s.post.raised[n]? = some e →
    (∀ i x, s.post.raised[i]? = some x → (0 < i → i ≤ n → x.linked = true) ∧ (i < n → x.owner ≠ e.owner)) → s.free .post = true →
    (s.post.holdoffDue = true →
      exec (.eventArrival n) s = exec (.eventArrival n)
        { s with post.holdoffDue := false, post.timer := none, post.unsignalled := 0, post.cause := s.post.cause ||| 1#6 })
    ∧ (s.post.holdoffDue = false →
      Completes (.eventArrival n) s fun t =>
        t.post.raised = s.post.raised.eraseIdx n ∧ t.post.get = s.post.get
          ∧ (s.post.fill < s.post.setup.queueSize →
              t.post.fill = s.post.fill + 1 ∧ t.post.sequence = (s.post.sequence + 1) % 65536 ∧ t.post.lost = s.post.lost
                ∧ t.post.put = (if s.post.put + 1 < s.post.setup.queueSize then s.post.put + 1 else 0)
                ∧ (s.roomFor 2 →
                    t.ops = s.ops ++ [s.eventOp e.kind.value e.small e.a e.b e.frame, fieldWrite 0x04 2 t.post.put] ∧ Moderated s t)
                ∧ Unchanged ([.events, .moderation, .cause, .safety, .records] ++ closing) s t)
          ∧ (s.post.setup.queueSize ≤ s.post.fill →
              t.post.lost = min 65535 (s.post.lost + 1) ∧ t.post.put = s.post.put ∧ t.post.fill = s.post.fill
                ∧ t.post.sequence = s.post.sequence
                ∧ (s.roomFor 1 →
                    t.ops = s.ops ++ fieldChange (s.post.lost = t.post.lost) 0x08 2 t.post.lost
                      ∧ ∀ i, t.post.cause.getLsbD i = (s.post.cause.getLsbD i || decide (i = 1)))
                ∧ Unchanged ([.lost, .cause, .safety, .records] ++ closing) s t)
          ∧ (e.kind ≠ .powerSafe → t.control.safeAfter = s.control.safeAfter)
          ∧ (e.kind = .powerSafe → s.roomFor 2 → t.control.safeAfter = some t.ops.length)
          ∧ t.control.safe = s.control.safe ∧ t.control.shuttingFrames = s.control.shuttingFrames)

/-- EVENT_ACK of an unacknowledged position gives back every position up to it; of any other position it is refused with BAD_INDEX. The
unacknowledged positions are the fill level positions from get onward around the ring. The get index is written at every
acknowledgement. The expiry of the holdoff sets EVENTS_READY, clears the unsignalled count and stops the timer. (The expiry as a command
of its own, due from the frame turn at which R176 sets EVENTS_READY until it is taken, is the model's choice, assumption log 9; an
acknowledgement with none due is stated.) -/
def Obligations.AcknowledgementsAndHoldoffExpiries : Prop :=
  (∀ (s : State) (w : Word) (rest : List Word), s.control.mode = .standby ∨ s.control.mode = .live → s.holdsWord 10 w rest →
    postArgument w ≤ 255 → s.queueOk → s.post.holdoffDue = false →
    (∀ i, i < s.post.fill → postArgument w = (s.post.get + i) % s.post.setup.queueSize →
      Completes .eventAck s fun t =>
        Took rest s t ∧ t.post.inHand = none
          ∧ t.post.fill = s.post.fill - (i + 1)
          ∧ t.post.get = (if postArgument w + 1 < s.post.setup.queueSize then postArgument w + 1 else 0)
          ∧ t.post.put = s.post.put ∧ t.post.sequence = s.post.sequence
          ∧ t.post.unsignalled = min s.post.unsignalled t.post.fill
          ∧ t.post.timer = (if t.post.unsignalled = 0 then none else s.post.timer)
          ∧ Did [.fifo, .timer, .events, .moderation] [fieldWrite 0x06 2 t.post.get] [] s t)
    ∧ ((∀ i, i < s.post.fill → postArgument w ≠ (s.post.get + i) % s.post.setup.queueSize) → RefusesWord .eventAck s w rest 4))
  ∧ ∀ s : State, s.post.holdoffDue = true → s.free .post = true →
    Completes .holdoffExpiry s fun t =>
      (∀ i, t.post.cause.getLsbD i = (s.post.cause.getLsbD i || decide (i = 0)))
        ∧ t.post.unsignalled = 0 ∧ t.post.timer = none ∧ t.post.holdoffDue = false ∧ Unchanged [.cause, .moderation] s t

/-! ## The memory port -/

/-- A host access that arrives at a free bridge is held until the end of BOOT; past BOOT, one above shared memory ends with an error
response and a write into a protected range ends as a plain write, each with ACCESS set and nothing written, and any other waits for its
transfer. The two low address bits are disregarded. (That those accesses end at once, without a grant, is assumption log 17, DEDUCED.) -/
def Obligations.HostAccessesReachTheBridge : Prop :=
  ∀ (s : State) (addr data : Word) (en : BitVec 4), s.port.bridge = none →
    let a := addr.toNat - addr.toNat % 4
    let guarded := a < 0x200 ∨ (0x800 ≤ a ∧ a < 0xC00 ∧ 48 ≤ a % 64) ∨ (0x1000 ≤ a ∧ a < 0x3000) ∨ (0x1000000 ≤ a ∧ a < 0x8800000)
    let held (h : HostAccess) (t : State) :=
      t.port.bridge = some h ∧ t.port.response = .none ∧ DidOnly [.host] [] [] s t
    let ended (r : HostResponse) (t : State) :=
      t.port.bridge = none ∧ t.port.response = r
        ∧ (∀ i, t.post.cause.getLsbD i = (s.post.cause.getLsbD i || decide (i = 3)))
        ∧ DidOnly [.host, .cause] [] [] s t
    (s.control.mode = .reset ∨ s.control.mode = .boot →
      Completes (.hostMemoryRead addr) s (held (.read a)) ∧ Completes (.hostMemoryWrite addr data en) s (held (.write a data en)))
    ∧ (s.control.mode ≠ .reset → s.control.mode ≠ .boot →
        (0x10000000 ≤ a → Completes (.hostMemoryRead addr) s (ended .error) ∧ Completes (.hostMemoryWrite addr data en) s (ended .error))
        ∧ (a < 0x10000000 → Completes (.hostMemoryRead addr) s (held (.read a)))
        ∧ (a < 0x10000000 → guarded → Completes (.hostMemoryWrite addr data en) s (ended .done))
        ∧ (a < 0x10000000 → ¬ guarded → Completes (.hostMemoryWrite addr data en) s (held (.write a data en))))

/-- The host bridge's one transfer. A read of a word without error answers the word as it stands; one of an uncorrectable word answers an
error response, counts, sets MEMORY_FAULT and raises its event. A write changes the enabled bytes and no other. (That the byte at
address a + n is bits 8n + 7 to 8n of the data, the least significant byte at the lowest address, and is written under enable n, is the
model's own reading: R152 does not say it, assumption log 40, DEDUCED and unsafe.) -/
def Obligations.HostTransfersAreMade : Prop :=
  ∀ (s : State) (g : Grant) (b : EngineBurst), s.port.grant = some g → g.who = .host →
    (∀ a, s.port.bridge = some (.read a) → a % 4 = 0 →
      (s.cleanWords a 4 →
        Completes (.memoryBurstComplete [] b) s fun t =>
          t.port.bridge = none
            ∧ (∃ w : Word, t.port.response = .data w ∧ ∀ n, n < 4 → w.extractLsb' (8 * n) 8 = s.mem.read (a + n))
            ∧ Did [.host] [] [] s t)
      ∧ (a / 4 ∈ s.port.bad →
        Completes (.memoryBurstComplete [] b) s fun t =>
          t.port.bridge = none ∧ t.port.response = .error
            ∧ t.port.uncorrectable = min 4294967295 (s.port.uncorrectable + 1) ∧ t.port.correctable = s.port.correctable
            ∧ t.port.bad = s.port.bad ∧ t.port.weak = s.port.weak
            ∧ (∀ i, t.post.cause.getLsbD i = (s.post.cause.getLsbD i || decide (i = 5)))
            ∧ Did [.host, .errors, .cause] [] [(.memory, .memoryFault, 3, a, t.port.uncorrectable)] s t))
    ∧ ∀ a d en, s.port.bridge = some (.write a d en) → a % 4 = 0 → a + 4 ≤ 0x10000000 → s.memoryOk → s.cleanWords a 4 →
      Completes (.memoryBurstComplete [] b) s fun t =>
        t.port.bridge = none ∧ t.port.response = .done
          ∧ (∀ n, n < 4 → t.mem.read (a + n) = if en.getLsbD n then d.extractLsb' (8 * n) 8 else s.mem.read (a + n))
          ∧ (∀ x, (x < a ∨ a + 4 ≤ x) → t.mem.read x = s.mem.read x)
          ∧ t.port.bad = s.port.bad ∧ t.port.weak = s.port.weak ∧ t.port.correctable = s.port.correctable
          ∧ t.port.uncorrectable = s.port.uncorrectable
          ∧ Did [.host, .memory, .errors] [] [] s t

/-- The record queue is performed in order, burst by burst: the run at the head of a write goes to memory and the rest of the operation
stays at the head. A read brings its bytes burst by burst, each up to the next 64-byte boundary: the four control words at once, a
descriptor of 32 bytes and a setup record of 512 as far as the burst goes, and a layout record to the panes of its pane count, which its
first 16 bytes give; its block has the result with the last burst. At an uncorrectable word it is abandoned with what came before, and
reported. An operation issued with the DRAM idle and nobody waiting is a request that is granted at once (R158). (How many bytes of each
record are read is assumption log 20, DEDUCED; into how many bursts, the 16 bytes of the layout record ahead of its panes by themselves,
assumption log 43, DESIGN CHOICE.) -/
def Obligations.RecordsArePerformedInOrder : Prop :=
  (∀ (s : State) (g : Grant) (b : EngineBurst) (a : Nat) (bytes : List Byte) (runs : List (Nat × List Byte)) (later : List RecordOp),
    s.port.grant = some g → g.who = .record → s.port.queue = .write ((a, bytes) :: runs) :: later → bytes ≠ [] →
    a + bytes.length ≤ 0x10000000 → s.memoryOk → s.cleanWords a bytes.length →
      Completes (.memoryBurstComplete [] b) s fun t =>
        Written s t a bytes ∧ t.port.bad = s.port.bad ∧ t.port.weak = s.port.weak
          ∧ t.port.correctable = s.port.correctable ∧ t.port.uncorrectable = s.port.uncorrectable
          ∧ (∃ more, AtMostAScan more
              ∧ t.ops = (if runs = [] then later else .write runs :: later) ++ s.port.blocked.map Wait.op ++ more)
          ∧ t.control.safe = s.control.safe ∧ t.control.shuttingFrames = s.control.shuttingFrames
          ∧ t.control.safeAfter = (if runs = [] then s.control.safeAfter.map (· - 1) else s.control.safeAfter)
          ∧ t.news = s.news ∧ Unchanged (.memory :: .errors :: .safety :: takingWork) s t)
  ∧ (∀ (s : State) (g : Grant) (b : EngineBurst) (a : Nat) (later : List RecordOp),
    s.port.grant = some g → g.who = .record → s.port.queue = .read .control a [] :: later → a % 4 = 0 → s.cleanWords a 4 →
      Completes (.memoryBurstComplete [] b) s fun t =>
        t.post.controlRead = .got [s.mem.read a, s.mem.read (a + 1), s.mem.read (a + 2), s.mem.read (a + 3)]
          ∧ t.post.setupRead = s.post.setupRead
          ∧ (∃ more, AtMostAScan more ∧ t.ops = later ++ s.port.blocked.map Wait.op ++ more)
          ∧ t.control.safeAfter = s.control.safeAfter.map (· - 1)
          ∧ t.control.safe = s.control.safe ∧ t.control.shuttingFrames = s.control.shuttingFrames
          ∧ t.news = s.news ∧ Unchanged (.portReads :: .safety :: takingWork) s t)
  ∧ (∀ (s : State) (g : Grant) (b : EngineBurst) (reader : Reader) (addr : Nat) (got : List Byte) (later : List RecordOp),
    s.port.grant = some g → g.who = .record → s.port.queue = .read reader addr got :: later →
    reader = .setup ∨ reader = .layout ∨ reader = .descriptor →
    -- the bytes of the record, as far as the ones that have come tell
    let size (x : List Byte) : Nat :=
      if reader = .setup then 512
      else if reader = .descriptor then 32
      else if x.length < 16 then 16 else 16 + 32 * min 4 (ofLe ((x.drop 7).take 1))
    let a := addr + got.length
    let n := min (64 - a % 64) (size got - got.length)
    let all := got ++ (List.range n).map fun i => s.mem.read (a + i)
    let result (r : ReadState) (t : State) : Prop :=
      t.post.setupRead = (if reader = .setup then r else s.post.setupRead)
        ∧ t.feeder.layoutRead = (if reader = .layout then r else s.feeder.layoutRead)
        ∧ t.capture.read = (if reader = .descriptor then r else s.capture.read)
    let queue (rest : List RecordOp) (t : State) : Prop :=
      ∃ more, AtMostAScan more ∧ t.ops = rest ++ s.port.blocked.map Wait.op ++ more
    let kept (t : State) : Prop :=
      t.control.safe = s.control.safe ∧ t.control.shuttingFrames = s.control.shuttingFrames
        ∧ t.post.controlRead = s.post.controlRead ∧ t.feeder.posted = s.feeder.posted ∧ t.feeder.deferred = s.feeder.deferred
    got.length < size got →
    (s.cleanWords a n →
      Completes (.memoryBurstComplete [] b) s fun t =>
        kept t ∧ t.news = s.news ∧ Unchanged (.portReads :: .frameTurn :: .descriptorRead :: .safety :: takingWork) s t
          ∧ (all.length < size all → queue (.read reader addr all :: later) t
              ∧ t.post.setupRead = s.post.setupRead ∧ t.feeder.layoutRead = s.feeder.layoutRead ∧ t.capture.read = s.capture.read
              ∧ t.control.safeAfter = s.control.safeAfter)
          ∧ (size all ≤ all.length →
              queue later t ∧ result (.got all) t ∧ t.control.safeAfter = s.control.safeAfter.map (· - 1)))
    ∧ ∀ w, w ∈ s.port.bad → a / 4 ≤ w → 4 * w < a + n → (∀ x, a / 4 ≤ x → x < w → x ∉ s.port.bad ∧ x ∉ s.port.weak) →
      Completes (.memoryBurstComplete [] b) s fun t =>
        kept t ∧ queue later t ∧ result (.error (got ++ (List.range (4 * w - a)).map fun i => s.mem.read (a + i))) t
          ∧ FaultReported s t 0 ∧ t.control.safeAfter = s.control.safeAfter.map (· - 1)
          ∧ (s.noneWait → t.news = s.news ++ [(.memory, .memoryFault, 2, 4 * w, t.port.uncorrectable)])
          ∧ Unchanged (.portReads :: .frameTurn :: .descriptorRead :: .errors :: .cause :: .safety :: takingWork) s t)
  ∧ ∀ (s : State) (actor issuer : Block) (op : RecordOp), s.control.mode ≠ .reset → s.port.boot ≠ .clearing → s.port.grant = none →
      (∀ q, s.waits q = false) → s.noneWait →
      (s.issue actor issuer op).port.queue = [op] ∧ (s.issue actor issuer op).port.grant = some ⟨.record, 0, 8⟩

/-- A block that issues a record operation with no room in the queue waits, the operation behind those already waiting, and what it sends on
after it waits too, in its order: here the put index behind an event record, the cause of the moderation and the word of POWER_SAFE. An
operation that a block has another one issue, where it waits itself, waits with it, and the issuer waits until it has gone: so the page
monitor's write of an index entry for a waiting job runner, with INDEX_EVICT behind it, keeps its place before every later write of the
index (R34, R36). While a block waits it takes no event. A post word for it that passes the port's checks is taken, with mode control
told, and stays in hand, so that no later word is taken, until the block waits no longer and acts on it, in whatever mode, with no check
made again: ahead of an entry to a mode. RECORD_QUEUE_ADMIT admits the block that has waited longest when there is room, and what waited
behind it goes on, but for what a block still waiting has sent. (Which blocks wait, that the registers of the waiting block change with
its step, while what it sends on does not leave it, that the command of the word's kind is also the act of its owner, and that an entry
announced before the word was taken comes after it too, is the model's choice, assumption log 22.) (That a write of a record's state
carries only the fields that change is assumption log 35, DESIGN CHOICE.) -/
def Obligations.BlocksWaitForRoom : Prop :=
  (∀ (s : State) (u : EngineUnit) (w : Word) (rest : List Word), s.control.mode = .standby ∨ s.control.mode = .live →
    s.holdsWord 11 w rest → postArgument w ≤ 63 → (s.monitor.entry (postArgument w)).state = .valid → s.engine.unit = some u →
    (32 ≤ s.port.queue.length ∨ s.port.blocked ≠ []) →
    let n := postArgument w
    Completes .pageForget s fun t =>
        Took rest s t ∧ t.post.inHand = none
          ∧ t.monitor.index = s.monitor.index.set n { s.monitor.entry n with state := .empty }
          ∧ t.port.queue = s.port.queue ∧ t.port.blocked = s.port.blocked ++ [⟨[.monitor], writeOf (0x1000 + 64 * n) [0#8]⟩]
          ∧ t.port.later = s.port.later
          ∧ t.news = s.news ∧ Unchanged (.fifo :: .timer :: .index :: .records :: closing) s t)
  ∧ (∀ (s : State) (e : RaisedEvent) (later : List RaisedEvent), s.post.raised = e :: later → s.free .post = true →
    s.post.holdoffDue = false → s.post.fill < s.post.setup.queueSize → (32 ≤ s.port.queue.length ∨ s.port.blocked ≠ []) →
    let put := if s.post.put + 1 < s.post.setup.queueSize then s.post.put + 1 else 0
    let ready := s.post.setup.watermark ≤ s.post.fill + 1
    Completes (.eventArrival 0) s fun t =>
        t.post.raised = later ∧ t.post.put = put ∧ t.post.get = s.post.get ∧ t.post.fill = s.post.fill + 1
          ∧ t.post.sequence = (s.post.sequence + 1) % 65536
          ∧ t.post.unsignalled = (if ready then 0 else s.post.unsignalled + 1)
          ∧ t.port.queue = s.port.queue
          ∧ t.port.blocked = s.port.blocked ++ [⟨[.post], s.eventOp e.kind.value e.small e.a e.b e.frame⟩]
          ∧ t.port.later = s.port.later ++ [⟨.post, .op .post (fieldWrite 0x04 2 put)⟩]
              ++ (if ready then [⟨.post, .cause .eventsReady⟩] else [])
              ++ (if e.kind = .powerSafe then [⟨.post, .safe⟩] else [])
          ∧ Unchanged (.events :: .moderation :: .records :: closing) s t)
  ∧ (∀ (s : State) (actor issuer : Block) (op : RecordOp), s.free actor = false →
    s.issue actor issuer op = { s with port.later := s.port.later ++ [⟨actor, .op issuer op⟩] }
      ∧ (issuer ≠ .post → (s.issue actor issuer op).free issuer = false)
      ∧ ∀ (e : IndexEntry) (n : Nat), (∀ x ∈ s.monitor.index, x.state ≠ .empty) →
          evictionChoice s.intake.frameNumber s.monitor.index = some n →
          s.insertEntry actor e = some
            ({ s with
                monitor.index := s.monitor.index.set n e
                port.later := s.port.later ++
                  [⟨actor, .op .monitor (writeRuns [(0x1000 + 64 * n + 1, e.fieldBytes), (0x1000 + 64 * n, leBytes 1 e.state.value)])⟩,
                    ⟨.monitor, .event .indexEvict n (s.monitor.entry n).page
                      (((s.intake.frameNumber : Int) - (s.monitor.entry n).lastSeen) % 4294967296).toNat⟩] }, n))
  ∧ (∀ (s : State) (op : RecordOp), s.free .monitor = false →
      s.issue .monitor .monitor op = { s with port.later := s.port.later ++ [⟨.monitor, .op .monitor op⟩] })
  ∧ (∀ s : State,
    (s.free .monitor = false → exec .tileMeansArrival s = .next s ∧ exec .patternTimeout s = .next s)
    ∧ (s.free .capture = false → exec .captureDecision s = .next s ∧ exec .slotWaitExpiry s = .next s)
    ∧ (s.free .post = false → (∀ n, exec (.eventArrival n) s = .next s) ∧ exec .holdoffExpiry s = .next s)
    ∧ (s.free .post = false ∨ s.post.inHand ≠ none → (∀ w, ¬ s.keepsWord w) →
        (∀ k c, (k, c) ∈ knownWords → exec c s = .next s) ∧ exec .postUnknownKind s = .next s)
    ∧ (∀ b, b ≠ .feeder → s.free b = false → exec (.modeEntry b) s = .next s)
    ∧ (s.port.blocked = [] ∨ 32 ≤ s.port.queue.length → exec .recordQueueAdmit s = .next s))
  ∧ (∀ (s : State) (k : Nat) (c : Instr) (w : Word), (k, c) ∈ knownWords →
    let owners : List Block :=
      if k = 5 then [.monitor, .capture] else if k = 3 ∨ k = 4 ∨ k = 6 ∨ k = 7 then [.capture] else if k = 8 ∨ k = 9 then [.jobs]
      else if k = 11 then [.monitor] else if k = 12 then [.intake] else []
    -- a word that passes is taken, and stays in hand while its owner waits
    (∀ rest, s.offersWord k w rest → wordPasses k s.control.mode (postArgument w) → (∃ b ∈ owners, s.free b = false) →
      Completes c s fun t =>
        Took rest s t ∧ t.post.inHand = some w ∧ t.post.handMode = s.control.mode ∧ t.news = s.news ∧ Did [.fifo, .timer] [] [] s t)
    ∧ (s.keepsWord w → postKind w = k →
        (∀ k' c', (k', c') ∈ knownWords → k' ≠ k → exec c' s = .next s) ∧ exec .postUnknownKind s = .next s
        ∧ (∀ b ∈ owners, exec (.modeEntry b) s = .next s)
        ∧ ((∃ b ∈ owners, s.free b = false) → exec c s = .next s)
        -- the owner waits no longer: it acts on the word in hand, as it does on one from the head of the FIFO
        ∧ ((∀ b ∈ owners, s.free b = true) →
            (Completes c s fun t =>
              t.post.fifo = s.post.fifo
                ∧ t.post.inHand = (if k = 1 ∨ (k = 4 ∧ s.capture.context.state ≠ .rendering) then some w else none)
                ∧ same s t .mode ∧ same s t .timer)
            ∧ (s.free .post = true → s.control.timerOn = false → wordPasses k s.control.mode (postArgument w) →
                exec c s = exec c { s with post.fifo := w :: s.post.fifo, post.inHand := none })
            ∧ (k = 3 → s.capture.running = true → s.capture.slotWaiting = false →
                let credit := min 255 (s.capture.credit + postArgument w)
                Completes .captureCredit s fun t =>
                  t.capture.credit = credit ∧ t.capture.running = true ∧ t.capture.head = s.capture.head
                    ∧ Did [.fifo, .chain] (fieldChange (s.capture.credit = credit) 0x0C 1 credit) [] s t))))
  ∧ ∀ (s : State) (u : EngineUnit) (w : Wait) (rest : List Wait), s.port.blocked = w :: rest → s.port.queue.length < 32 →
    s.engine.unit = some u →
    (s.control.mode ≠ .shutting ∨ s.entriesDone = false ∨ s.capture.context.state ≠ .idle ∨ s.jobs.running ≠ none) →
    ((∀ o ∈ s.port.later, ∃ x ∈ rest, o.actor ∈ x.blocks) →
      Completes .recordQueueAdmit s fun t =>
        t.port.queue = s.port.queue ++ [w.op] ∧ t.port.blocked = rest ∧ t.port.later = s.port.later
          ∧ t.news = s.news ∧ Unchanged (.records :: closing) s t)
    ∧ (∀ actor kind small a b, s.port.later = [⟨actor, .event kind small a b⟩] → (∀ x ∈ rest, actor ∉ x.blocks) →
      Completes .recordQueueAdmit s fun t =>
        t.port.queue = s.port.queue ++ [w.op] ∧ t.port.blocked = rest ∧ t.port.later = []
          ∧ t.news = s.news ++ [(actor, kind, small, a, b)] ∧ Stamped s t
          ∧ Unchanged (.records :: closing) s t)
    ∧ (∀ actor c, s.port.later = [⟨actor, .cause c⟩] → (∀ x ∈ rest, actor ∉ x.blocks) →
      Completes .recordQueueAdmit s fun t =>
        t.port.queue = s.port.queue ++ [w.op] ∧ t.port.blocked = rest ∧ t.port.later = [] ∧ t.news = s.news
          ∧ (∀ i, t.post.cause.getLsbD i = (s.post.cause.getLsbD i || decide (i = c.bit)))
          ∧ Unchanged (.cause :: .records :: closing) s t)
    ∧ ∀ actor issuer op, s.port.later = [⟨actor, .op issuer op⟩] → (∀ x ∈ rest, actor ∉ x.blocks ∧ issuer ∉ x.blocks) →
      let blocks := if issuer = .post then [Block.post] else if actor = issuer then [issuer] else [issuer, actor]
      Completes .recordQueueAdmit s fun t =>
        (rest = [] → s.port.queue.length + 2 ≤ 32 → t.port.queue = s.port.queue ++ [w.op, op] ∧ t.port.blocked = [])
          ∧ (rest ≠ [] ∨ s.port.queue.length = 31 →
              t.port.queue = s.port.queue ++ [w.op] ∧ t.port.blocked = rest ++ [⟨blocks, op⟩])
          ∧ t.port.later = [] ∧ t.news = s.news ∧ Unchanged (.records :: closing) s t

/-- The arbiter's choice (R160) among the waiting requesters: the first urgent one in the fixed order, otherwise the first in the ring after
the requester last granted; with the counts of R159 and the limits of R158. -/
def Obligations.GrantsFollowTheArbiter : Prop :=
  let rank : Requester → Nat := fun q => match q with | .intake => 0 | .engine => 1 | .host => 2 | .record => 3
  let place : Requester → Nat := fun q => match q with | .intake => 0 | .engine => 1 | .record => 2 | .host => 3
  ∀ s : State,
    let turn : Requester → Nat := fun q => (place q + 3 - (s.port.last.elim 3 place)) % 4
    (s.urgent .intake = true ↔ 4 ≤ s.port.pass.intake ∨ 4096 ≤ s.intake.buffer.length)
    ∧ (s.urgent .engine = true ↔ 4 ≤ s.port.pass.engine ∨ ∃ u k b, s.engine.unit = some u ∧ u.work = .strip k b)
    ∧ (s.urgent .record = true ↔ 4 ≤ s.port.pass.record) ∧ (s.urgent .host = true ↔ 4 ≤ s.port.pass.host)
    ∧ (s.arbitrate = none ↔ ∀ q, s.waits q = false)
    ∧ (∀ q, s.arbitrate = some q →
        s.waits q = true
          ∧ ((∃ r, s.waits r = true ∧ s.urgent r = true) →
              s.urgent q = true ∧ ∀ r, s.waits r = true → s.urgent r = true → rank q ≤ rank r)
          ∧ ((¬ ∃ r, s.waits r = true ∧ s.urgent r = true) → ∀ r, s.waits r = true → turn q ≤ turn r))
    ∧ (s.port.grant = none → s.control.mode ≠ .reset → s.port.boot ≠ .clearing → ∀ q, s.arbitrate = some q →
        s.makeGrant.port.grant = some ⟨q, 0, 8⟩ ∧ s.makeGrant.port.last = some q
          ∧ ∀ r, s.makeGrant.port.pass.of r =
              if r = q then 0 else if s.waits r = true then min 4 (s.port.pass.of r + 1) else 0)
    ∧ (∀ g, s.port.grant = some g → g.bursts < g.limit → g.limit = 8 ∨ g.limit = 16 →
        (s.countBurst g.who).port.grant =
          if g.bursts + 1 < g.limit then some { g with bursts := g.bursts + 1 }
          else if g.limit = 8 ∧ [Requester.intake, .engine, .record, .host].all (fun r => decide (r = g.who) || !s.waits r) = true then
            some { g with bursts := 8, limit := 16 }
          else none)

/-- The bursts of the engine and of the intake. A read burst of the unit in progress brings the bytes that stand in memory, and a write
burst puts bytes of its destination in place, each at the address that R63 and R151 give its pixel; the unit waits on while a transfer
is left to it. A burst of the intake carries its bytes to the slot; and a read of a strip that meets an uncorrectable error faults the
strip: the error is reported, the strip is background and counted, the frame is not made late, and the engine goes on with other work.
(The model's own choices: that the burst of the command is the transfer made, where it is one of the unit's, and that a write burst with
a byte whose source bytes are not all read, those of the neighbours among them where the pixel is sharpened, is no transfer of the unit,
is assumption log 14, DESIGN CHOICE; that nothing happens then, as at a command that cannot occur, is assumption log 4, DESIGN CHOICE.
R65 says that a value is computed from the reads and then written.) -/
def Obligations.EngineAndIntakeBurstsAreMade : Prop :=
  (∀ (s : State) (g : Grant) (u : EngineUnit) (b : EngineBurst),
    s.port.grant = some g → g.who = .engine → s.engine.unit = some u → b.write = false → u.moves b = true →
    (s.cleanWords b.addr b.len →
      Completes (.memoryBurstComplete [] b) s fun t =>
        let u' := { u with fetched := ((List.range b.len).map fun i => (b.addr + i, s.mem.read (b.addr + i))) ++ u.fetched }
        t.engine.unit = some { u' with ready := u'.unfinished } ∧ Did [.unit] [] [] s t)
    ∧ (∀ k buffer w, u.work = .strip k buffer → w ∈ s.port.bad → b.addr / 4 ≤ w → 4 * w < b.addr + b.len →
        (∀ x, b.addr / 4 ≤ x → x < w → x ∉ s.port.bad ∧ x ∉ s.port.weak) → s.control.mode ≠ .shutting →
      Completes (.memoryBurstComplete [] b) s fun t =>
        t.feeder.request = none ∧ t.feeder.faults = min 4294967295 (s.feeder.faults + 1) ∧ t.feeder.underruns = s.feeder.underruns
          ∧ t.feeder.late = s.feeder.late
          ∧ (if buffer then t.feeder.bufferB else t.feeder.bufferA) = .solid s.feeder.layout.background
          ∧ t.port.uncorrectable = min 4294967295 (s.port.uncorrectable + 1)
          ∧ (∀ i, t.post.cause.getLsbD i = (s.post.cause.getLsbD i || decide (i = 5)))
          ∧ t.tookNext
          ∧ Did [.strips, .stripCounts, .errors, .cause, .unit] [] [(.memory, .memoryFault, 1, 4 * w, t.port.uncorrectable)] s t))
  ∧ (∀ (s : State) (g : Grant) (u : EngineUnit) (b : EngineBurst),
    s.port.grant = some g → g.who = .engine → s.engine.unit = some u → b.write = true → u.moves b = true → s.memoryOk →
    s.cleanWords b.addr b.len →
    let covered (a : Nat) : Prop := b.addr ≤ a ∧ a < b.addr + b.len
    Completes (.memoryBurstComplete [] b) s fun t =>
        let u' := { u with written := (List.range b.len).map (b.addr + ·) ++ u.written }
        t.engine.unit = some { u' with ready := u'.unfinished } ∧ PixelsWritten covered s t u
          ∧ (∀ c ∈ s.unitCells u, covered c.1 → (∀ c' ∈ s.unitCells u, c'.1 = c.1 → c'.2 = c.2) → t.mem.read c.1 = c.2)
          ∧ (∀ a, ¬ covered a → t.mem.read a = s.mem.read a)
          ∧ t.port.bad = s.port.bad ∧ t.port.weak = s.port.weak
          ∧ t.port.correctable = s.port.correctable ∧ t.port.uncorrectable = s.port.uncorrectable
          ∧ Did [.memory, .errors, .unit] [] [] s t)
  ∧ (∀ (s : State) (g : Grant) (u : EngineUnit) (b : EngineBurst) (p : Part) (i j i' j' x : Nat),
    s.port.grant = some g → g.who = .engine → s.engine.unit = some u → b.write = true → p ∈ u.parts →
    let r := p.render
    p.col ≤ i → i < p.col + p.cols → p.row ≤ j → j < p.row + p.rows → i < r.wp → j < r.hp → i' < r.wp → j' < r.hp →
    (∀ c ∈ u.fetched, c.1 ≠ x) →
    let luma := r.destination + j * r.wp + i
    let chroma := r.destination + r.wp * r.hp + j * r.wp + i
    (b.addr ≤ luma → luma < b.addr + b.len → r.inside i j = true → x ∈ r.lumaReads i' j' →
      (i' = i ∧ j' = j) ∨ (r.gain ≠ 0 ∧ i ≤ i' + 1 ∧ i' ≤ i + 1 ∧ j ≤ j' + 1 ∧ j' ≤ j + 1) →
      exec (.memoryBurstComplete [] b) s = .next s)
    ∧ (b.addr ≤ chroma → chroma < b.addr + b.len → x ∈ r.chromaReads (i - i % 2) j → exec (.memoryBurstComplete [] b) s = .next s))
  ∧ ∀ (s : State) (g : Grant) (b : EngineBurst) (a : Nat) (bs : List BufferByte),
    s.port.grant = some g → g.who = .intake → s.intake.nextBurst = some (a, bs) → a + bs.length ≤ 0x10000000 →
    s.memoryOk → s.cleanWords a bs.length →
      Completes (.memoryBurstComplete [] b) s fun t =>
        Written s t a (bs.map fun x => x.value) ∧ t.intake.buffer = s.intake.buffer.filter (fun x => decide (x ∉ bs))
          ∧ t.intake.pendingFrame = s.intake.pendingFrame ∧ t.port.bad = s.port.bad ∧ t.port.weak = s.port.weak
          ∧ t.port.correctable = s.port.correctable ∧ t.port.uncorrectable = s.port.uncorrectable
          ∧ Did [.memory, .errors, .buffer] [] [] s t

/-- Words with errors. A write that covers part of a word is merged with what stands there: a correctable error is counted and cured, an
uncorrectable one is reported with the writer named, the word stays marked, and the write goes on; a write that covers the whole word
cures either. A read counts each word with a correctable error and delivers it; at the first uncorrectable one it is abandoned and
reported. A strip that underruns while the engine reads for it is an underrun and no strip fault; its read still stands at the DRAM, and
the memory port reports an uncorrectable word that it meets. (That this read ends as an upset of the next burst that completes, or is
not made, and the field that keeps the strip until then, are the model's own, assumption log 14. That the byte at address a + n of a
host access is bits 8n + 7 to 8n of its data, written under enable n, is the model's own reading: R152 does not say it, assumption log
40, DEDUCED and unsafe.) -/
def Obligations.MemoryErrorsAreCountedAndReported : Prop :=
  (∀ (s : State) (g : Grant) (b : EngineBurst) (a : Nat) (d : Word) (en : BitVec 4), s.port.grant = some g → g.who = .host →
    s.port.bridge = some (.write a d en) → a % 4 = 0 → a + 4 ≤ 0x10000000 → s.memoryOk → en ≠ 0#4 →
    let written (t : State) : Prop :=
      t.port.bridge = none ∧ t.port.response = .done
        ∧ (∀ n, n < 4 → t.mem.read (a + n) = if en.getLsbD n then d.extractLsb' (8 * n) 8 else s.mem.read (a + n))
        ∧ ∀ x, (x < a ∨ a + 4 ≤ x) → t.mem.read x = s.mem.read x
    (en = 15#4 →
      Completes (.memoryBurstComplete [] b) s fun t =>
        written t ∧ t.port.weak = s.port.weak.erase (a / 4) ∧ t.port.bad = s.port.bad.erase (a / 4)
          ∧ t.port.correctable = s.port.correctable ∧ t.port.uncorrectable = s.port.uncorrectable
          ∧ Did [.host, .memory, .errors] [] [] s t)
    ∧ (en ≠ 15#4 → a / 4 ∈ s.port.bad →
      Completes (.memoryBurstComplete [] b) s fun t =>
        written t ∧ FaultReported s t 0
          ∧ Did [.host, .memory, .errors, .cause] [] [(.memory, .memoryFault, 3, a, t.port.uncorrectable)] s t)
    ∧ (en ≠ 15#4 → a / 4 ∉ s.port.bad → a / 4 ∈ s.port.weak →
      Completes (.memoryBurstComplete [] b) s fun t =>
        written t ∧ t.port.weak = s.port.weak.erase (a / 4) ∧ t.port.bad = s.port.bad
          ∧ t.port.correctable = min 4294967295 (s.port.correctable + 1) ∧ t.port.uncorrectable = s.port.uncorrectable
          ∧ Did [.host, .memory, .errors] [] [] s t))
  ∧ (∀ (s : State) (g : Grant) (b : EngineBurst) (a : Nat) (x : Byte) (later : List RecordOp), s.port.grant = some g →
    g.who = .record → s.port.queue = .write [(a, [x])] :: later → a < 0x10000000 → s.memoryOk → a / 4 ∈ s.port.bad →
      Completes (.memoryBurstComplete [] b) s fun t =>
        Written s t a [x] ∧ FaultReported s t 0
          ∧ (∃ more, AtMostAScan more ∧ t.ops = later ++ s.port.blocked.map Wait.op ++ more)
          ∧ (s.noneWait → t.news = s.news ++ [(.memory, .memoryFault, 2, 4 * (a / 4), t.port.uncorrectable)])
          ∧ Unchanged (.memory :: .errors :: .cause :: .safety :: takingWork) s t)
  ∧ (∀ (s : State) (g : Grant) (b : EngineBurst) (a : Nat), s.port.grant = some g → g.who = .host →
    s.port.bridge = some (.read a) → a % 4 = 0 → a / 4 ∉ s.port.bad → a / 4 ∈ s.port.weak →
      Completes (.memoryBurstComplete [] b) s fun t =>
        t.port.bridge = none
          ∧ (∃ w : Word, t.port.response = .data w ∧ ∀ n, n < 4 → w.extractLsb' (8 * n) 8 = s.mem.read (a + n))
          ∧ t.port.correctable = min 4294967295 (s.port.correctable + 1) ∧ t.port.uncorrectable = s.port.uncorrectable
          ∧ t.port.weak = s.port.weak ∧ t.port.bad = s.port.bad ∧ Did [.host, .errors] [] [] s t)
  ∧ (∀ (s : State) (g : Grant) (u : EngineUnit) (b : EngineBurst), s.port.grant = some g → g.who = .engine → s.engine.unit = some u →
    b.write = false → u.moves b = true → (∀ w, b.addr / 4 ≤ w → 4 * w < b.addr + b.len → w ∉ s.port.bad) →
    let count := ((List.range ((b.addr + b.len + 3) / 4 - b.addr / 4)).filter fun i => decide (b.addr / 4 + i ∈ s.port.weak)).length
    Completes (.memoryBurstComplete [] b) s fun t =>
        let u' := { u with fetched := ((List.range b.len).map fun i => (b.addr + i, s.mem.read (b.addr + i))) ++ u.fetched }
        t.engine.unit = some { u' with ready := u'.unfinished } ∧ t.port.correctable = s.correctableAfter count
          ∧ t.port.uncorrectable = s.port.uncorrectable ∧ t.port.weak = s.port.weak ∧ t.port.bad = s.port.bad
          ∧ Did [.errors, .unit] [] [] s t)
  ∧ (∀ (s : State) (g : Grant) (b : EngineBurst) (a : Nat) (later : List RecordOp), s.port.grant = some g → g.who = .record →
    s.port.queue = .read .control a [] :: later → a % 4 = 0 →
    let left (t : State) : Prop :=
      t.post.setupRead = s.post.setupRead ∧ t.port.weak = s.port.weak ∧ t.port.bad = s.port.bad
        ∧ ∃ more, AtMostAScan more ∧ t.ops = later ++ s.port.blocked.map Wait.op ++ more
    (a / 4 ∉ s.port.bad → a / 4 ∈ s.port.weak →
      Completes (.memoryBurstComplete [] b) s fun t =>
        left t ∧ t.post.controlRead = .got [s.mem.read a, s.mem.read (a + 1), s.mem.read (a + 2), s.mem.read (a + 3)]
          ∧ t.port.correctable = min 4294967295 (s.port.correctable + 1) ∧ t.port.uncorrectable = s.port.uncorrectable
          ∧ t.news = s.news ∧ Unchanged (.portReads :: .errors :: .safety :: takingWork) s t)
    ∧ (a / 4 ∈ s.port.bad →
      Completes (.memoryBurstComplete [] b) s fun t =>
        left t ∧ t.post.controlRead = .error [] ∧ FaultReported s t 0
          ∧ (s.noneWait → t.news = s.news ++ [(.memory, .memoryFault, 2, a, t.port.uncorrectable)])
          ∧ Unchanged (.portReads :: .errors :: .cause :: .safety :: takingWork) s t))
  ∧ (∀ (s : State) (g : Grant) (u : EngineUnit) (q : StripRequest) (n : Nat) (buffer : Bool),
    s.feeder.rasterOn = true → s.feeder.layoutRead = .idle → s.feeder.view = .live → s.feeder.liveFrame = true →
    s.feeder.request = some q → s.engine.unit = some u → u.work = .strip n buffer → s.port.grant = some g → g.who = .engine →
    let late (t : State) : Prop :=
      t.feeder.underruns = min 4294967295 (s.feeder.underruns + 1) ∧ t.feeder.faults = s.feeder.faults ∧ t.engine.cutOff = some u
    let strips := if s.feeder.outputMode = 0 then 90 else if s.feeder.outputMode = 1 then 135 else 150
    (∀ k, s.feeder.nextStrip = k → k + 1 < strips →
      Completes (.stripScanoutStart k) s fun t =>
        late t ∧ t.feeder.late = true ∧ t.feeder.display = .solid s.feeder.layout.background ∧ t.tookNext
          ∧ Did [.strips, .raster, .lateness, .stripCounts, .unit] [] [] s t)
    ∧ (s.feeder.nextStrip + 1 = strips → Completes .frameTurn s late))
  ∧ ∀ (s : State) (u : EngineUnit) (b b' : EngineBurst) (x : Nat), s.engine.cutOff = some u → b.write = false → u.moves b = true →
    x ∈ s.port.bad → b.addr / 4 ≤ x → 4 * x < b.addr + b.len → (∀ y, b.addr / 4 ≤ y → y < x → y ∉ s.port.bad) →
    let count := ((List.range (x - b.addr / 4)).filter fun i => decide (b.addr / 4 + i ∈ s.port.weak)).length
    let reported (moved : List Piece) (t : State) : Prop :=
      FaultReported s t count ∧ t.engine.cutOff = none
        ∧ Did (moved ++ [.errors, .cause]) [] [(.memory, .memoryFault, 1, 4 * x, t.port.uncorrectable)] s t
    (s.port.grant = none → Completes (.memoryBurstComplete [.cutOff b.addr b.len] b') s (reported []))
    ∧ ∀ (g : Grant) (a : Nat), s.port.grant = some g → g.who = .host → s.port.bridge = some (.read a) → a % 4 = 0 →
      s.cleanWords a 4 →
      Completes (.memoryBurstComplete [.cutOff b.addr b.len] b') s fun t =>
        reported [.host] t ∧ t.port.bridge = none
          ∧ ∃ w : Word, t.port.response = .data w ∧ ∀ n, n < 4 → w.extractLsb' (8 * n) 8 = s.mem.read (a + n)

/-! ## The frame intake -/

/-- A frame start begins a new frame: the geometry of the working setup is latched and the counts and sums are cleared. In LIVE the
lowest-numbered fillable slot becomes FILLING, or the choice waits for the pending acceptance; in STANDBY no slot is chosen. In STOPPED
the event is disregarded. Whenever no slot is FILLING, at most two slots are pinned, at most one is newest and at most one is held for
display, the intake finds a fillable slot among the five and chooses the lowest-numbered one. -/
def Obligations.FrameStartsBeginFrames : Prop :=
  (∀ s : State,
    let g : Geometry := ⟨s.post.setup.width, s.post.setup.height⟩
    let begun (t : State) :=
      t.intake.state = .receiving ∧ t.intake.geometry = some g ∧ t.intake.linesDone = 0 ∧ t.intake.lineOpen = false
        ∧ t.intake.lineCount = 0 ∧ t.intake.sums = List.replicate 192 0 ∧ t.intake.newest = s.intake.newest
        ∧ t.intake.hold = s.intake.hold
    (s.intake.state = .stopped → exec .frameStart s = .next s)
    ∧ (s.intake.state = .waiting ∨ s.intake.state = .discarding →
        (s.intake.view = .standby →
          Completes .frameStart s fun t => begun t ∧ t.intake.target = .standby ∧ DidOnly [.shape] [] [] s t)
        ∧ (s.intake.view = .live → ∀ p, s.intake.pendingFrame = some p →
          Completes .frameStart s fun t => begun t ∧ t.intake.target = .deferred ∧ DidOnly [.shape] [] [] s t)
        ∧ (s.intake.view = .live → s.intake.pendingFrame = none → s.intake.slots.length = 5 →
            ∀ n, n < 5 → s.intake.fillable n = true → (∀ m, m < n → s.intake.fillable m = false) →
          Completes .frameStart s fun t =>
            begun t ∧ t.intake.target = .slot n
              ∧ t.intake.slot n = { s.intake.slot n with fill := .filling, geometry := some g }
              ∧ SlotsKept (· = n) s t ∧ DidOnly [.shape, .slots] [] [] s t)))
  ∧ ∀ i : Intake, i.slots.length = 5 → (∀ n, n < 5 → (i.slot n).fill ≠ .filling) →
    (i.slots.filter fun x => x.pinFreeze || x.pinCapture || x.pinJob).length ≤ 2 →
    ∃ n, n < 5 ∧ i.choice = some n ∧ i.newest ≠ some n ∧ i.hold ≠ some n
      ∧ (i.slot n).pinFreeze = false ∧ (i.slot n).pinCapture = false ∧ (i.slot n).pinJob = false
      ∧ ∀ m, m < n → i.newest = some m ∨ i.hold = some m ∨ (i.slot m).pinned = true

/-- The lines and components of a frame being received: a line start opens a line, a component counts, adds its luma to its tile and, where
the frame has a slot or waits for one, enters the buffer at its place of the two-plane layout; a line of 2 × W components ends as a
whole line. Outside a frame, or with no line open, they are disregarded. -/
def Obligations.LinesAndComponentsAreTaken : Prop :=
  ∀ (s : State) (g : Geometry) (value : Byte), s.intake.geometry = some g →
    let j := s.intake.linesDone
    let k := s.intake.lineCount
    (s.intake.state ≠ .receiving →
      exec .lineStart s = .next s ∧ exec .lineEnd s = .next s ∧ exec (.component value) s = .next s)
    ∧ (s.intake.state = .receiving → s.intake.lineOpen = false →
      exec .lineEnd s = .next s ∧ exec (.component value) s = .next s)
    ∧ (s.intake.state = .receiving → j < g.h →
      Completes .lineStart s fun t =>
        t.intake = { s.intake with lineOpen := true, lineCount := 0 } ∧ DidOnly [.shape] [] [] s t)
    ∧ (s.intake.state = .receiving → s.intake.lineOpen = true → k = 2 * g.w →
      Completes .lineEnd s fun t =>
        t.intake = { s.intake with lineOpen := false, linesDone := j + 1 } ∧ DidOnly [.shape] [] [] s t)
    ∧ (s.intake.state = .receiving → s.intake.lineOpen = true → k < 2 * g.w → s.intake.sums.length = 192 →
        (s.intake.target = .standby ∨ s.intake.buffer.length < 8192) →
      Completes (.component value) s fun t =>
        t.intake.lineCount = k + 1 ∧ t.intake.linesDone = j ∧ t.intake.lineOpen = true ∧ t.intake.state = .receiving
          ∧ t.intake.target = s.intake.target ∧ t.intake.geometry = s.intake.geometry
          ∧ t.intake.sums.length = 192
          ∧ (∀ n, n < 192 → t.intake.sums.getD n 0 = s.intake.sums.getD n 0 +
              if k % 2 = 0 ∧ k / 2 / (g.w / 16) = n % 16 ∧ j / (g.h / 12) = n / 16 then value.toNat else 0)
          ∧ t.intake.buffer = (if s.intake.target = .standby then s.intake.buffer
              else s.intake.buffer ++
                [if k % 2 = 0 then ⟨false, false, j * g.w + k / 2, value⟩ else ⟨false, true, g.w * g.h + j * g.w + k / 2, value⟩])
          ∧ t.intake.pendingFrame = s.intake.pendingFrame
          ∧ DidOnly [.shape, .buffer] [] [] s t)

/-- The ways a frame is judged malformed, and dropped when a component finds the buffer full; each counts, discards the frame's bytes, frees
its slot, and can suspend automatic capture. A frame start within a frame makes the frame in progress malformed and begins a new one,
which in LIVE chooses its slot after the malformed frame's is FREE, or waits for a pending acceptance. CLEAR_INSTABILITY clears the
counter and the flag. -/
def Obligations.BadFramesAreCountedAndDiscarded : Prop :=
  (∀ (s : State) (g : Geometry) (value : Byte), s.intake.geometry = some g → s.intake.state = .receiving →
    let freed (t : State) :=
      SlotsKept (fun n => s.intake.target = .slot n) s t
        ∧ (∀ n, s.intake.target = .slot n → n < s.intake.slots.length → t.intake.slot n = { s.intake.slot n with fill := .free })
    let passedOver (cause : Nat) (t : State) :=
      JudgedBad cause s t ∧ t.intake.state = .discarding ∧ freed t
        ∧ DidOnly [.shape, .buffer, .slots, .badFrames, .instability] (badOps s) (badNews cause s t) s t
    (s.intake.linesDone = g.h → Completes .lineStart s (passedOver 0))
    ∧ (s.intake.lineOpen = true → s.intake.lineCount ≠ 2 * g.w → Completes .lineEnd s (passedOver 0))
    ∧ (s.intake.lineOpen = true → s.intake.lineCount = 2 * g.w → Completes (.component value) s (passedOver 0))
    ∧ (s.intake.lineOpen = true → s.intake.lineCount < 2 * g.w → s.intake.target ≠ .standby → 8192 ≤ s.intake.buffer.length →
        Completes (.component value) s (passedOver 1))
    ∧ (s.intake.linesDone ≠ g.h ∨ s.intake.lineOpen = true →
        Completes .frameEnd s fun t =>
          JudgedBad 0 s t ∧ t.intake.state = .waiting ∧ freed t
            ∧ Did [.shape, .buffer, .slots, .badFrames, .instability] (badOps s) (badNews 0 s t) s t)
    ∧ (s.intake.view = .standby →
        Completes .frameStart s fun t =>
          JudgedBad 0 s t ∧ t.intake.state = .receiving ∧ t.intake.target = .standby ∧ t.intake.linesDone = 0
            ∧ t.intake.geometry = some ⟨s.post.setup.width, s.post.setup.height⟩ ∧ t.intake.sums = List.replicate 192 0
            ∧ DidOnly [.shape, .buffer, .slots, .badFrames, .instability] (badOps s) (badNews 0 s t) s t)
    ∧ (s.intake.view = .live →
        let next : Geometry := ⟨s.post.setup.width, s.post.setup.height⟩
        let begun (t : State) : Prop :=
          JudgedBad 0 s t ∧ t.intake.state = .receiving ∧ t.intake.geometry = some next ∧ t.intake.linesDone = 0
            ∧ t.intake.lineOpen = false ∧ t.intake.lineCount = 0 ∧ t.intake.sums = List.replicate 192 0
            ∧ DidOnly [.shape, .buffer, .slots, .badFrames, .instability] (badOps s) (badNews 0 s t) s t
        let fillable (n : Nat) : Prop :=
          ((s.intake.slot n).fill ≠ .filling ∨ s.intake.target = .slot n) ∧ s.intake.newest ≠ some n ∧ s.intake.hold ≠ some n
            ∧ (s.intake.slot n).pinFreeze = false ∧ (s.intake.slot n).pinCapture = false ∧ (s.intake.slot n).pinJob = false
        (∀ p, s.intake.pendingFrame = some p →
          Completes .frameStart s fun t => begun t ∧ freed t ∧ t.intake.target = .deferred)
        ∧ (s.intake.pendingFrame = none → s.intake.slots.length = 5 → ∀ n, n < 5 → fillable n → (∀ m, m < n → ¬ fillable m) →
          Completes .frameStart s fun t =>
            begun t ∧ t.intake.target = .slot n
              ∧ t.intake.slot n = { s.intake.slot n with fill := .filling, geometry := some next }
              ∧ SlotsKept (fun m => m = n ∨ s.intake.target = .slot m) s t
              ∧ ∀ m, m ≠ n → s.intake.target = .slot m → m < 5 → t.intake.slot m = { s.intake.slot m with fill := .free })))
  ∧ ∀ (s : State) (w : Word) (rest : List Word), s.control.mode = .standby ∨ s.control.mode = .live → s.holdsWord 12 w rest →
    Completes .clearInstability s fun t =>
      Took rest s t ∧ t.post.inHand = none ∧ t.intake.instability = 0 ∧ t.intake.suspended = false
        ∧ Did [.fifo, .timer, .instability]
            (fieldChange (s.intake.instability = 0) 0x0D 1 0 ++ fieldChange (s.intake.suspended = false) 0x0E 1 0) [] s t

/-- A frame of H whole lines is complete at its frame end. A standby frame is accepted at once. One with a slot is pending until its last
byte has gone to the memory port; its acceptance then makes the slot COMPLETE and, outside STANDBY, newest. A frame that waited for it
has its slot chosen with it: the lowest-numbered one that is then fillable, the slot that was newest until the acceptance among them.
(An acceptance that was pending at an entry to STANDBY takes no mark, also where LIVE or SHUTTING has been entered since: the model's
choice, assumption log 39.) -/
def Obligations.CompleteFramesAreAccepted : Prop :=
  ∀ (s : State) (g : Geometry), s.intake.geometry = some g →
    let means := s.intake.sums.map fun x => x / (g.w / 16 * (g.h / 12))
    (s.intake.state = .receiving → s.intake.linesDone = g.h → s.intake.lineOpen = false →
      (s.intake.target = .standby →
        Completes .frameEnd s fun t =>
          AcceptedMeans s t means g ∧ t.intake.state = .waiting
            ∧ Did [.shape, .statistics, .instability, .slotWait] (acceptOps s) [] s t)
      ∧ (∀ n, s.intake.target = .slot n →
        Completes .frameEnd s fun t =>
          t.intake.state = .waiting ∧ t.intake.pendingFrame = some ⟨n, g, means, false⟩
            ∧ t.intake.buffer.length = s.intake.buffer.length ∧ (∀ b ∈ t.intake.buffer, b.ofPending = true)
            ∧ Did [.shape, .buffer] [] [] s t))
    ∧ (s.intake.state = .discarding →
        Completes .frameEnd s fun t => t.intake = { s.intake with state := .waiting } ∧ DidOnly [.shape] [] [] s t)
    ∧ ∀ p, s.intake.pendingFrame = some p → (∀ b ∈ s.intake.buffer, b.ofPending = false) → p.slot < s.intake.slots.length →
      (s.intake.target ≠ .deferred →
        Completes .acceptance s fun t =>
          AcceptedMeans s t p.means p.geometry ∧ t.intake.pendingFrame = none ∧ t.intake.buffer = s.intake.buffer
            ∧ t.intake.slot p.slot = { s.intake.slot p.slot with fill := .complete } ∧ SlotsKept (· = p.slot) s t
            ∧ t.intake.newest = (if p.noMark = true ∨ s.intake.view = .standby then s.intake.newest else some p.slot)
            ∧ t.intake.hold = s.intake.hold
            ∧ Did [.slots, .buffer, .statistics, .instability, .slotWait] (acceptOps s) [] s t)
      ∧ (s.intake.target = .deferred → s.intake.slots.length = 5 →
          let newest := if p.noMark = true ∨ s.intake.view = .standby then s.intake.newest else some p.slot
          let done := s.intake.slots.modify p.slot fun x => { x with fill := .complete }
          -- fillable once the accepted frame's slot is COMPLETE and the newest mark has moved
          let fillable (n : Nat) : Prop :=
            let x := done.getD n {}
            x.fill ≠ .filling ∧ newest ≠ some n ∧ s.intake.hold ≠ some n ∧ x.pinFreeze = false ∧ x.pinCapture = false ∧ x.pinJob = false
          ∀ n, n < 5 → fillable n → (∀ m, m < n → ¬ fillable m) →
        Completes .acceptance s fun t =>
          AcceptedMeans s t p.means p.geometry ∧ t.intake.pendingFrame = none ∧ t.intake.buffer = s.intake.buffer
            ∧ t.intake.newest = newest ∧ t.intake.hold = s.intake.hold ∧ t.intake.target = .slot n
            ∧ t.intake.slots = done.modify n (fun x => { x with fill := .filling, geometry := some g })
            ∧ t.intake.state = s.intake.state ∧ t.intake.geometry = s.intake.geometry ∧ t.intake.linesDone = s.intake.linesDone
            ∧ t.intake.lineOpen = s.intake.lineOpen ∧ t.intake.lineCount = s.intake.lineCount ∧ t.intake.sums = s.intake.sums
            ∧ Did [.shape, .slots, .buffer, .statistics, .instability, .slotWait] (acceptOps s) [] s t)

/-- The means of an accepted frame reach the page monitor. With no previous means, with another geometry or in SHUTTING they are only loaded
(R19). Otherwise the frame has the class of R21 by the number of its active tiles, and a frame that is not STILL moves page state, runs
and age as the table of R22 gives; a pattern whose age has reached the window is then due to time out. (No timeout is due: the model's
own field, assumption log 8. A MOVING frame also misses a capture that waits for a pin: CapturesThatWaitAreServedOrMissed.) -/
def Obligations.MeansLoadOrClassify : Prop :=
  ∀ (s : State) (f : TileStats) (later : List TileStats), s.intake.meansOut = f :: later → s.free .monitor = true →
    s.monitor.timeoutDue = false →
    let handed (t : State) :=
      t.intake.meansOut = later ∧ t.intake.held = s.intake.held ∧ t.intake.frameNumber = s.intake.frameNumber
        ∧ Did [.statistics, .pattern] [] [] s t
    ((s.monitor.previous = none ∨ (∃ means g, s.monitor.previous = some (means, g) ∧ g ≠ f.geometry) ∨ s.monitor.view = .shutting) →
      Completes .tileMeansArrival s fun t =>
        handed t ∧ t.monitor = { s.monitor with previous := some (f.means, f.geometry) })
    ∧ ∀ means, s.monitor.previous = some (means, f.geometry) → s.monitor.view ≠ .shutting → s.monitor.view ≠ .powerdown →
        let u := s.post.setup
        let m := s.monitor
        let change (i : Nat) : Nat := (f.means.getD i 0 - means.getD i 0) + (means.getD i 0 - f.means.getD i 0)
        let n := ((List.range 192).filter fun i => !u.mask.getLsbD i && decide (u.threshold ≤ change i)).length
        -- the state, the motion run, the still run and the age after the frame
        let row : PageState × Nat × Nat × Nat :=
          if u.motionTiles ≤ n then
            match m.pageState with
            | .settled => (.moving, 1, 0, 1)
            | .moving => (.moving, min 255 (m.motionRun + 1), m.stillRun, m.patternAge + 1)
            | .settling => (.moving, 1, 0, m.patternAge + 1)
          else if n ≤ u.quietTiles then
            match m.pageState with
            | .settled => (.settled, m.motionRun, m.stillRun, m.patternAge)
            | .moving =>
              (if u.motionMin ≤ m.motionRun then (.settling, m.motionRun, 1, m.patternAge + 1)
               else (.settled, m.motionRun, m.stillRun, m.patternAge + 1))
            | .settling => (.settling, m.motionRun, m.stillRun + 1, m.patternAge + 1)
          else
            match m.pageState with
            | .settled => (.settled, m.motionRun, m.stillRun, m.patternAge)
            | .moving => (.moving, min 255 (m.motionRun + 1), m.stillRun, m.patternAge + 1)
            | .settling => (.settling, m.motionRun, 0, m.patternAge + 1)
        (s.capture.context.state ≠ .waitingPin ∨ n < u.motionTiles) → ¬ (row.1 = .settling ∧ u.settleFrames ≤ row.2.2.1) →
          Completes .tileMeansArrival s fun t =>
            handed t ∧ t.monitor =
              { m with
                previous := some (f.means, f.geometry), pageState := row.1, motionRun := row.2.1, stillRun := row.2.2.1
                patternAge := row.2.2.2, timeoutDue := decide (row.1 ≠ .settled ∧ u.window ≤ row.2.2.2) }

/-- A STILL frame in LIVE latches the levels from the least and the greatest unmasked mean. With a lesson open its signature is looked up: a
match updates the entry and writes PAGE_SEEN; without one the AUTO decision goes to the capture unit if auto-capture is on and the
suspension flag is clear. With no lesson open nothing more happens. The pattern ends. (That of fields not side by side the one at the
lower address is written first, where the manual fixes only the last, is assumption log 35, DESIGN CHOICE.) -/
def Obligations.AStillFrameInLiveSeesOrDecides : Prop :=
  ∀ (s : State) (f : TileStats) (later : List TileStats) (means : List Nat), s.StillAt f later means → s.monitor.view = .live →
    f.means.length = 192 →
    let u := s.post.setup
    let shown (i : Nat) : Prop := i < 192 ∧ u.mask.getLsbD i = false
    let l := levelsOf u f.means
    let sig := signatureOf u f.means l
    let ended (t : State) := PatternEnded s t f later ∧ t.monitor.levels = l
    ((∀ i, ¬ shown i) → l = ⟨0, 0, false⟩)
    ∧ ((∃ i, shown i) →
        (∃ i, shown i ∧ f.means.getD i 0 = l.black) ∧ (∃ i, shown i ∧ f.means.getD i 0 = l.white)
          ∧ (∀ i, shown i → l.black ≤ f.means.getD i 0 ∧ f.means.getD i 0 ≤ l.white) ∧ (l.valid = true ↔ 16 ≤ l.white - l.black))
    ∧ (s.capture.lessonOpen = false →
        Completes .tileMeansArrival s fun t => ended t ∧ Did [.statistics, .pattern, .levels] [] [] s t)
    ∧ (s.capture.lessonOpen = true → ∀ n d, lookup u sig s.monitor.index = some (n, d) →
        let e := s.monitor.entry n
        let seen := min 255 (e.seen + 1)
        Completes .tileMeansArrival s fun t =>
          ended t ∧ t.monitor.index = s.monitor.index.set n { e with seen := seen, lastSeen := f.frame }
            ∧ Did [.statistics, .pattern, .levels, .index]
                [writeRuns [(0x1000 + 64 * n + 1, leBytes 1 seen), (0x1000 + 64 * n + 8, leBytes 4 f.frame),
                  (0x1000 + 64 * n, leBytes 1 e.state.value)]]
                [(.monitor, .pageSeen, n, e.page, d)] s t)
    ∧ (s.capture.lessonOpen = true → lookup u sig s.monitor.index = none →
        (u.autoCapture = true → s.intake.suspended = false →
          Completes .tileMeansArrival s fun t =>
            ended t ∧ t.capture.decisions = s.capture.decisions ++ [⟨f.frame, sig, l, false, false, false⟩]
              ∧ Did [.statistics, .pattern, .levels, .decisions] [] [] s t)
        ∧ (u.autoCapture = false ∨ s.intake.suspended = true →
          Completes .tileMeansArrival s fun t => ended t ∧ Did [.statistics, .pattern, .levels] [] [] s t))

/-- A STILL frame in STANDBY writes PRESENCE and, with auto-wake on, mode control enters LIVE and starts the reaction timer unless the host
wait is 0; no level is latched and nothing is looked up. A pattern that times out ends with PATTERN_TIMEOUT. (That the timeout, which
R23 makes part of the frame's step, falls due there and is taken by the command of its own is the model's choice, assumption log 8.) -/
def Obligations.PresenceWakesAndPatternsTimeOut : Prop :=
  (∀ (s : State) (f : TileStats) (later : List TileStats) (means : List Nat), s.StillAt f later means → s.monitor.view = .standby →
    let presence : Block × EventKind × Nat × Nat × Nat := (.monitor, .presence, 0, s.monitor.patternAge + 1, 0)
    (s.control.mode = .standby → s.post.setup.autoWake = true →
      Completes .tileMeansArrival s fun t =>
        PatternEnded s t f later ∧ t.control.mode = .live
          ∧ t.control.timerOn = decide (s.post.setup.hostWait ≠ 0) ∧ t.control.timerCount = 0
          ∧ t.control.timerWait = s.post.setup.hostWait
          ∧ t.control.announcements = s.control.announcements ++ announcedBlocks.map (Announcement.mk · .live)
          ∧ Did [.statistics, .pattern, .mode, .announcements, .timer] [fieldWrite 0 1 3]
              [presence, (.mode, .modeChanged, 3, 2, 2)] s t)
    ∧ (s.control.mode ≠ .standby ∨ s.post.setup.autoWake = false →
      Completes .tileMeansArrival s fun t =>
        PatternEnded s t f later ∧ Did [.statistics, .pattern] [] [presence] s t))
  ∧ ∀ s : State, s.monitor.timeoutDue = true → s.free .monitor = true →
    Completes .patternTimeout s fun t =>
      t.monitor = { s.monitor with pageState := .settled, motionRun := 0, stillRun := 0, patternAge := 0, timeoutDue := false }
        ∧ DidOnly [.pattern] []
            [(.monitor, .patternTimeout, if s.monitor.pageState = .settling then 1 else 0, s.monitor.patternAge, s.monitor.motionRun)]
            s t

/-- PAGE_FORGET makes a VALID entry EMPTY, its state alone written and no event, and is refused with NOT_VALID for any other entry. The post
port refuses an entry number above 63 as an illegal argument. (That a write of a record's state carries only the fields that change is
assumption log 35, DESIGN CHOICE.) -/
def Obligations.PageForgetEmptiesAValidEntry : Prop :=
  ∀ (s : State) (w : Word) (rest : List Word), s.control.mode = .standby ∨ s.control.mode = .live → s.holdsWord 11 w rest →
    let n := postArgument w
    (63 < n → RefusesWord .pageForget s w rest 3)
    ∧ (n ≤ 63 → (s.monitor.entry n).state = .valid →
      Completes .pageForget s fun t =>
        Took rest s t ∧ t.post.inHand = none
          ∧ t.monitor.index = s.monitor.index.set n { s.monitor.entry n with state := .empty }
          ∧ Did [.fifo, .timer, .index] [writeOf (0x1000 + 64 * n) [0#8]] [] s t)
    ∧ (n ≤ 63 → (s.monitor.entry n).state ≠ .valid → RefusesWord .pageForget s w rest 5)

/-- The codes of a signature (R28), the lookup of a signature among the entries that are not EMPTY (R29), and the entry that an eviction
chooses among the VALID ones (R36). -/
def Obligations.SignaturesLookupsAndEvictions : Prop :=
  (∀ (u : Setup) (means : List Nat) (l : Levels) (i : Nat), means.length = 192 → (∀ m ∈ means, m ≤ 255) →
    (l.valid = true → l.black ≤ l.white) → i < 192 →
      let m := means.getD i 0
      Signature.code (signatureOf u means l) i =
        if u.mask.getLsbD i then 0
        else if l.valid then min 3 (4 * (m - l.black) / (l.white - l.black + 1)) else m / 64)
  ∧ ∀ (u : Setup) (sig : Signature) (index : List IndexEntry) (frame : Nat),
    let entry (k : Nat) : IndexEntry := index.getD k {}
    let distance (k : Nat) : Nat :=
      ((List.range 192).filter fun i =>
        !u.mask.getLsbD i && decide (Signature.code sig i ≠ Signature.code (entry k).signature i)).length
    let age (k : Nat) : Int := ((frame : Int) - (entry k).lastSeen) % 4294967296
    (∀ n d, lookup u sig index = some (n, d) ↔
      (entry n).state ≠ .empty ∧ d = distance n ∧ d ≤ u.tolerance
        ∧ ∀ k, (entry k).state ≠ .empty → d < distance k ∨ (d = distance k ∧ n ≤ k))
    ∧ (lookup u sig index = none ↔ ∀ k, (entry k).state ≠ .empty → u.tolerance < distance k)
    ∧ (∀ n, evictionChoice frame index = some n ↔
        (entry n).state = .valid ∧ ∀ k, (entry k).state = .valid → age k < age n ∨ (age k = age n ∧ n ≤ k))

/-! ## Lessons and page capture -/

/-- The oldest AUTO decision reaches the capture unit. It is missed, with page number 0, when the unit has taken an entry to SHUTTING or
STANDBY or a lesson word since, when a capture is in hand, or when the counter is full; otherwise it is taken: it waits for a pin or a
slot, has the head descriptor read, or is missed with a chain that is STOPPED or whose head may not be read. (One that the monitor made
before it was told of the mode that the unit has entered is missed with that mode's reason too, as long as the part is not in LIVE: the
model's choice, assumption log 37.) (The fault kind of a head that meets two rows of R115, and the fields that each write of the index
carries, are assumption logs 47 and 35, DESIGN CHOICE.) -/
def Obligations.CaptureDecisionsAreTakenOrMissed : Prop :=
  ∀ (s : State) (d : Decision) (later : List Decision), s.capture.decisions = d :: later → s.free .capture = true →
    let missed (reason : Nat) : Prop :=
      Completes .captureDecision s fun t =>
        t.capture.decisions = later ∧ Did [.decisions] [] [(.capture, .captureMissed, reason, 0, 0)] s t
    let power : Prop := d.sawShutting = true ∨ s.capture.view = .shutting ∨ s.capture.view = .powerdown
    let standby : Prop := d.sawStandby = true ∨ (s.capture.view = .standby ∧ s.control.mode ≠ .live)
    (power → missed 9)
    ∧ (¬ power → standby → missed 8)
    ∧ (¬ power → ¬ standby → d.sawLesson = true → missed 7)
    ∧ (¬ power → ¬ standby → d.sawLesson = false →
        (s.capture.context.state ≠ .idle → missed 1)
        ∧ (s.capture.context.state = .idle → s.capture.counter = 65535 → missed 2)
        ∧ (s.capture.context.state = .idle → s.capture.counter ≠ 65535 →
            DecisionTaken .captureDecision s [.decisions] (fun t => t.capture.decisions = later) .auto d.frame d.signature d.levels))

/-- CAPTURE_NOW is refused with no lesson open and with no newest frame. Otherwise its REQUESTED decision is missed as BUSY or COUNTER_FULL,
or taken, as an AUTO decision is, with the signature of the held statistics under the levels latched at that moment. (That it is made
and taken within this step, with no acceptance between, is assumption log 11, DEDUCED.) (The fault kind of a head that meets two rows of
R115, and the fields that each write of the index carries, are assumption logs 47 and 35, DESIGN CHOICE.) -/
def Obligations.CaptureNowDecides : Prop :=
  ∀ (s : State) (w : Word) (rest : List Word), s.control.mode = .live → s.holdsWord 5 w rest →
    let missed (reason : Nat) : Prop :=
      Completes .captureNow s fun t =>
        Took rest s t ∧ t.post.inHand = none ∧ Did [.fifo, .timer] [] [(.capture, .captureMissed, reason, 0, 1)] s t
    (s.capture.lessonOpen = false → RefusesWord .captureNow s w rest 8)
    ∧ (s.capture.lessonOpen = true → s.intake.newest = none → RefusesWord .captureNow s w rest 9)
    ∧ (s.capture.lessonOpen = true → s.intake.newest ≠ none →
        (s.capture.context.state ≠ .idle → missed 1)
        ∧ (s.capture.context.state = .idle → s.capture.counter = 65535 → missed 2)
        ∧ (s.capture.context.state = .idle → s.capture.counter ≠ 65535 → ∀ h, s.intake.held = some h →
            DecisionTaken .captureNow s [.fifo, .timer] (fun t => Took rest s t ∧ t.post.inHand = none) .requested h.frame
              (signatureOf s.post.setup h.means s.monitor.levels) s.monitor.levels))

/-- A capture that waits. One whose slot wait has expired is missed with NO_SLOT, and one that waits for a pin is missed with PAGE_MOVED at
a MOVING frame: the PROVISIONAL entry is EMPTY again, the pin is released, the context is IDLE, and neither the credit nor the head
changes. One that waits for a pin gets it on the newest slot when a release leaves a slot unpinned, here at every end of a RENDER_LIVE
job: DONE, CANCELLED with its stop pending or at once by JOB_CANCEL or the entry to STANDBY or SHUTTING, and FAILED. Then it counts its
slot wait, or has the head descriptor read, or stops the chain with CHAIN_FAULT where the head may not be read and is missed, or is
missed with NO_CHAIN. With no newest slot it goes on waiting. The engine goes on with what R94 gives next. (No pattern timeout is due,
assumption log 8. That the completion of a faulted piece makes the reads no burst has made, and meets their errors in address order, is
the model's choice, assumption logs 7 and 14; that at the entry to SHUTTING the running job's end comes before those of the PENDING
entries, assumption log 38. The fault kind of a head that meets two rows of R115, and the fields that the withdrawal of an entry writes,
are assumption logs 47 and 35, DESIGN CHOICE.) -/
def Obligations.CapturesThatWaitAreServedOrMissed : Prop :=
  (∀ (s : State) (k : Nat), s.capture.slotWaiting = true → s.capture.slotExpired = true → s.capture.context.state = .waitingSlot →
    s.capture.context.entry = some k → s.noDescriptorRead → s.free .capture = true →
    Completes .slotWaitExpiry s fun t =>
      CaptureEnded s t ∧ t.monitor.index = s.monitor.index.set k { s.monitor.entry k with state := .empty }
        ∧ Did (endingCapture ++ [.index]) [writeOf (0x1000 + 64 * k) [0#8], fieldWrite 2 1 0]
            [(.capture, .captureMissed, 5, s.capture.context.page, s.capture.context.reason.value)] s t)
  ∧ (∀ (s : State) (f : TileStats) (later : List TileStats) (means : List Nat) (k : Nat),
    s.intake.meansOut = f :: later → s.free .monitor = true → s.monitor.timeoutDue = false →
    s.monitor.previous = some (means, f.geometry) → s.monitor.view ≠ .shutting → s.monitor.view ≠ .powerdown →
    s.capture.context.state = .waitingPin → s.capture.context.entry = some k → s.noDescriptorRead →
    let u := s.post.setup
    let m := s.monitor
    let change (i : Nat) : Nat := (f.means.getD i 0 - means.getD i 0) + (means.getD i 0 - f.means.getD i 0)
    u.motionTiles ≤ ((List.range 192).filter fun i => !u.mask.getLsbD i && decide (u.threshold ≤ change i)).length →
    let age := if m.pageState = .settled then 1 else m.patternAge + 1
    Completes .tileMeansArrival s fun t =>
      CaptureEnded s t ∧ t.intake.meansOut = later ∧ t.intake.held = s.intake.held ∧ t.intake.frameNumber = s.intake.frameNumber
        ∧ t.monitor =
            { m with
              index := m.index.set k { m.entry k with state := .empty }
              previous := some (f.means, f.geometry), pageState := .moving
              motionRun := if m.pageState = .moving then min 255 (m.motionRun + 1) else 1
              stillRun := if m.pageState = .moving then m.stillRun else 0
              patternAge := age, timeoutDue := decide (u.window ≤ age) }
        ∧ Did (endingCapture ++ [.index, .statistics, .pattern]) [writeOf (0x1000 + 64 * k) [0#8], fieldWrite 2 1 0]
            [(.capture, .captureMissed, 3, s.capture.context.page, s.capture.context.reason.value)] s t)
  ∧ ∀ (s : State) (j : RunningJob), s.jobs.running = some j → j.entry < s.jobs.entries.length →
    let others (t : State) : Prop := ∀ n, n ≠ j.entry → t.jobs.entry n = s.jobs.entry n
    let counted : RecordOp :=
      writeRuns [(0x800 + 64 * j.entry + 0x34, leBytes 4 (j.done + 1)),
        (0x800 + 64 * j.entry + 0x30, leBytes 1 (s.jobs.entry j.entry).state.value)]
    -- the ends at a piece: DONE, CANCELLED with a stop pending, FAILED
    (∀ (u : EngineUnit) (n : Nat), s.engine.unit = some u → u.work = .jobPiece n →
      (s.cleanUnit u → j.stop = none → j.total ≤ j.done + 1 →
        JobPinServes .jobPieceComplete s j [.memory, .jobEntries, .unit]
          (fun t => UnitWritten s t u ∧ t.tookNext ∧ t.jobs.entry j.entry = ⟨.done, 0, j.done + 1, 255⟩ ∧ others t)
          [outcomeOp j.entry 3 0 (j.done + 1) 255] [] (fun _ => [(.jobs, .jobEnd, j.entry, 3, 0)]) [])
      ∧ (s.cleanUnit u → ∀ reason, j.stop = some reason →
        JobPinServes .jobPieceComplete s j [.memory, .jobEntries, .unit]
          (fun t => UnitWritten s t u ∧ t.tookNext ∧ t.jobs.entry j.entry = ⟨.cancelled, reason, j.done + 1, 255⟩ ∧ others t)
          ((if j.done + 1 < j.total then [counted] else []) ++ [outcomeOp j.entry 4 reason (j.done + 1) 255]) []
          (fun _ => [(.jobs, .jobEnd, j.entry, 4, reason)]) [])
      ∧ ∀ cmd x weak, s.faultsAt u .jobPieceComplete cmd x weak →
        JobPinServes cmd s j [.jobEntries, .errors, .cause, .unit]
          (fun t => t.jobs.entry j.entry = ⟨.failed, 9, j.done, 255⟩ ∧ others t ∧ FaultReported s t weak ∧ t.tookNext)
          [outcomeOp j.entry 5 9 j.done 255] []
          (fun t => [(.memory, .memoryFault, 1, 4 * x, t.port.uncorrectable), (.jobs, .jobEnd, j.entry, 5, 9)]) [])
    -- the ends at once: JOB_CANCEL, and the entries to STANDBY and SHUTTING, with the PENDING entries that end with it
    ∧ (s.jobPieceInProgress = false → j.stop = none → s.jobs.entries.length = 16 →
      (∀ n, n < 16 → ((s.jobs.entry n).state = .running ↔ n = j.entry)) →
      let cancelled (reason : Nat) (ns : List Nat) (t : State) : Prop :=
        ∀ n, n < 16 → t.jobs.entry n =
          if n = j.entry then ⟨.cancelled, reason, j.done, 255⟩ else if n ∈ ns then ⟨.cancelled, reason, 0, 255⟩ else s.jobs.entry n
      let ops (reason : Nat) (ns : List Nat) : List RecordOp := ns.map fun n => outcomeOp n 4 reason 0 255
      let news (reason : Nat) (ns : List Nat) : List (Block × EventKind × Nat × Nat × Nat) :=
        ns.map fun n => (.jobs, .jobEnd, n, 4, reason)
      let pending := (List.range 16).filter fun n => decide ((s.jobs.entry n).state = .pending)
      (∀ (w : Word) (rest : List Word), s.control.mode = .standby ∨ s.control.mode = .live → s.holdsWord 9 w rest →
        (postArgument w).testBit j.entry = true →
        let named := pending.filter (postArgument w).testBit
        let before := named.filter fun n => decide (n < j.entry)
        let after := named.filter fun n => decide (j.entry < n)
        JobPinServes .jobCancel s j [.fifo, .timer, .jobEntries]
          (fun t => Took rest s t ∧ t.post.inHand = none ∧ cancelled 10 named t)
          (ops 10 before ++ [outcomeOp j.entry 4 10 j.done 255]) (ops 10 after)
          (fun _ => news 10 before ++ [(.jobs, .jobEnd, j.entry, 4, 10)]) (news 10 after))
      ∧ ∀ m, m = .standby ∨ m = .shutting → s.control.announced .jobs = some ⟨.jobs, m⟩ → s.readyForEntry .jobs →
        let reason := if m = .standby then 11 else 12
        let all := if m = .shutting then pending else []
        JobPinServes (.modeEntry .jobs) s j [.announcements, .views, .jobEntries]
          (fun t => t.jobs.view = m ∧ t.control.announcements = s.control.announcements.erase ⟨.jobs, m⟩ ∧ cancelled reason all t)
          [outcomeOp j.entry 4 reason j.done 255] (ops 12 all) (fun _ => [(.jobs, .jobEnd, j.entry, 4, reason)]) (news 12 all))


/-- The head descriptor has been read. One owned by the host, or whose buffer leaves shared memory or touches a protected area, is a chain
fault: credit 0, chain STOPPED, the capture missed; so is one that could not be read. One too small is returned with SLOT_REJECTED and
the chain is checked again, at the next address, which is a chain fault of its kind where it may not be read. Any other is taken and the
capture is RENDERING. While a CAPTURE_RESTART reads its control words nothing happens. (The levels, the flag and the size that a
TOO_SMALL return writes are assumption log 21, DEDUCED; that the descriptor waits for the control words is assumption log 12, DEDUCED;
the fault kind of an address that meets two rows of R115, assumption log 47, DESIGN CHOICE.) (That of fields not side by side the one at
the lower address is written first, where the manual fixes only the last, is assumption log 35, DESIGN CHOICE.) -/
def Obligations.DescriptorsAreTakenReturnedOrFaulted : Prop :=
  (∀ s : State, s.capture.read = .idle ∨ s.post.controlRead ≠ .idle → exec .descriptorReadDone s = .next s)
  ∧ ∀ (s : State) (k p : Nat) (g : Geometry), s.post.controlRead = .idle → s.capture.context.state = .waitingSlot → s.capture.context.entry = some k →
    s.capture.context.pinned = some p → (s.intake.slot p).geometry = some g → 1 ≤ s.capture.credit → s.capture.running = true →
    let u := s.post.setup
    let c := s.capture.context
    -- the chain fault of a kind, with the head then at an address, after these operations and events
    let faultedAt (kind head : Nat) (before : List RecordOp) (news : List (Block × EventKind × Nat × Nat × Nat)) : Prop :=
      Completes .descriptorReadDone s fun t =>
        CaptureEnded s t ∧ t.capture.credit = 0 ∧ t.capture.running = false ∧ t.capture.head = head
          ∧ t.monitor.index = s.monitor.index.set k { s.monitor.entry k with state := .empty }
          ∧ Did (endingCapture ++ [.index, .chain])
              (before ++ chainFaultOps k) (news ++ chainFaultNews kind head c.page c.reason) s t
    let faulted (kind : Nat) : Prop := faultedAt kind s.capture.head [] []
    (∀ before, s.capture.read = .error before → s.noDescriptorRead → faulted 4)
    ∧ ∀ bytes, s.capture.read = .got bytes →
    let field (off : Nat) : Nat := ofLe ((bytes.drop off).take 4)
    let d : Descriptor := ⟨s.capture.head, field 4, field 8, field 12⟩
    let size : Geometry := if u.captureW = 0 ∨ u.captureH = 0 then g else ⟨u.captureW, u.captureH⟩
    let area := 2 * size.w * size.h
    let device : Prop := ofLe (bytes.take 1) = 1
    let inside : Prop :=
      d.buffer + area ≤ 0x10000000 ∧ (area = 0 ∨ (0x10000 ≤ d.buffer ∧ (d.buffer + area ≤ 0x1000000 ∨ 0x8800000 ≤ d.buffer)))
    let returned := fun (black white : Nat) (flag : Nat) =>
      returnOp d 2 (c.reason.value + flag) k c.page black white c.frame size 0
    (¬ device → s.noDescriptorRead → faulted 0)
    ∧ (device → area ≤ d.capacity → ¬ inside → s.noDescriptorRead → faulted 5)
    ∧ (device → d.capacity < area →
        let op := if u.captureAuto && c.levels.valid then returned c.levels.black c.levels.white 2 else returned 0 0 0
        (s.capture.credit = 1 →
          Completes .descriptorReadDone s fun t =>
            t.capture.credit = 0 ∧ t.capture.head = d.next ∧ t.capture.running = true
              ∧ t.capture.context = { c with descriptor := none } ∧ t.capture.read = .idle
              ∧ t.capture.slotWaiting = true ∧ t.capture.slotCount = 0 ∧ t.capture.slotExpired = false
              ∧ Did [.context, .chain, .slotWait, .descriptorRead] [op, fieldWrite 0x0C 1 0]
                  [(.capture, .slotRejected, 0, d.addr, d.capacity)] s t)
        ∧ (2 ≤ s.capture.credit → headReadable d.next →
          Completes .descriptorReadDone s fun t =>
            t.capture.credit = s.capture.credit - 1 ∧ t.capture.head = d.next ∧ t.capture.running = true
              ∧ t.capture.context = { c with descriptor := none } ∧ t.capture.read = .waiting
              ∧ Did [.context, .chain, .descriptorRead]
                  [op, fieldWrite 0x0C 1 (s.capture.credit - 1), .read .descriptor d.next []]
                  [(.capture, .slotRejected, 0, d.addr, d.capacity)] s t)
        ∧ (2 ≤ s.capture.credit → ¬ headReadable d.next → s.noDescriptorRead →
            faultedAt (headFaultKind d.next) d.next
              [op, fieldWrite 0x0C 1 (s.capture.credit - 1)] [(.capture, .slotRejected, 0, d.addr, d.capacity)]))
    ∧ (device → area ≤ d.capacity → inside →
        Completes .descriptorReadDone s fun t =>
          t.capture.read = .idle
            ∧ t.capture.context = { c with
                state := .rendering, descriptor := some d, done := 0, next := t.capture.context.next
                render := some
                  { source := 0x1000000 + 0x1800000 * p, ws := g.w, hs := g.h, wp := size.w, hp := size.h, zoom := 256
                    cx := g.w * 8, cy := g.h * 8, gain := (u.profile u.captureProfile).1, coring := (u.profile u.captureProfile).2
                    mode := if u.captureAuto then .auto else .none, black := 0, white := 0, copy := some c.levels
                    background := ⟨16, 128, 128⟩, destination := d.buffer } }
            ∧ t.capture.context.next ≤ 1
            ∧ Did [.context, .descriptorRead] [fieldWrite 2 1 3] [] s t)

/-- A capture piece completes: its bytes stand in the buffer, each at the address that R63 and R151 give its pixel, and the engine goes on
with what R94 gives next. If it is not the last the capture goes on. At the last the index entry is VALID with the buffer and the frame
rendered, the descriptor is returned OK, the credit falls and the head moves on, PAGE_CAPTURED is written, and the pin and the context
are released. (In SHUTTING, the end that makes the test of R187 hold: ShutdownAwaitsTheLastPiece.) (That of fields not side by side the
one at the lower address is written first, where the manual fixes only the last, is assumption log 35, DESIGN CHOICE.) -/
def Obligations.CapturePiecesComplete : Prop :=
  ∀ (s : State) (u : EngineUnit) (n k : Nat) (r : Render) (d : Descriptor), s.engine.unit = some u → u.work = .capturePiece n →
    s.cleanUnit u → s.capture.context.render = some r → s.capture.context.descriptor = some d →
    s.capture.context.entry = some k → s.capture.context.state = .rendering →
    let c := s.capture.context
    (c.done + 1 < pieceCount r.wp r.hp →
      Completes .capturePieceComplete s fun t =>
        UnitWritten s t u ∧ t.capture.context = { c with done := c.done + 1, next := t.capture.context.next }
          ∧ c.next ≤ t.capture.context.next ∧ t.capture.context.next ≤ c.next + 1
          ∧ t.tookNext ∧ Did [.memory, .context, .unit] [] [] s t)
    ∧ (pieceCount r.wp r.hp ≤ c.done + 1 → 1 ≤ s.capture.credit → s.noDescriptorRead → s.upAfterCapture →
        let flag := if r.mode = .auto ∧ c.levels.valid = true then 2 else 0
        Completes .capturePieceComplete s fun t =>
          UnitWritten s t u ∧ CaptureEnded s t ∧ t.capture.credit = s.capture.credit - 1 ∧ t.capture.head = d.next
            ∧ t.capture.running = s.capture.running ∧ t.tookNext
            ∧ t.monitor.index =
                s.monitor.index.set k { s.monitor.entry k with image := d.buffer, captureFrame := c.frame, state := .valid }
            ∧ Did (endingCapture ++ [.memory, .index, .chain, .unit])
                [writeRuns [(0x1000 + 64 * k + 4, leBytes 4 c.frame), (0x1000 + 64 * k + 12, leBytes 4 d.buffer),
                    (0x1000 + 64 * k, [2#8])],
                 returnOp d 1 (c.reason.value + flag) k c.page (if flag = 2 then c.levels.black else 0)
                    (if flag = 2 then c.levels.white else 0) c.frame ⟨r.wp, r.hp⟩ (2 * r.wp * r.hp),
                 fieldWrite 0x0C 1 (s.capture.credit - 1), fieldWrite 2 1 0]
                [(.capture, .pageCaptured, k, c.page, d.addr)] s t)

/-- A capture piece whose reading meets an uncorrectable word is faulted, in a burst of the engine or at the completion: the memory port
reports the error, the entry is withdrawn, the descriptor is returned with MEMORY_FAULT, CAPTURE_FAILED is written, and the engine goes
on with what R94 gives next. The bytes written are those of the pieces completed. (That the completion makes the reads no burst has
made, and meets their errors in address order, is the model's choice, assumption logs 7 and 14. In SHUTTING, the end that makes the test
of R187 hold: ShutdownAwaitsTheLastPiece.) (That of fields not side by side the one at the lower address is written first, where the
manual fixes only the last, is assumption log 35, DESIGN CHOICE.) -/
def Obligations.AFaultedPieceFailsTheCapture : Prop :=
  ∀ (s : State) (cmd : Instr) (u : EngineUnit) (n k x weak : Nat) (r : Render) (d : Descriptor), u.work = .capturePiece n →
    s.faultsAt u .capturePieceComplete cmd x weak → s.capture.context.render = some r → s.capture.context.descriptor = some d →
    s.capture.context.entry = some k → s.capture.context.state = .rendering → 1 ≤ s.capture.credit →
    s.noDescriptorRead → s.upAfterCapture →
    let c := s.capture.context
    let flag := if r.mode = .auto ∧ c.levels.valid = true then 2 else 0
    let across := (r.wp + 1023) / 1024
    let bytes := ((List.range c.done).map fun i =>
      2 * min 1024 (r.wp - i % across * 1024) * min 8 (r.hp - i / across * 8)).sum
    Completes cmd s fun t =>
      CaptureEnded s t ∧ t.capture.credit = s.capture.credit - 1 ∧ t.capture.head = d.next ∧ t.capture.running = s.capture.running
        ∧ t.monitor.index = s.monitor.index.set k { s.monitor.entry k with state := .empty }
        ∧ FaultReported s t weak ∧ t.tookNext
        ∧ Did (endingCapture ++ [.index, .chain, .errors, .cause, .unit])
            [writeOf (0x1000 + 64 * k) [0#8],
             returnOp d 3 (c.reason.value + flag) k c.page (if flag = 2 then c.levels.black else 0)
                (if flag = 2 then c.levels.white else 0) c.frame ⟨r.wp, r.hp⟩ bytes,
             fieldWrite 0x0C 1 (s.capture.credit - 1), fieldWrite 2 1 0]
            [(.memory, .memoryFault, 1, 4 * x, t.port.uncorrectable), (.capture, .captureFailed, k, c.page, d.addr)] s t

/-- CAPTURE_CREDIT adds to the credit, up to 255. While a capture counts its slot wait it stops the count and has the head descriptor read,
and a head that R115 does not let be read is a chain fault of its kind. On a STOPPED chain the word is refused. (The fault kind of a
head that meets two rows of R115, and the fields that the withdrawal of an entry writes, are assumption logs 47 and 35, DESIGN CHOICE.) -/
def Obligations.CreditIsGrantedToTheChain : Prop :=
  ∀ (s : State) (w : Word) (rest : List Word), s.control.mode = .standby ∨ s.control.mode = .live → s.holdsWord 3 w rest →
    let n := postArgument w
    let credit := min 255 (s.capture.credit + n)
    1 ≤ n → n ≤ 255 →
    (s.capture.running = false → RefusesWord .captureCredit s w rest 10)
    ∧ (s.capture.running = true →
        let taken (t : State) := Took rest s t ∧ t.post.inHand = none ∧ t.capture.head = s.capture.head
        (s.capture.slotWaiting = false →
          Completes .captureCredit s fun t =>
            taken t ∧ t.capture.credit = credit ∧ t.capture.running = true
              ∧ Did [.fifo, .timer, .chain] (fieldChange (s.capture.credit = credit) 0x0C 1 credit) [] s t)
        ∧ (s.capture.slotWaiting = true →
            (headReadable s.capture.head →
              Completes .captureCredit s fun t =>
                taken t ∧ t.capture.credit = credit ∧ t.capture.running = true
                  ∧ t.capture.slotWaiting = false ∧ t.capture.read = .waiting
                  ∧ Did [.fifo, .timer, .chain, .slotWait, .descriptorRead]
                      (fieldChange (s.capture.credit = credit) 0x0C 1 credit ++ [.read .descriptor s.capture.head []]) [] s t)
            ∧ (¬ headReadable s.capture.head → s.capture.context.state = .waitingSlot →
                Completes .captureCredit s fun t =>
                  taken t ∧ t.capture.credit = 0 ∧ t.capture.running = false ∧ CaptureEnded s t
                    ∧ Unchanged (.fifo :: .timer :: .chain :: .index :: .slots :: .slotWait :: .descriptorRead :: takingWork) s t
                    ∧ ∀ k, s.capture.context.entry = some k →
                        t.monitor.index = s.monitor.index.set k { s.monitor.entry k with state := .empty }
                          ∧ Did (endingCapture ++ [.fifo, .timer, .chain, .index])
                              (fieldChange (s.capture.credit = credit) 0x0C 1 credit ++ chainFaultOps k)
                              (chainFaultNews (headFaultKind s.capture.head) s.capture.head s.capture.context.page
                                s.capture.context.reason) s.abandonRead t)))

/-- CAPTURE_RESTART is refused while a page is RENDERING; otherwise the control words are read, and the word stays in hand, with nothing
else changed: a descriptor read in progress goes on, but is not acted on before the control words have been read
(DescriptorsAreTakenReturnedOrFaulted). When they have been read the chain is RUNNING from the address they give, with credit 0; a
descriptor read in progress is disregarded, and its capture counts its slot wait from 0, and one that was counting goes on. If they
could not be read the word is refused, and a refused word changes nothing in the capture unit: chain, head, credit and context stay, and
a descriptor read goes on. (That the descriptor read waits for the control words, and that one begun while they are read, for a pin
granted meanwhile, is disregarded too, is assumption log 12, DEDUCED.) -/
def Obligations.TheChainIsRestarted : Prop :=
  (∀ (s : State) (w : Word) (rest : List Word), s.control.mode = .standby ∨ s.control.mode = .live → s.holdsWord 4 w rest →
    (s.capture.context.state = .rendering → RefusesWord .captureRestart s w rest 7)
    ∧ (s.capture.context.state ≠ .rendering →
        Completes .captureRestart s fun t =>
          Took rest s t ∧ t.post.inHand = some w ∧ t.post.controlRead = .waiting ∧ t.post.setupRead = s.post.setupRead
            ∧ Did [.fifo, .timer, .portReads] [.read .control 0x600 []] [] s t))
  ∧ (∀ (s : State) (bytes : List Byte), s.post.controlRead = .got bytes →
      let started (t : State) :=
        t.post.controlRead = .idle ∧ t.post.setupRead = s.post.setupRead ∧ t.post.inHand = none ∧ t.post.fifo = s.post.fifo
          ∧ t.capture.running = true ∧ t.capture.credit = 0 ∧ t.capture.head = ofLe (bytes.take 4)
      let ops := fieldChange (s.capture.running = true) 3 1 1 ++ fieldChange (s.capture.credit = 0) 0x0C 1 0
      (s.capture.context.state ≠ .waitingSlot ∨ s.capture.read = .idle →
        Completes .controlWordsReadDone s fun t => started t ∧ Did [.portReads, .fifo, .chain] ops [] s t)
      ∧ (s.capture.context.state = .waitingSlot → s.capture.read ≠ .idle →
        Completes .controlWordsReadDone s fun t =>
          started t ∧ t.capture.slotWaiting = true ∧ t.capture.slotCount = 0 ∧ t.capture.slotExpired = false
            ∧ t.capture.read = .idle ∧ (∀ a got, RecordOp.read .descriptor a got ∉ t.ops)
            ∧ Did [.portReads, .fifo, .chain, .descriptorRead, .slotWait] ops [] s.abandonRead t))
  ∧ ∀ (s : State) (before : List Byte) (w : Word), s.post.controlRead = .error before → s.post.inHand = some w →
      Completes .controlWordsReadDone s fun t =>
        t.post.controlRead = .idle ∧ t.post.setupRead = s.post.setupRead ∧ t.post.inHand = none ∧ t.post.fifo = s.post.fifo
          ∧ Did [.portReads, .fifo] [] [(.post, .postRefused, 11, postKind w, postArgument w)] s t


/-- LESSON_BEGIN opens the lesson with the counter at 0 and an empty index, and is refused with a lesson open or a capture in hand.
LESSON_END closes it: a capture that waits for a pin or a slot is missed first, a RENDERING one goes on, and counter and index stay.
(That the emptied entries are written by one record operation is the model's choice, assumption log 36.) (That a write of a record's
state carries only the fields that change is assumption log 35, DESIGN CHOICE.) -/
def Obligations.LessonsBeginAndEnd : Prop :=
  ∀ (s : State) (w : Word) (rest : List Word), s.control.mode = .standby ∨ s.control.mode = .live →
    let taken (t : State) :=
      Took rest s t ∧ t.post.inHand = none ∧ t.capture.decisions = s.capture.decisions.map fun d => { d with sawLesson := true }
    (s.holdsWord 6 w rest →
      (s.capture.lessonOpen = true → RefusesWord .lessonBegin s w rest 6)
      ∧ (s.capture.lessonOpen = false → s.capture.context.state ≠ .idle → RefusesWord .lessonBegin s w rest 7)
      ∧ (s.capture.lessonOpen = false → s.capture.context.state = .idle → s.monitor.index.length = 64 →
          let held := (List.range 64).filter fun n => decide ((s.monitor.entry n).state ≠ .empty)
          Completes .lessonBegin s fun t =>
            taken t ∧ t.capture.lessonOpen = true ∧ t.capture.counter = 0
              ∧ (∀ n, (t.monitor.entry n).state = .empty)
              ∧ Did [.fifo, .timer, .lesson, .index, .decisions]
                  (fieldChange (s.capture.counter = 0) 0x0A 2 0
                    ++ (if held = [] then [] else [writeRuns (held.map fun n => (0x1000 + 64 * n, [0#8]))])
                    ++ [fieldWrite 1 1 1])
                  [(.capture, .lessonBegun, 0, 0, 0)] s t))
    ∧ (s.holdsWord 7 w rest →
        (s.capture.lessonOpen = false → RefusesWord .lessonEnd s w rest 8)
        ∧ (s.capture.lessonOpen = true →
            (s.capture.context.state = .idle ∨ s.capture.context.state = .rendering →
              Completes .lessonEnd s fun t =>
                taken t ∧ t.capture.lessonOpen = false ∧ t.capture.counter = s.capture.counter
                  ∧ Did [.fifo, .timer, .lesson, .decisions] [fieldWrite 1 1 0]
                      [(.capture, .lessonEnded, 0, s.capture.counter, 0)] s t)
            ∧ (s.capture.context.state = .waitingPin ∨ s.capture.context.state = .waitingSlot → s.noDescriptorRead →
              ∀ k, s.capture.context.entry = some k →
              Completes .lessonEnd s fun t =>
                taken t ∧ t.capture.lessonOpen = false ∧ t.capture.counter = s.capture.counter ∧ CaptureEnded s t
                  ∧ t.monitor.index = s.monitor.index.set k { s.monitor.entry k with state := .empty }
                  ∧ Did (endingCapture ++ [.fifo, .timer, .lesson, .decisions, .index])
                      [fieldWrite 1 1 0, writeOf (0x1000 + 64 * k) [0#8], fieldWrite 2 1 0]
                      [(.capture, .captureMissed, 7, s.capture.context.page, s.capture.context.reason.value),
                       (.capture, .lessonEnded, 0, s.capture.counter, 0)] s t)))

/-! ## Render jobs -/

/-- JOB_ADD makes the entries its argument names PENDING, in increasing order, but for those PENDING or RUNNING already. JOB_CANCEL acts on
the entries its argument names in increasing number: the PENDING ones end CANCELLED with reason HOST, and a scan in progress will not
start them; the RUNNING one, named alone or with others, is stopped, at once in its place among them when no piece of it is in progress,
otherwise at the completion of that piece, and goes on where it is not named. A stop already pending keeps its reason. (A capture that
waits for the pin of the job that ends: CapturesThatWaitAreServedOrMissed.) (That an entry which the scan has not reached can be added
again and read is assumption log 48, DESIGN CHOICE.) -/
def Obligations.JobsAreAddedAndCancelled : Prop :=
  ∀ (s : State) (w : Word) (rest : List Word), s.control.mode = .standby ∨ s.control.mode = .live → postArgument w ≠ 0 →
    s.jobs.entries.length = 16 →
    (s.holdsWord 8 w rest →
      let taken := (List.range 16).filter fun n =>
        (postArgument w).testBit n && decide ((s.jobs.entry n).state ≠ .pending) && decide ((s.jobs.entry n).state ≠ .running)
      Completes .jobAdd s fun t =>
        Took rest s t ∧ t.post.inHand = none
          ∧ (∀ n, n < 16 → t.jobs.entry n = if n ∈ taken then ⟨.pending, 0, 0, 255⟩ else s.jobs.entry n)
          ∧ Did [.fifo, .timer, .jobEntries] (taken.map fun n => outcomeOp n 1 0 0 255) [] s t)
    ∧ (s.holdsWord 9 w rest →
      let ended := (List.range 16).filter fun n =>
        (postArgument w).testBit n && decide ((s.jobs.entry n).state = .pending)
      let dropped (t : State) : Prop := ∀ x, s.jobs.scan = some x →
        ∃ y, t.jobs.scan = some y ∧ y.reading = x.reading ∧ y.got = x.got ∧ y.void = x.void
          ∧ ∀ n, n ∈ y.dropped ↔ n ∈ x.dropped ∨ (n ∈ ended ∧ (x.reading = some n ∨ ∃ q, (n, q) ∈ x.got))
      let cancelled (t : State) : Prop :=
        Took rest s t ∧ t.post.inHand = none ∧ dropped t
          ∧ ∀ n, n < 16 → t.jobs.entry n = if n ∈ ended then ⟨.cancelled, 10, 0, 255⟩ else s.jobs.entry n
      let ops : List RecordOp := ended.map fun n => outcomeOp n 4 10 0 255
      let news : List (Block × EventKind × Nat × Nat × Nat) := ended.map fun n => (.jobs, .jobEnd, n, 4, 10)
      (s.jobs.running = none →
        Completes .jobCancel s fun t => cancelled t ∧ Did [.fifo, .timer, .jobEntries] ops news s t)
      ∧ ∀ j, s.jobs.running = some j → j.entry < 16 → (∀ n, n < 16 → ((s.jobs.entry n).state = .running ↔ n = j.entry)) →
          ((postArgument w).testBit j.entry = false →
            Completes .jobCancel s fun t => cancelled t ∧ Did [.fifo, .timer, .jobEntries] ops news s t)
          ∧ ((postArgument w).testBit j.entry = true → s.jobPieceInProgress = true ∨ j.stop ≠ none →
            Completes .jobCancel s fun t =>
              cancelled t ∧ t.jobs.running = some { j with stop := some (j.stop.getD 10) }
                ∧ Did [.fifo, .timer, .jobEntries, .runningJob] ops news s t)
          ∧ ((postArgument w).testBit j.entry = true → s.jobPieceInProgress = false → j.stop = none → s.noOneToServe j →
            let ending := (List.range 16).filter fun n => decide (n ∈ ended ∨ n = j.entry)
            let pieces (n : Nat) : Nat := if n = j.entry then j.done else 0
            Completes .jobCancel s fun t =>
              Took rest s t ∧ t.post.inHand = none ∧ dropped t ∧ JobEnded s t j
                ∧ (∀ n, n < 16 → t.jobs.entry n = if n ∈ ending then ⟨.cancelled, 10, pieces n, 255⟩ else s.jobs.entry n)
                ∧ Did [.fifo, .timer, .jobEntries, .runningJob, .slots] (ending.map fun n => outcomeOp n 4 10 (pieces n) 255)
                    (ending.map fun n => (.jobs, .jobEnd, n, 4, 10)) s t))

/-- The engine's taking of work, and a scan. An engine that is IDLE takes the strip requested; with none offered, the next capture piece;
with none of those, the next piece of the running job, a signature piece or a job piece, unless it is held back: outside LIVE, while
degraded, or with a stop pending; and otherwise it grants a scan. Each unit has the parts that R71, R64 and R66 give it, with the levels
latched at that moment, and its owner's next piece is the one after it; a unit in progress goes on. Where a scan is granted the request
of the lowest PENDING entry is read; each burst of a request brings its 48 bytes to the scan and goes on to the next PENDING entry in
increasing number. A request that meets an uncorrectable word is reported, its entry ends FAILED with reason MEMORY at once, and the
scan goes on. The end of a scan: of the requests read, but for the RENDER_LIVE ones that could get no pin, the one of the lowest
priority number is chosen, the lowest entry between equal ones. It fails with the first test of R138 that fails, or becomes RUNNING with
its render, a RENDER_LIVE job with its pin on the newest slot. Nothing starts outside LIVE, while degraded, with a job RUNNING, if the
entry is no longer PENDING, if a JOB_CANCEL ended it during the scan, or if STANDBY or SHUTTING was entered or the degraded flag set
during it. (That the capture unit and the job runner offer no work while they wait for room in the record queue is the model's choice,
assumption log 22; that the runner asks for a scan by the mode it has been told of, assumption log 15; that a JOB_CANCEL counts for the
entries that the scan has read or is reading, assumption log 48.) -/
def Obligations.AScanChoosesAndStartsAJob : Prop :=
  let request (k : Nat) : RecordOp := .read (.job k) (0x800 + 64 * k) []
  let pending (s : State) (k : Nat) : Prop := (s.jobs.entry k).state = .pending
  (∀ s : State,
    (∀ u, s.engine.unit = some u → s.takeWork = s)
    ∧ (s.engine.unit = none →
      let t := s.takeWork
      let begun (w : Work) (parts : List Part) (moved : List Piece) : Prop :=
        t.engine = { s.engine with unit := some (freshUnit w parts) } ∧ Unchanged ([.unit, .arbiter] ++ moved) s t
      (∀ k b, s.control.mode = .live → s.feeder.request = some ⟨k, b⟩ → begun (.strip k b) (s.stripParts k) [])
      ∧ (¬ s.stripStands → s.captureStands → ∀ r, s.capture.context.render = some r →
          let n := s.capture.context.next
          begun (.capturePiece n) [pieceAt r (stretchAt r s.monitor.levels) r.wp r.hp n] [.context]
            ∧ t.capture.context = { s.capture.context with next := n + 1 })
      ∧ (¬ s.stripStands → ¬ s.captureStands →
          (s.jobStands → ∀ j, s.jobs.running = some j →
            begun (s.jobWork j).1 [(s.jobWork j).2] [.runningJob] ∧ t.jobs.running = some { j with next := j.next + 1 })
          ∧ (s.scanStands → ∀ k, k < 16 → pending s k → (∀ m, m < k → ¬ pending s m) →
              t.jobs.scan = some ⟨some k, [], false, []⟩ ∧ Unchanged [.arbiter, .scan, .records] s t
                ∧ (s.roomFor 1 → t.ops = s.ops ++ [request k]))
          ∧ (¬ s.jobStands → ¬ s.scanStands → t = s))))
  ∧ (∀ (s : State) (g : Grant) (b : EngineBurst) (k : Nat) (later : List RecordOp) (x : Scan), s.port.grant = some g → g.who = .record →
    s.port.queue = request k :: later → later.length + 2 ≤ 32 → s.noneWait → s.jobs.scan = some x → s.jobs.entries.length = 16 → k < 16 →
    let a := 0x800 + 64 * k
    let performed (t : State) : Prop :=
      t.control.safe = s.control.safe ∧ t.control.shuttingFrames = s.control.shuttingFrames
        ∧ t.control.safeAfter = s.control.safeAfter.map (· - 1)
    -- the scan goes on with these requests read, behind these operations
    let goesOn (got : List (Nat × Request)) (ops : List RecordOp) (t : State) : Prop :=
      performed t
        ∧ (∀ n, k < n → n < 16 → pending s n → (∀ m, k < m → m < n → ¬ pending s m) →
            t.jobs.scan = some { x with reading := some n, got := got } ∧ t.ops = later ++ ops ++ [request n])
        ∧ ((∀ n, k < n → n < 16 → ¬ pending s n) → t.jobs.scan = some { x with reading := none, got := got } ∧ t.ops = later ++ ops)
    (s.cleanWords a 48 →
      Completes (.memoryBurstComplete [] b) s fun t =>
        goesOn (x.got ++ [(k, parseRequest ((List.range 48).map fun i => s.mem.read (a + i)))]) [] t
          ∧ t.news = s.news ∧ Unchanged (.safety :: takingWork) s t)
    ∧ ∀ w, w ∈ s.port.bad → a / 4 ≤ w → 4 * w < a + 48 → (∀ y, a / 4 ≤ y → y < w → y ∉ s.port.bad ∧ y ∉ s.port.weak) →
        pending s k →
      Completes (.memoryBurstComplete [] b) s fun t =>
        goesOn x.got [outcomeOp k 5 9 0 255] t ∧ t.jobs.entry k = ⟨.failed, 9, 0, 255⟩ ∧ (∀ m, m ≠ k → t.jobs.entry m = s.jobs.entry m)
          ∧ FaultReported s t 0
          ∧ t.news = s.news ++ [(.memory, .memoryFault, 2, 4 * w, t.port.uncorrectable), (.jobs, .jobEnd, k, 5, 9)]
          ∧ Unchanged (.safety :: .jobEntries :: .errors :: .cause :: takingWork) s t)
  ∧ ∀ (s : State) (scan : Scan), s.jobs.scan = some scan → scan.reading = none → s.free .jobs = true → s.jobs.entries.length = 16 →
    let got := scan.got
    ((∀ e ∈ got, s.skipped e.2 = true) →
      Completes .jobScanDone s fun t => Did [.scan] [] [] s t)
    ∧ ∀ n r, (n, r) ∈ got → got.Pairwise (fun a b => a.1 < b.1) → s.skipped r = false → n < 16 →
        (∀ m q, (m, q) ∈ got → s.skipped q = false → r.priority < q.priority ∨ (r.priority = q.priority ∧ n ≤ m)) →
        let startable : Prop := scan.void = false ∧ n ∉ scan.dropped ∧ (s.jobs.entry n).state = .pending ∧ s.jobs.view = .live
            ∧ s.control.mode = .live
          ∧ s.feeder.degraded = false ∧ s.jobs.running = none
        let bytes := if r.kind = 2 then 48 else 2 * r.wd * r.hd
        let inside (a n : Nat) : Prop :=
          a + n ≤ 0x10000000 ∧ (n = 0 ∨ (0x10000 ≤ a ∧ (a + n ≤ 0x1000000 ∨ 0x8800000 ≤ a)))
        let source := 2 * r.ws * r.hs
        let reason :=
          if 2 < r.kind then 1
          else if (r.kind ≠ 1 ∧ ¬ (r.ws % 2 = 0 ∧ 16 ≤ r.ws ∧ r.ws ≤ 4096 ∧ 16 ≤ r.hs ∧ r.hs ≤ 3072))
              ∨ (r.kind ≠ 2 ∧ ¬ (r.wd % 2 = 0 ∧ 16 ≤ r.wd ∧ r.wd ≤ 4096 ∧ 8 ≤ r.hd ∧ r.hd ≤ 3072)) then 2
          else if ¬ (inside r.destination bytes ∧ (r.kind = 1 ∨ (inside r.source source
              ∧ (r.destination + bytes ≤ r.source ∨ r.source + source ≤ r.destination)))) then 3
          else if r.capacity < bytes then 4
          else if r.kind = 1 ∧ s.intake.newest = none then 5
          else if r.kind = 2 ∧ r.indexOption = true ∧ s.capture.lessonOpen = false then 6
          else if r.kind = 2 ∧ r.indexOption = true ∧ r.page = 0 then 7
          else 0
        (¬ startable → Completes .jobScanDone s fun t => Did [.scan] [] [] s t)
        ∧ (startable → reason ≠ 0 →
          Completes .jobScanDone s fun t =>
            t.jobs.entry n = ⟨.failed, reason, 0, 255⟩ ∧ (∀ m, m ≠ n → t.jobs.entry m = s.jobs.entry m)
              ∧ Did [.scan, .jobEntries] [outcomeOp n 5 reason 0 255] [(.jobs, .jobEnd, n, 5, reason)] s t)
        ∧ (startable → reason = 0 →
          let profile := s.post.setup.profile r.profile
          let started (address : Nat) (g : Geometry) (pin : Option Nat) (total : Nat) (t : State) : Prop :=
            t.jobs.entry n = ⟨.running, 0, 0, 255⟩ ∧ (∀ m, m ≠ n → t.jobs.entry m = s.jobs.entry m)
              ∧ ∃ next, next ≤ 1 ∧ t.jobs.running = some
                  { entry := n, kind := if r.kind = 0 then .stored else if r.kind = 1 then .live else .signature
                    indexOption := r.indexOption, page := r.page, total := total, next := next, done := 0, stop := none, pin := pin
                    sums := List.replicate 192 0
                    render :=
                      { source := address, ws := g.w, hs := g.h, wp := r.wd, hp := r.hd, zoom := r.zoom, cx := r.cx, cy := r.cy
                        gain := profile.1, coring := profile.2
                        mode := if r.mode = 1 then .auto else if r.mode = 2 then .fixed else .none
                        black := r.black, white := r.white, copy := none, background := ⟨16, 128, 128⟩
                        destination := r.destination } }
          let pieces (w h : Nat) : Nat := (w + 1023) / 1024 * ((h + 7) / 8)
          (r.kind ≠ 1 →
            Completes .jobScanDone s fun t =>
              started r.source ⟨r.ws, r.hs⟩ none (if r.kind = 0 then pieces r.wd r.hd else pieces r.ws r.hs) t
                ∧ Did [.scan, .jobEntries, .runningJob] [outcomeOp n 2 0 0 255] [] s t)
          ∧ (r.kind = 1 → ∀ m g, s.intake.newest = some m → (s.intake.slot m).geometry = some g →
            Completes .jobScanDone s fun t =>
              started (0x1000000 + 0x1800000 * m) g (some m) (pieces r.wd r.hd) t
                ∧ t.intake.slots = s.intake.slots.modify m (fun x => { x with pinJob := true })
                ∧ t.intake.newest = s.intake.newest ∧ t.intake.hold = s.intake.hold
                ∧ Did [.scan, .jobEntries, .runningJob, .slots] [outcomeOp n 2 0 0 255] [] s t))

/-- A job piece completes: its bytes stand at the destination, each at the address that R63 and R151 give its pixel, and the engine goes on
with what R94 gives next. If it is not the last its count is written and the job goes on; the last piece ends the job DONE, and a
pending stop ends it CANCELLED with the stop's reason, after the count where the piece was not the last. A faulted piece, in a burst of
the engine or at the completion, ends it FAILED with reason MEMORY. The pin of a RENDER_LIVE job is released last (a capture that waits
for it: CapturesThatWaitAreServedOrMissed; in SHUTTING, the end that makes the test of R187 hold: ShutdownAwaitsTheLastPiece). (That the
completion makes the reads no burst has made, and meets their errors in address order, is the model's choice, assumption logs 7 and 14.)
(That a write of a record's state carries only the fields that change is assumption log 35, DESIGN CHOICE.) -/
def Obligations.JobPiecesComplete : Prop :=
  ∀ (s : State) (u : EngineUnit) (n : Nat) (j : RunningJob), s.engine.unit = some u → u.work = .jobPiece n →
    s.jobs.running = some j → j.entry < s.jobs.entries.length →
    let others (t : State) : Prop := ∀ m, m ≠ j.entry → t.jobs.entry m = s.jobs.entry m
    let ended (e : JobEntry) (t : State) : Prop := JobEnded s t j ∧ t.jobs.entry j.entry = e ∧ others t
    let counted : RecordOp :=
      writeRuns [(0x800 + 64 * j.entry + 0x34, leBytes 4 (j.done + 1)),
        (0x800 + 64 * j.entry + 0x30, leBytes 1 (s.jobs.entry j.entry).state.value)]
    (s.cleanUnit u →
      (j.stop = none → j.done + 1 < j.total →
        Completes .jobPieceComplete s fun t =>
          UnitWritten s t u ∧ t.tookNext ∧ t.jobs.entry j.entry = { s.jobs.entry j.entry with pieces := j.done + 1 } ∧ others t
            ∧ (∃ next, j.next ≤ next ∧ next ≤ j.next + 1 ∧ t.jobs.running = some { j with done := j.done + 1, next := next })
            ∧ Did [.memory, .jobEntries, .runningJob, .unit] [counted] [] s t)
      ∧ (j.stop = none → j.total ≤ j.done + 1 → s.noOneToServe j → s.upAfterJob →
        Completes .jobPieceComplete s fun t =>
          UnitWritten s t u ∧ t.tookNext ∧ ended ⟨.done, 0, j.done + 1, 255⟩ t
            ∧ Did [.memory, .jobEntries, .runningJob, .slots, .unit] [outcomeOp j.entry 3 0 (j.done + 1) 255]
                [(.jobs, .jobEnd, j.entry, 3, 0)] s t)
      ∧ (∀ reason, j.stop = some reason → s.noOneToServe j → s.upAfterJob →
        Completes .jobPieceComplete s fun t =>
          UnitWritten s t u ∧ t.tookNext ∧ ended ⟨.cancelled, reason, j.done + 1, 255⟩ t
            ∧ Did [.memory, .jobEntries, .runningJob, .slots, .unit]
                ((if j.done + 1 < j.total then [counted] else []) ++ [outcomeOp j.entry 4 reason (j.done + 1) 255])
                [(.jobs, .jobEnd, j.entry, 4, reason)] s t))
    ∧ ∀ cmd x weak, s.faultsAt u .jobPieceComplete cmd x weak → s.noOneToServe j → s.upAfterJob →
        Completes cmd s fun t =>
          ended ⟨.failed, 9, j.done, 255⟩ t ∧ FaultReported s t weak ∧ t.tookNext
            ∧ Did [.jobEntries, .runningJob, .slots, .errors, .cause, .unit] [outcomeOp j.entry 5 9 j.done 255]
                [(.memory, .memoryFault, 1, 4 * x, t.port.uncorrectable), (.jobs, .jobEnd, j.entry, 5, 9)] s t

/-- A signature piece adds its samples to the tile sums, each luma sample once to the sum of its tile: source column x lies in tile column
floor(x / floor(Ws / 16)) and row y in tile row floor(y / floor(Hs / 12)), and a sample right of the sixteenth tile column or below the
twelfth tile row in none. The engine goes on with what R94 gives next. After the last piece the signature is made from the tile means
under levels of their own, 48 bytes of it are written at the destination, and the job ends: DONE, with the index option DONE with the
entry its page was inserted at, or FAILED when no lesson is open or the page is being captured. The insertion takes the entry that holds
the page, or the place of R35 and R36, with INDEX_EVICT for an entry it evicts. A pending stop ends the job CANCELLED, and a faulted
piece ends it FAILED with reason MEMORY. (That the completion makes the reads no burst has made, and meets their errors in address
order, is the model's choice, assumption logs 7 and 14. In SHUTTING, the end that makes the test of R187 hold:
ShutdownAwaitsTheLastPiece.) (That a write of a record's state carries only the fields that change is assumption log 35, DESIGN CHOICE.) -/
def Obligations.SignaturePiecesComplete : Prop :=
  ∀ (s : State) (u : EngineUnit) (n : Nat) (p : Part) (j : RunningJob), s.engine.unit = some u → u.work = .signaturePiece n →
    u.parts = [p] → s.jobs.running = some j → j.entry < s.jobs.entries.length → j.pin = none →
    let clean : Prop := ∀ w, w ∈ s.port.bad ∨ w ∈ s.port.weak → u.needsWord w = false
    let counted : RecordOp :=
      writeRuns [(0x800 + 64 * j.entry + 0x34, leBytes 4 (j.done + 1)),
        (0x800 + 64 * j.entry + 0x30, leBytes 1 (s.jobs.entry j.entry).state.value)]
    -- the source has the size that R138 has checked, and there is a sum for each of the 192 tiles
    let sized : Prop := 16 ≤ p.render.ws ∧ 12 ≤ p.render.hs ∧ j.sums.length = 192
    let sums := (List.range 192).map fun n => j.sums.getD n 0 + p.tileSum (s.getter u) (n % 16) (n / 16)
    let means := sums.map fun x => x / (j.render.ws / 16 * (j.render.hs / 12))
    let sig := signatureOf s.post.setup means (levelsOf s.post.setup means)
    let others (t : State) : Prop := ∀ m, m ≠ j.entry → t.jobs.entry m = s.jobs.entry m
    let ended (e : JobEntry) (t : State) : Prop := t.tookNext ∧ t.jobs.running = none ∧ t.jobs.entry j.entry = e ∧ others t
    let written := writeOf j.render.destination (leBytes 48 sig.toNat)
    let entry : IndexEntry := ⟨.valid, 0, j.page, s.intake.frameNumber, s.intake.frameNumber, j.render.source, sig⟩
    let inserted (k : Nat) (evicted : List (Block × EventKind × Nat × Nat × Nat)) (t : State) : Prop :=
      ended ⟨.done, 0, j.done + 1, k⟩ t ∧ t.monitor.index = s.monitor.index.set k entry
        ∧ t.capture.counter = max s.capture.counter j.page ∧ t.capture.lessonOpen = true
        ∧ Did [.jobEntries, .runningJob, .unit, .lesson, .index]
            (written :: (if s.capture.counter < j.page then [fieldWrite 0x0A 2 j.page] else [])
              ++ [writeRuns [(0x1000 + 64 * k + 1, entry.fieldBytes), (0x1000 + 64 * k, [2#8])],
                outcomeOp j.entry 3 0 (j.done + 1) k])
            (evicted ++ [(.jobs, .jobEnd, j.entry, 3, 0)]) s t
    let holds (k : Nat) : Prop := (s.monitor.entry k).state = .valid ∧ (s.monitor.entry k).page = j.page
    let captured : Prop := ∃ k, (s.monitor.entry k).state = .provisional ∧ (s.monitor.entry k).page = j.page
    (clean → sized → j.stop = none → j.done + 1 < j.total →
      Completes .signaturePieceComplete s fun t =>
        t.tookNext ∧ t.jobs.entry j.entry = { s.jobs.entry j.entry with pieces := j.done + 1 } ∧ others t
          ∧ (∃ next, j.next ≤ next ∧ next ≤ j.next + 1
              ∧ t.jobs.running = some { j with done := j.done + 1, sums := sums, next := next })
          ∧ Did [.jobEntries, .runningJob, .unit] [counted] [] s t)
    ∧ (clean → ∀ reason, j.stop = some reason → s.upAfterJob →
        Completes .signaturePieceComplete s fun t =>
          ended ⟨.cancelled, reason, j.done + 1, 255⟩ t
            ∧ Did [.jobEntries, .runningJob, .unit]
                ((if j.done + 1 < j.total then [counted] else []) ++ [outcomeOp j.entry 4 reason (j.done + 1) 255])
                [(.jobs, .jobEnd, j.entry, 4, reason)] s t)
    ∧ (∀ cmd x weak, s.faultsAt u .signaturePieceComplete cmd x weak → s.upAfterJob →
        Completes cmd s fun t =>
          ended ⟨.failed, 9, j.done, 255⟩ t ∧ FaultReported s t weak
            ∧ Did [.jobEntries, .runningJob, .unit, .errors, .cause] [outcomeOp j.entry 5 9 j.done 255]
                [(.memory, .memoryFault, 1, 4 * x, t.port.uncorrectable), (.jobs, .jobEnd, j.entry, 5, 9)] s t)
    ∧ (clean → sized → j.stop = none → j.total ≤ j.done + 1 → s.upAfterJob →
        (j.indexOption = false →
          Completes .signaturePieceComplete s fun t =>
            ended ⟨.done, 0, j.done + 1, 255⟩ t
              ∧ Did [.jobEntries, .runningJob, .unit] [written, outcomeOp j.entry 3 0 (j.done + 1) 255] [(.jobs, .jobEnd, j.entry, 3, 0)] s t)
        ∧ (j.indexOption = true → s.capture.lessonOpen = false →
          Completes .signaturePieceComplete s fun t =>
            ended ⟨.failed, 6, j.done + 1, 255⟩ t
              ∧ Did [.jobEntries, .runningJob, .unit] [written, outcomeOp j.entry 5 6 (j.done + 1) 255] [(.jobs, .jobEnd, j.entry, 5, 6)] s t)
        ∧ (j.indexOption = true → s.capture.lessonOpen = true →
            (captured →
              Completes .signaturePieceComplete s fun t =>
                ended ⟨.failed, 8, j.done + 1, 255⟩ t
                  ∧ Did [.jobEntries, .runningJob, .unit] [written, outcomeOp j.entry 5 8 (j.done + 1) 255]
                      [(.jobs, .jobEnd, j.entry, 5, 8)] s t)
            ∧ (¬ captured → ∀ k, holds k → (∀ i, i < k → ¬ holds i) → Completes .signaturePieceComplete s (inserted k []))
            ∧ (¬ captured → (∀ k, ¬ holds k) → ∀ k, s.placeIs k →
                Completes .signaturePieceComplete s (inserted k (s.evictNews k)))))

/-- In SHUTTING, with every entry taken, the end of the last capture or job makes the test of R187 hold: the last piece of a RENDERING
capture with no job RUNNING, a capture piece that is faulted, the piece of a job whose stop is pending, or a faulted one, with the
context IDLE. A job piece that completes so has its pixels in place, and a signature piece stores nothing. The part enters POWERDOWN and
raises POWER_SAFE after what that end issues and raises, and the engine, IDLE again, finds no work that is offered in LIVE alone. Where
that end waited for room in the record queue, its admission does. (The model's own readings: that the completion makes the reads no
burst has made, and meets their errors in address order, assumption logs 7 and 14; that the last announcement handed over, with none
kept for the feeder, counts as every entry taken, assumption log 31, DEDUCED; and that the test waits for a block that waits for room,
assumption log 22.) (That of fields not side by side the one at the lower address is written first, where the manual fixes only the
last, is assumption log 35, DESIGN CHOICE.) -/
def Obligations.ShutdownAwaitsTheLastPiece : Prop :=
  ∀ s : State, s.control.mode = .shutting → s.entriesDone = true →
    let down (moved : List Piece) (ops : List RecordOp) (news : List (Block × EventKind × Nat × Nat × Nat)) (t : State) : Prop :=
      PoweredDown s t ∧ t.tookNext ∧ Did (moved ++ [.mode, .announcements, .unit]) (ops ++ powerdownOps) (news ++ s.powerdownNews) s t
    let c := s.capture.context
    (∀ (cmd : Instr) (u : EngineUnit) (n k x weak : Nat) (r : Render) (d : Descriptor), s.engine.unit = some u → u.work = .capturePiece n →
      c.render = some r → c.descriptor = some d → c.entry = some k → c.state = .rendering → 1 ≤ s.capture.credit → s.noDescriptorRead →
      s.jobs.running = none → s.roomFor 4 →
      let flag := if r.mode = .auto ∧ c.levels.valid = true then 2 else 0
      let black := if flag = 2 then c.levels.black else 0
      let white := if flag = 2 then c.levels.white else 0
      (s.cleanUnit u → pieceCount r.wp r.hp ≤ c.done + 1 →
        Completes .capturePieceComplete s fun t =>
          CaptureEnded s t ∧ UnitWritten s t u
            ∧ down (endingCapture ++ [.memory, .index, .chain])
                [writeRuns [(0x1000 + 64 * k + 4, leBytes 4 c.frame), (0x1000 + 64 * k + 12, leBytes 4 d.buffer),
                    (0x1000 + 64 * k, [2#8])],
                 returnOp d 1 (c.reason.value + flag) k c.page black white c.frame ⟨r.wp, r.hp⟩ (2 * r.wp * r.hp),
                 fieldWrite 0x0C 1 (s.capture.credit - 1), fieldWrite 2 1 0]
                [(.capture, .pageCaptured, k, c.page, d.addr)] t)
      ∧ (s.faultsAt u .capturePieceComplete cmd x weak →
          let across := (r.wp + 1023) / 1024
          let bytes := ((List.range c.done).map fun i =>
            2 * min 1024 (r.wp - i % across * 1024) * min 8 (r.hp - i / across * 8)).sum
        Completes cmd s fun t =>
          CaptureEnded s t ∧ FaultReported s t weak
            ∧ down (endingCapture ++ [.index, .chain, .errors, .cause])
                [writeOf (0x1000 + 64 * k) [0#8],
                 returnOp d 3 (c.reason.value + flag) k c.page black white c.frame ⟨r.wp, r.hp⟩ bytes,
                 fieldWrite 0x0C 1 (s.capture.credit - 1), fieldWrite 2 1 0]
                [(.memory, .memoryFault, 1, 4 * x, t.port.uncorrectable), (.capture, .captureFailed, k, c.page, d.addr)] t))
    ∧ (∀ (completion cmd : Instr) (u : EngineUnit) (n x weak : Nat) (j : RunningJob), s.engine.unit = some u →
      ((u.work = .jobPiece n ∧ completion = .jobPieceComplete) ∨ (u.work = .signaturePiece n ∧ completion = .signaturePieceComplete)) →
      s.jobs.running = some j → j.entry < s.jobs.entries.length → c.state = .idle → s.roomFor 2 →
      (s.cleanUnit u → ∀ reason, j.stop = some reason →
        Completes completion s fun t =>
          JobEnded s t j ∧ t.jobs.entry j.entry = ⟨.cancelled, reason, j.done + 1, 255⟩
            ∧ (if completion = .jobPieceComplete then UnitWritten s t u else ∀ a, t.mem.read a = s.mem.read a)
            ∧ down [.memory, .jobEntries, .runningJob, .slots]
                ((if j.done + 1 < j.total then
                  [writeRuns [(0x800 + 64 * j.entry + 0x34, leBytes 4 (j.done + 1)),
                    (0x800 + 64 * j.entry + 0x30, leBytes 1 (s.jobs.entry j.entry).state.value)]] else [])
                  ++ [outcomeOp j.entry 4 reason (j.done + 1) 255])
                [(.jobs, .jobEnd, j.entry, 4, reason)] t)
      ∧ (s.faultsAt u completion cmd x weak →
        Completes cmd s fun t =>
          JobEnded s t j ∧ FaultReported s t weak ∧ t.jobs.entry j.entry = ⟨.failed, 9, j.done, 255⟩
            ∧ down [.jobEntries, .runningJob, .slots, .errors, .cause] [outcomeOp j.entry 5 9 j.done 255]
                [(.memory, .memoryFault, 1, 4 * x, t.port.uncorrectable), (.jobs, .jobEnd, j.entry, 5, 9)] t))
    ∧ ∀ (b : Block) (op : RecordOp), b = .capture ∨ b = .jobs → s.port.blocked = [⟨[b], op⟩] → s.port.later = [] →
        s.port.queue.length < 32 →
        c.state = .idle → s.jobs.running = none →
        Completes .recordQueueAdmit s fun t =>
          PoweredDown s t ∧ t.ops = s.ops ++ powerdownOps ∧ t.news = s.news ++ s.powerdownNews
            ∧ Unchanged (.mode :: .announcements :: takingWork) s t

/-! ## The display feeder -/

/-- The scan-out of a strip that is not the last begins, as the raster reaches it: strip after strip from strip 0, and a strip that is not
the next one changes nothing (the model's choice, assumption logs 4 and 13). Outside a frame of LIVE the port carries blank. In one, the
strip ready in the other buffer is carried and the next is requested into the buffer just freed, or filled with the background at once
when no pane with a source crosses it. A request still outstanding is an underrun: the strip is background, the frame is late, and the
engine abandons it and goes on with what R94 gives next, the strip newly requested first. While a frame turn waits for its layout read
the event waits too; the raster goes on by its own timing, in the output mode of the last frame turn that came (assumption log 13). (A
read that the engine is making for a strip that underruns: MemoryErrorsAreCountedAndReported.) -/
def Obligations.StripsAreScannedOutAndRequested : Prop :=
  ∀ (s : State) (k : Nat),
    let strips := s.frameStrips
    let b := s.feeder.scanning
    let requested (t : State) : Prop :=
      if (∃ p ∈ s.feeder.latched, p.y ≤ 8 * (k + 1) ∧ 8 * (k + 1) < p.y + p.h) then
        t.feeder.request = some ⟨k + 1, b⟩ ∧ t.feeder.bufferA = s.feeder.bufferA ∧ t.feeder.bufferB = s.feeder.bufferB
      else
        t.feeder.request = none
          ∧ t.feeder.bufferA = (if b then s.feeder.bufferA else .solid s.feeder.layout.background)
          ∧ t.feeder.bufferB = (if b then .solid s.feeder.layout.background else s.feeder.bufferB)
    (s.feeder.rasterOn = false ∨ s.feeder.nextStrip ≠ k ∨ strips ≤ k + 1 → exec (.stripScanoutStart k) s = .next s)
    ∧ (s.feeder.rasterOn = true → s.feeder.nextStrip = k → k + 1 < strips →
      (s.feeder.layoutRead ≠ .idle →
        Completes (.stripScanoutStart k) s fun t =>
          t.feeder.nextStrip = k + 1 ∧ t.feeder.deferred = s.feeder.deferred ++ [.scanout k]
            ∧ t.feeder.layoutRead = s.feeder.layoutRead
            ∧ t.feeder.posted = s.feeder.posted ∧ Did [.raster, .frameTurn] [] [] s t)
      ∧ (s.feeder.layoutRead = .idle →
          (s.feeder.view ≠ .live ∨ s.feeder.liveFrame = false →
            Completes (.stripScanoutStart k) s fun t =>
              t.feeder = { s.feeder with nextStrip := k + 1, display := .solid ⟨16, 128, 128⟩ } ∧ Did [.raster, .strips] [] [] s t)
          ∧ (s.feeder.view = .live → s.feeder.liveFrame = true →
              (s.feeder.request = none →
                Completes (.stripScanoutStart k) s fun t =>
                  t.feeder.nextStrip = k + 1 ∧ t.feeder.scanning = !b
                    ∧ t.feeder.display = (if b then s.feeder.bufferA else s.feeder.bufferB) ∧ requested t
                    ∧ t.feeder.latched = s.feeder.latched ∧ Did [.raster, .strips] [] [] s t)
              ∧ (∀ q, s.feeder.request = some q →
                Completes (.stripScanoutStart k) s fun t =>
                  t.feeder.nextStrip = k + 1 ∧ t.feeder.scanning = !b ∧ t.feeder.display = .solid s.feeder.layout.background
                    ∧ requested t ∧ t.feeder.latched = s.feeder.latched
                    ∧ t.feeder.underruns = min 4294967295 (s.feeder.underruns + 1) ∧ t.feeder.faults = s.feeder.faults
                    ∧ t.feeder.late = true ∧ t.feeder.liveFrame = true ∧ t.feeder.degraded = s.feeder.degraded
                    ∧ t.feeder.underrunRun = s.feeder.underrunRun ∧ t.feeder.cleanRun = s.feeder.cleanRun
                    ∧ StripAbandoned s t
                    ∧ Did [.raster, .strips, .lateness, .stripCounts, .unit] [] [] s t))))

/-- The frame turn outside LIVE, which comes as the last strip's scan-out begins: blank, the output mode of the setup, the zoom ramps, and
the output frame counted with its frame fields, the timers of the moderation and of mode control. A posted layout is read first. The
raster then begins at strip 0. Where the last strip is not the next one nothing happens (the model's choice, assumption logs 4 and 13).
(The model's own fields: a holdoff that is reached falls due here and CAUSE is left to HOLDOFF_EXPIRY, where R176 sets EVENTS_READY at
this frame turn, assumption log 9; a pattern whose timeout is due is reported as ended, assumption log 8.) -/
def Obligations.FrameTurnsOutsideLive : Prop :=
  ∀ s : State,
    (s.feeder.rasterOn = false ∨ s.feeder.nextStrip + 1 ≠ s.frameStrips → exec .frameTurn s = .next s)
    ∧ (s.feeder.rasterOn = true → s.feeder.nextStrip + 1 = s.frameStrips → s.feeder.layoutRead = .idle → s.feeder.view ≠ .live →
      s.post.holdoffDue = false →
      let size : Nat → Geometry := fun m => if m = 0 then ⟨1280, 720⟩ else if m = 1 then ⟨1920, 1080⟩ else ⟨1920, 1200⟩
      let m := s.post.setup.outputMode
      let base : Layout :=
        if s.feeder.outputMode = m then s.feeder.layout
        else ⟨0, ⟨16, 128, 128⟩, [⟨0, 0, (size m).w, (size m).h, .live, 1, .none, 0, 0, 0, 0, 256, 256, 26112, 19584, 0, 0⟩]⟩
      let strips (t : State) : Prop :=
        t.feeder.nextStrip = 0 ∧ t.feeder.display = .solid ⟨16, 128, 128⟩ ∧ t.feeder.bufferA = s.feeder.bufferA
          ∧ t.feeder.bufferB = s.feeder.bufferB
          ∧ t.feeder.request = s.feeder.request ∧ t.feeder.scanning = s.feeder.scanning ∧ t.feeder.latched = s.feeder.latched
      (s.feeder.posted = true → s.feeder.view = .standby →
        Completes .frameTurn s fun t =>
          strips t ∧ t.feeder.layoutRead = .waiting ∧ t.feeder.posted = true ∧ t.feeder.deferred = s.feeder.deferred
            ∧ t.feeder.outputMode = m ∧ t.feeder.layout = base ∧ t.feeder.rasterOn = true
            ∧ Did [.raster, .strips, .frameTurn, .layout] [.read .layout 0x400 []] [] s t)
      ∧ (s.feeder.posted = false ∨ s.feeder.view ≠ .standby →
          let n := (s.feeder.frameNumber + 1) % 4294967296
          Completes .frameTurn s fun t =>
            strips t ∧ Counted s t ∧ t.feeder.outputMode = m ∧ t.feeder.rasterOn = true ∧ t.feeder.layout = rampedLayout base
              ∧ Did [.raster, .strips, .layout, .frameNumber, .moderation, .timer, .safety]
                  [writeOf 0x20 (leBytes 4 n ++ leBytes 4 s.intake.frameNumber ++ leBytes 4 s.intake.malformed
                    ++ leBytes 4 s.intake.drops ++ leBytes 4 s.feeder.underruns ++ leBytes 4 s.feeder.faults
                    ++ leBytes 4 s.port.correctable ++ leBytes 4 s.port.uncorrectable ++ leBytes 4 base.generation
                    ++ leBytes 1 base.panes.length ++ leBytes 1 s.monitor.reportedState.value
                    ++ leBytes 1 s.monitor.levels.black ++ leBytes 1 s.monitor.levels.white
                    ++ leBytes 1 (if s.monitor.levels.valid then 1 else 0) ++ List.replicate 7 0#8 ++ List.replicate 32 0#8)]
                  [] s t))

/-- The frame turn in LIVE. The last strip's scan-out begins: it is carried from its buffer, or, with its request outstanding, underruns and
makes the frame late. The ending frame is judged, unless it is the first of LIVE, whose strips no frame turn in LIVE requested: three
late frames in a row set the degraded flag, sixty clean ones clear it. A changed output mode brings the default layout of its raster.
With no layout posted the zoom ramps step, the display hold moves to the newest slot, the sources are latched, the frame is counted, and
strip 0 is requested. A unit in progress goes on, but for a strip that underruns, which the engine abandons; an engine that is IDLE
takes what is offered when it is offered, be it a capture or job piece at steps 1 and 2 of R72, before strip 0 is requested at step 9,
and one that is IDLE at the end finds nothing offered. Which operations the turn itself issues is stated with the engine busy, so that
no scan begins within it; a scan in progress as the degraded flag is set will start nothing. (The model's own fields: a holdoff that is
reached falls due here and CAUSE is left to HOLDOFF_EXPIRY, where R176 sets EVENTS_READY at this frame turn, assumption log 9; a pattern
whose timeout is due is reported as ended, assumption log 8.) -/
def Obligations.FrameTurnsInLive : Prop :=
  ∀ s : State, s.feeder.rasterOn = true →
    s.feeder.nextStrip + 1 = s.frameStrips → s.feeder.layoutRead = .idle → s.feeder.view = .live → (s.feeder.liveFrame = false → s.feeder.request = none) →
    s.post.holdoffDue = false →
    let f := s.feeder
    let size : Nat → Geometry := fun m => if m = 0 then ⟨1280, 720⟩ else if m = 1 then ⟨1920, 1080⟩ else ⟨1920, 1200⟩
    let m := s.post.setup.outputMode
    let base : Layout :=
      if f.outputMode = m then f.layout
      else ⟨0, ⟨16, 128, 128⟩, [⟨0, 0, (size m).w, (size m).h, .live, 1, .none, 0, 0, 0, 0, 256, 256, 26112, 19584, 0, 0⟩]⟩
    let missed : Bool := f.liveFrame && f.request.isSome
    let late : Bool := f.late || missed
    let underruns := if missed then min 4294967295 (f.underruns + 1) else f.underruns
    -- the buffer that strip 0 is requested into
    let free : Bool := if f.liveFrame then f.scanning else !f.scanning
    -- the underrun run, the clean run and the degraded flag after the judgement
    let judged : Nat × Nat × Bool :=
      if !f.liveFrame then (f.underrunRun, f.cleanRun, f.degraded)
      else if late then
        if f.degraded then (f.underrunRun, 0, true)
        else if f.underrunRun + 1 < 3 then (f.underrunRun + 1, f.cleanRun, false) else (0, 0, true)
      else if f.degraded then
        if f.cleanRun + 1 < 60 then (f.underrunRun, f.cleanRun + 1, true) else (0, 0, false)
      else (0, f.cleanRun, false)
    let ops : List RecordOp := if judged.2.2 = f.degraded then [] else [fieldWrite 0x0F 1 (if judged.2.2 then 1 else 0)]
    let news : List (Block × EventKind × Nat × Nat × Nat) :=
      if judged.2.2 = f.degraded then []
      else if judged.2.2 then [(.feeder, .displayDegraded, 0, f.frameNumber, underruns)]
      else [(.feeder, .displayRecovered, 0, f.frameNumber, 0)]
    let busy : Prop := ∃ u, s.engine.unit = some u ∧ (missed = true → ∀ k b, u.work ≠ .strip k b)
    let common (t : State) : Prop :=
      t.feeder.underrunRun = judged.1 ∧ t.feeder.cleanRun = judged.2.1 ∧ t.feeder.degraded = judged.2.2
        ∧ t.feeder.underruns = underruns ∧ t.feeder.faults = f.faults ∧ t.feeder.nextStrip = 0
        ∧ t.feeder.outputMode = m ∧ t.feeder.rasterOn = true ∧ t.feeder.scanning = (!free)
        ∧ t.feeder.display =
            (if !f.liveFrame then .solid ⟨16, 128, 128⟩ else if missed then .solid f.layout.background
             else if f.scanning then f.bufferA else f.bufferB)
        ∧ (busy → t.engine.unit = s.engine.unit
            ∧ t.jobs.scan = (if judged.2.2 = true ∧ f.degraded = false then s.jobs.scan.map (fun x => { x with void := true })
                else s.jobs.scan))
        ∧ (¬ busy → (∀ u', t.engine.unit = some u' → t.justBegun u')
            ∧ (t.engine.unit = none → ¬ t.stripStands ∧ ¬ t.captureStands ∧ ¬ t.jobStands))
    (f.posted = true →
      let changed : List Piece := [.raster, .strips, .lateness, .stripCounts, .frameTurn, .layout]
      Completes .frameTurn s fun t =>
        common t ∧ t.feeder.layoutRead = .waiting ∧ t.feeder.posted = true ∧ t.feeder.deferred = f.deferred
          ∧ t.feeder.request = none ∧ t.feeder.layout = base ∧ t.feeder.liveFrame = f.liveFrame ∧ t.feeder.late = late
          ∧ t.feeder.bufferA = f.bufferA ∧ t.feeder.bufferB = f.bufferB ∧ t.feeder.latched = f.latched
          ∧ Unchanged (changed ++ takingWork) s t
          ∧ (busy → Did changed (ops ++ [.read .layout 0x400 []]) news s t))
    ∧ (f.posted = false →
        let changed : List Piece :=
          [.raster, .strips, .lateness, .stripCounts, .layout, .frameNumber, .moderation, .timer, .safety, .slots]
        let layout := rampedLayout base
        let hold : Option Nat := if (∃ p ∈ layout.panes, p.kind = .live) then s.intake.newest else none
        let slotOf (p : Pane) : Option Nat :=
          match p.kind with | .live => hold | .freeze => s.intake.freezeSlot | .stored => none
        let source (p : Pane) : Option (Nat × Geometry) :=
          match p.kind with
          | .stored => some (p.image, ⟨p.imageW, p.imageH⟩)
          | _ => (slotOf p).map fun n => (0x1000000 + 0x1800000 * n, (s.intake.slot n).geometry.getD ⟨0, 0⟩)
        let latch (p : Pane) : Option LatchedPane :=
          (source p).map fun i =>
            ⟨p.x, p.y, p.w, p.h,
              { source := i.1, ws := i.2.w, hs := i.2.h, wp := p.w, hp := p.h, zoom := p.current, cx := p.cx, cy := p.cy
                gain := (s.post.setup.profile p.profile).1, coring := (s.post.setup.profile p.profile).2, mode := p.mode
                black := p.black, white := p.white, copy := none, background := layout.background, destination := 0 }⟩
        let n := (f.frameNumber + 1) % 4294967296
        Completes .frameTurn s fun t =>
          common t ∧ Counted s t ∧ t.feeder.layout = layout ∧ t.feeder.liveFrame = true ∧ t.feeder.late = false
            ∧ t.intake.hold = hold ∧ t.intake.newest = s.intake.newest ∧ t.intake.slots = s.intake.slots
            ∧ t.feeder.latched = layout.panes.filterMap latch
            ∧ (if (∃ p ∈ t.feeder.latched, p.y ≤ 0 ∧ 0 < p.y + p.h) then
                t.feeder.request = some ⟨0, free⟩ ∧ t.feeder.bufferA = f.bufferA ∧ t.feeder.bufferB = f.bufferB
               else
                t.feeder.request = none
                  ∧ t.feeder.bufferA = (if free then f.bufferA else .solid layout.background)
                  ∧ t.feeder.bufferB = (if free then .solid layout.background else f.bufferB))
            ∧ Unchanged (changed ++ takingWork) s t
            ∧ (busy → ∃ panes : List Byte, panes.length = 32
                ∧ (∀ i p, layout.panes[i]? = some p → i < 4 →
                    (panes.drop (8 * i)).take 4 = leBytes 2 p.current ++ leBytes 1 ((slotOf p).elim 0 (· + 1)) ++ [0#8]
                      ∧ ∀ l, latch p = some l →
                        (panes.drop (8 * i + 4)).take 4 = leBytes 2 l.render.centreX ++ leBytes 2 l.render.centreY)
                ∧ (∀ i, layout.panes.length ≤ i → i < 4 → (panes.drop (8 * i)).take 8 = List.replicate 8 0#8)
                ∧ Did changed
                    (ops ++ [writeOf 0x20 (leBytes 4 n ++ leBytes 4 s.intake.frameNumber ++ leBytes 4 s.intake.malformed
                      ++ leBytes 4 s.intake.drops ++ leBytes 4 underruns ++ leBytes 4 f.faults
                      ++ leBytes 4 s.port.correctable ++ leBytes 4 s.port.uncorrectable ++ leBytes 4 layout.generation
                      ++ leBytes 1 layout.panes.length ++ leBytes 1 s.monitor.reportedState.value
                      ++ leBytes 1 s.monitor.levels.black ++ leBytes 1 s.monitor.levels.white
                      ++ leBytes 1 (if s.monitor.levels.valid then 1 else 0) ++ List.replicate 7 0#8 ++ panes)])
                    news s t))

/-- The layout record has been read. In STANDBY the first check of R76 to R78 that fails refuses it as a whole, and so does a FREEZE pane,
for want of a newest frame (also between the feeder's entry and the intake's, with a mark still on a slot: the model's reading,
assumption log 41, DEDUCED); otherwise it is the working layout, each pane going on from the zoom of the pane of its number. The frame
turn then goes on, with the frame fields of the state it has reached. A record that could not be read is refused with MEMORY. What came
during the wait, here a strip's scan-out, TAKE_LAYOUT or the next frame turn, has been kept, and is acted on after it; a frame turn uses
the output mode that the working setup held as it came, and the raster has run in that mode since (the model's choice, assumption log
13; that TAKE_LAYOUT has left the post port's hand, log 44). In LIVE, with no capture waiting for a pin, a layout that passes the checks
is refused as the settling of the freeze pin says (FreezePinsAreSettled), or becomes the working layout, and the turn goes on as in
LIVE. (How many bytes of the record are read is assumption log 20, DEDUCED. The model's own fields: a holdoff that is reached falls due
here and CAUSE is left to HOLDOFF_EXPIRY, where R176 sets EVENTS_READY at this frame turn, assumption log 9.) -/
def Obligations.LayoutsAreTakenOrRefused : Prop :=
  (∀ s : State, s.feeder.rasterOn = true → s.feeder.nextStrip + 1 = s.frameStrips → s.feeder.layoutRead ≠ .idle →
    Completes .frameTurn s fun t =>
      t.feeder.nextStrip = 0 ∧ t.feeder.deferred = s.feeder.deferred ++ [.turn s.post.setup.outputMode]
        ∧ t.frameMode = s.post.setup.outputMode ∧ t.feeder.layoutRead = s.feeder.layoutRead
        ∧ t.feeder.posted = s.feeder.posted ∧ Did [.raster, .frameTurn] [] [] s t)
  ∧ (∀ (s : State) (before : List Byte) (m : Nat), s.feeder.view = .standby → s.feeder.deferred = [.turn m] →
    s.feeder.layoutRead = .error before → s.post.timer = none → s.post.holdoffDue = false → s.staysUp →
    let size : Geometry := if m = 0 then ⟨1280, 720⟩ else if m = 1 then ⟨1920, 1080⟩ else ⟨1920, 1200⟩
    let once := rampedLayout s.feeder.layout
    let twice := rampedLayout
      (if s.feeder.outputMode = m then once
       else ⟨0, ⟨16, 128, 128⟩, [⟨0, 0, size.w, size.h, .live, 1, .none, 0, 0, 0, 0, 256, 256, 26112, 19584, 0, 0⟩]⟩)
    let n := (s.feeder.frameNumber + 1) % 4294967296
    let fields (layout : Layout) (number : Nat) : RecordOp := writeOf 0x20 ({ s with feeder.layout := layout }.frameFields number)
    Completes .layoutReadDone s fun t =>
      t.feeder.layoutRead = .idle ∧ t.feeder.posted = false ∧ t.feeder.deferred = [] ∧ t.feeder.layout = twice
        ∧ t.feeder.outputMode = m ∧ t.feeder.rasterOn = s.feeder.rasterOn
        ∧ t.feeder.frameNumber = (n + 1) % 4294967296 ∧ t.feeder.display = .solid ⟨16, 128, 128⟩
        ∧ Did [.frameTurn, .layout, .strips, .frameNumber, .timer, .safety] [fields once n, fields twice ((n + 1) % 4294967296)]
            [(.feeder, .layoutRefused, 6, s.feeder.layout.generation, 0)] s t)
  ∧ (∀ s : State, s.feeder.view = .standby → (∀ e ∈ s.feeder.deferred, e = .takeLayout ∨ ∃ k, e = .scanout k) →
    s.post.holdoffDue = false → s.intake.freezeSlot = none → s.staysUp →
    let g := rasterSize s.feeder.outputMode
    let rest (t : State) : Prop :=
      t.feeder.layoutRead = .idle ∧ (t.feeder.posted = true ↔ .takeLayout ∈ s.feeder.deferred) ∧ t.feeder.deferred = [] ∧ Counted s t
        ∧ t.feeder.outputMode = s.feeder.outputMode ∧ t.feeder.rasterOn = s.feeder.rasterOn
        ∧ t.feeder.bufferA = s.feeder.bufferA ∧ t.feeder.bufferB = s.feeder.bufferB ∧ t.feeder.scanning = s.feeder.scanning
        ∧ t.feeder.request = s.feeder.request ∧ t.feeder.latched = s.feeder.latched
        ∧ ((∃ k, .scanout k ∈ s.feeder.deferred ∧ 8 * (k + 1) < g.h) →
            t.feeder.display = .solid ⟨16, 128, 128⟩)
        ∧ ((∀ k, .scanout k ∉ s.feeder.deferred) → t.feeder.display = s.feeder.display)
    let changed : List Piece := [.frameTurn, .layout, .strips, .frameNumber, .moderation, .timer, .safety]
    let fields (layout : Layout) : RecordOp :=
      writeOf 0x20 ({ s with feeder.layout := layout }.frameFields ((s.feeder.frameNumber + 1) % 4294967296))
    let refused (reason generation pane : Nat) : Prop :=
      Completes .layoutReadDone s fun t =>
        rest t ∧ t.feeder.layout = rampedLayout s.feeder.layout
          ∧ Did changed [fields (rampedLayout s.feeder.layout)] [(.feeder, .layoutRefused, reason, generation, pane)] s t
    (∀ before, s.feeder.layoutRead = .error before → refused 6 s.feeder.layout.generation 0)
    ∧ ∀ bytes, s.feeder.layoutRead = .got bytes →
        let count := ofLe ((bytes.drop 7).take 1)
        let generation := ofLe (bytes.take 4)
        let raw (i : Nat) : RawPane := parsePane bytes i
        let rect (i : Nat) : Prop :=
          let p := (raw i).pane
          p.w % 2 = 0 ∧ 64 ≤ p.w ∧ p.h % 8 = 0 ∧ 8 ≤ p.h ∧ p.x % 2 = 0 ∧ p.y % 8 = 0 ∧ p.x + p.w ≤ g.w ∧ p.y + p.h ≤ g.h
        let covers (i x y : Nat) : Prop :=
          let p := (raw i).pane
          p.x ≤ x ∧ x < p.x + p.w ∧ p.y ≤ y ∧ y < p.y + p.h
        let shares (b : Nat) : Prop := ∃ a x y, a < b ∧ covers a x y ∧ covers b x y
        let sourced (i : Nat) : Prop :=
          let p := (raw i).pane
          let bytes := 2 * p.imageW * p.imageH
          (raw i).kindByte = 0 ∨ (raw i).kindByte = 1
            ∨ ((raw i).kindByte = 2 ∧ p.imageW % 2 = 0 ∧ 16 ≤ p.imageW ∧ p.imageW ≤ 4096 ∧ 16 ≤ p.imageH ∧ p.imageH ≤ 3072
                ∧ p.image + bytes ≤ 0x10000000 ∧ 0x10000 ≤ p.image ∧ (p.image + bytes ≤ 0x1000000 ∨ 0x8800000 ≤ p.image))
        (4 < count → refused 1 generation count)
        ∧ (count ≤ 4 →
            (∀ i, i < count → ¬ rect i → (∀ m, m < i → rect m) → refused 1 generation i)
            ∧ ((∀ i, i < count → rect i) →
                (∀ b, b < count → shares b → (∀ m, m < b → ¬ shares m) → refused 2 generation b)
                ∧ ((∀ b, b < count → ¬ shares b) →
                    (∀ i, i < count → ¬ sourced i → (∀ m, m < i → sourced m) → refused 3 generation i)
                    ∧ ((∀ i, i < count → sourced i) →
                        (∀ i, i < count → (raw i).kindByte = 1 → (∀ m, m < i → (raw m).kindByte ≠ 1) → refused 4 generation i)
                        ∧ ((∀ i, i < count → (raw i).kindByte ≠ 1) →
                          let layout := rampedLayout
                            { generation := generation
                              background := ⟨ofLe ((bytes.drop 4).take 1), ofLe ((bytes.drop 5).take 1), ofLe ((bytes.drop 6).take 1)⟩
                              panes := (List.range count).map fun i =>
                                { (raw i).pane with
                                  current := (s.feeder.layout.panes[i]?).elim (raw i).pane.target (·.current) } }
                          Completes .layoutReadDone s fun t =>
                            rest t ∧ t.feeder.layout = layout
                              ∧ Did changed [fields layout] [(.feeder, .layoutTaken, count, generation, 0)] s t))))))
  ∧ ∀ s : State, s.feeder.view = .live → s.feeder.deferred = [] → s.post.holdoffDue = false →
    s.capture.context.state ≠ .waitingPin → s.staysUp →
    -- the frame turn after step 4, with this layout and these slots, with these events
    let goesOn (base : Layout) (slots : List Slot) (news : List (Block × EventKind × Nat × Nat × Nat)) : Prop :=
      let layout := rampedLayout base
      let hold : Option Nat := if (∃ p ∈ layout.panes, p.kind = .live) then s.intake.newest else none
      let shown : State := { s with feeder.layout := layout, intake.slots := slots, intake.hold := hold }
      let latched := layout.panes.filterMap shown.latchPane
      Completes .layoutReadDone s fun t =>
        t.feeder.layoutRead = .idle ∧ t.feeder.posted = false ∧ t.feeder.deferred = [] ∧ Counted s t
          ∧ t.feeder.layout = layout ∧ t.feeder.outputMode = s.feeder.outputMode ∧ t.feeder.rasterOn = s.feeder.rasterOn
          ∧ t.intake.slots = slots ∧ t.intake.hold = hold ∧ t.intake.newest = s.intake.newest
          ∧ t.feeder.latched = latched ∧ t.feeder.liveFrame = true ∧ t.feeder.late = false
          ∧ t.feeder.underrunRun = s.feeder.underrunRun ∧ t.feeder.cleanRun = s.feeder.cleanRun
          ∧ t.feeder.degraded = s.feeder.degraded ∧ t.feeder.scanning = s.feeder.scanning ∧ t.feeder.display = s.feeder.display
          ∧ (if (∃ p ∈ latched, p.y ≤ 0 ∧ 0 < p.y + p.h) then
              t.feeder.request = some ⟨0, !s.feeder.scanning⟩ ∧ t.feeder.bufferA = s.feeder.bufferA ∧ t.feeder.bufferB = s.feeder.bufferB
             else
              t.feeder.request = s.feeder.request
                ∧ (if s.feeder.scanning then t.feeder.bufferA else t.feeder.bufferB) = .solid layout.background
                ∧ (if s.feeder.scanning then t.feeder.bufferB = s.feeder.bufferB else t.feeder.bufferA = s.feeder.bufferA))
          ∧ Did [.frameTurn, .layout, .strips, .lateness, .frameNumber, .moderation, .timer, .safety, .slots]
              [writeOf 0x20 (shown.frameFields ((s.feeder.frameNumber + 1) % 4294967296))] news s t
    let refused (reason generation pane : Nat) : Prop :=
      goesOn s.feeder.layout s.intake.slots [(.feeder, .layoutRefused, reason, generation, pane)]
    (∀ before, s.feeder.layoutRead = .error before → refused 6 s.feeder.layout.generation 0)
    ∧ ∀ bytes, s.feeder.layoutRead = .got bytes →
        let l := parseLayout bytes
        (∀ reason pane, l.failure (rasterSize s.feeder.outputMode) = some (reason, pane) → refused reason l.generation pane)
        ∧ (l.failure (rasterSize s.feeder.outputMode) = none →
            (∀ settled reason i, s.settleFreeze l = (settled, some reason) → l.firstFreeze = some i →
                settled.intake.slots = s.intake.slots →
              refused reason l.generation i)
            ∧ ∀ settled, s.settleFreeze l = (settled, none) →
                goesOn
                  { generation := l.generation, background := l.background
                    panes := l.panes.zipIdx.map fun (p, i) =>
                      { p.pane with current := (s.feeder.layout.panes[i]?).elim p.pane.current (·.current) } }
                  (if l.firstFreeze = none then
                    (match s.intake.freezeSlot with
                      | some o => s.intake.slots.modify o fun x => { x with pinFreeze := false }
                      | none => s.intake.slots)
                   else settled.intake.slots)
                  [(.feeder, .layoutTaken, l.panes.length, l.generation, 0)])

/-- The freeze pin of a layout taken in LIVE. Without a pin the newest slot is pinned, if the pool grants it. With one and the refreeze
flag, a refused request leaves the old pin where it was and refuses the layout with NO_PIN; a granted one, also where another owner
keeps the old slot pinned, moves the pin. A capture that waits for a pin gets it on the newest slot as the old slot is left unpinned,
before the request, which that slot then grants. A layout that needs a pin in STANDBY, or with no slot newest, is refused with NO_FRAME.
(In STANDBY that holds also before the intake has taken its entry, with a mark still on a slot: the model's reading, assumption log 41,
DEDUCED.) -/
def Obligations.FreezePinsAreSettled : Prop :=
  (∀ (s : State) (l : RawLayout) (i : Nat), l.firstFreeze = some i → s.intake.newest = none ∨ s.feeder.view = .standby →
    s.intake.freezeSlot = none ∨ l.refreeze = true → s.settleFreeze l = (s, some 4))
  ∧ ∀ (s : State) (l : RawLayout) (m i : Nat), l.firstFreeze = some i → s.feeder.view = .live → s.intake.newest = some m →
    s.intake.slots.length = 5 → m < 5 →
    let settled := s.settleFreeze l
    (s.intake.freezeSlot = none → (s.intake.slot m).pinned = true ∨ s.intake.pinnedCount < 2 →
      settled = ({ s with intake.slots := s.intake.slots.modify m fun x => { x with pinFreeze := true } }, none))
    ∧ (s.intake.freezeSlot = none → (s.intake.slot m).pinned = false → 2 ≤ s.intake.pinnedCount → settled = (s, some 5))
    ∧ (∀ o, s.intake.freezeSlot = some o → l.refreeze = false → settled = (s, none))
    ∧ (∀ o, s.intake.freezeSlot = some o → l.refreeze = true → (s.intake.slot o).pinCapture = true ∨ (s.intake.slot o).pinJob = true →
        (s.intake.slot m).pinned = false → 2 ≤ s.intake.pinnedCount → settled = (s, some 5))
    ∧ (∀ o, s.intake.freezeSlot = some o → l.refreeze = true → (s.intake.slot o).pinCapture = true ∨ (s.intake.slot o).pinJob = true →
        (s.intake.slot m).pinned = true ∨ s.intake.pinnedCount < 2 →
        settled = ({ s with intake.slots :=
          (s.intake.slots.modify o fun x => { x with pinFreeze := false }).modify m fun x => { x with pinFreeze := true } }, none))
    ∧ (∀ o, s.intake.freezeSlot = some o → l.refreeze = true → (s.intake.slot o).pinCapture = false → (s.intake.slot o).pinJob = false →
        s.capture.context.state = .waitingPin → s.intake.pinnedCount ≤ 2 →
        settled =
          ({ ({ s with intake.slots := s.intake.slots.modify o fun x => { x with pinFreeze := false } }.capturePinned m) with
            intake.slots :=
              ({ s with intake.slots := s.intake.slots.modify o fun x => { x with pinFreeze := false } }.capturePinned m).intake.slots.modify m
                fun x => { x with pinFreeze := true } }, none))
    ∧ (∀ o, s.intake.freezeSlot = some o → l.refreeze = true → (s.intake.slot o).pinCapture = false → (s.intake.slot o).pinJob = false →
        s.capture.context.state ≠ .waitingPin → s.intake.pinnedCount ≤ 2 →
        settled = ({ s with intake.slots :=
          (s.intake.slots.modify o fun x => { x with pinFreeze := false }).modify m fun x => { x with pinFreeze := true } }, none))

/-- A strip completes: its request is done and its buffer holds, on every pixel, the value of the pane that covers it or the background
colour. A strip whose reading meets an uncorrectable word, in a burst of the engine or at the completion, is background, counted as a
strip fault and not as an underrun. Either way the engine goes on with what R94 gives next. (That the completion makes the reads no
burst has made, and meets their errors in address order, is the model's choice, assumption logs 7 and 14. The burst does not end the
shutdown.) -/
def Obligations.StripsCompleteOrFault : Prop :=
  ∀ (s : State) (u : EngineUnit) (k : Nat) (b : Bool), s.engine.unit = some u → u.work = .strip k b →
    let width := (rasterSize s.feeder.outputMode).w
    let kept (t : State) : Prop :=
      t.feeder.scanning = s.feeder.scanning ∧ t.feeder.display = s.feeder.display ∧ t.feeder.latched = s.feeder.latched
        ∧ (if b then t.feeder.bufferA = s.feeder.bufferA else t.feeder.bufferB = s.feeder.bufferB)
    let buffer (t : State) : StripImage := if b then t.feeder.bufferB else t.feeder.bufferA
    ((∀ w, w ∈ s.port.bad ∨ w ∈ s.port.weak → u.needsWord w = false) →
      Completes .stripComplete s fun t =>
        t.feeder.request = none ∧ t.tookNext ∧ kept t
          ∧ (∃ luma chroma, buffer t = .pixels luma chroma ∧ luma.length = 8 * width ∧ chroma.length = 8 * width
              ∧ ∀ x y, x < width → y < 8 →
                let inPane (p : Part) : Prop := p.rasterX ≤ x ∧ x < p.rasterX + p.cols
                ((∀ p ∈ u.parts, ¬ inPane p) →
                  luma.getD (y * width + x) 0 = s.feeder.layout.background.y
                    ∧ chroma.getD (y * width + x) 0 =
                        if x % 2 = 0 then s.feeder.layout.background.cb else s.feeder.layout.background.cr)
                ∧ ∀ p ∈ u.parts, inPane p → (∀ q ∈ u.parts, inPane q → q = p) →
                    luma.getD (y * width + x) 0 = p.luma (s.getter u) (x - p.rasterX) (p.row + y)
                      ∧ chroma.getD (y * width + x) 0 = p.chroma (s.getter u) (x % 2) (x - p.rasterX) (p.row + y))
          ∧ Did [.strips, .unit] [] [] s t)
    ∧ ∀ cmd w weak, s.faultsAt u .stripComplete cmd w weak → cmd = .stripComplete ∨ s.staysUp →
        Completes cmd s fun t =>
          t.feeder.request = none ∧ t.tookNext ∧ kept t ∧ buffer t = .solid s.feeder.layout.background
            ∧ t.feeder.faults = min 4294967295 (s.feeder.faults + 1) ∧ t.feeder.underruns = s.feeder.underruns
            ∧ FaultReported s t weak
            ∧ Did [.strips, .stripCounts, .errors, .cause, .unit] [] [(.memory, .memoryFault, 1, 4 * w, t.port.uncorrectable)] s t

/-! ## The resampling arithmetic -/

/-- The geometry and the values of a render whose parameters lie in the ranges of R45. The window covers the source at a zoom of 256 (R46)
and the step is the fit step × 256 over the zoom clamped into 256..4096, floored (R47); a window no wider than the source is about the
requested centre, with its origin clamped to the nearest bound, and lies inside the source, and a wider one is centred on it (R48 to
R50); the centre used is the window's own centre floored to 1/16 pixel, the one requested when no clamp was needed (R51). A pixel is
inside by its centre, and its value is the four samples beside it blended by its weights, the rows and columns clamped into the source
(R52 to R55); the chroma of a pair is that of its even pixel, at half the position (R56); a pixel that is not inside is background, and
so is a pair whose even pixel is (R57); the blur takes the eight neighbours, clamped into the target, with the pixel's own value for a
background one (R58, R59). No byte outside the source image is read (R54, R56), and with a gain the luma of the whole margin of a unit
is (R65); every value lies in 0..255 (R55, R58, R62); and the pieces take each pixel once (R64). -/
def Obligations.RendersStayWithinSourceAndTarget : Prop :=
  (∀ r : Render, 16 ≤ r.ws → r.ws ≤ 4096 → r.ws % 2 = 0 → 16 ≤ r.hs → r.hs ≤ 3072 → 16 ≤ r.wp → r.wp ≤ 4096 → r.wp % 2 = 0 → 8 ≤ r.hp →
    r.hp ≤ 3072 →
    -- the origin of a window about this centre, or the bound of 0..extent − window that it lies beyond
    let nearest (extent window c : Nat) : Int :=
      let asked : Int := (c * 4096 : Nat) - (window / 2 : Nat)
      if asked < 0 then 0 else if (extent - window : Nat) < asked then (extent - window : Nat) else asked
    (r.ws * 65536 ≤ r.fitStep * r.wp ∧ r.hs * 65536 ≤ r.fitStep * r.hp
      ∧ ((r.fitStep - 1) * r.wp < r.ws * 65536 ∨ (r.fitStep - 1) * r.hp < r.hs * 65536)
      ∧ 256 ≤ r.fitStep ∧ r.fitStep ≤ 25165824 ∧ r.fitStep / 16 ≤ r.step ∧ r.step ≤ r.fitStep ∧ 16 ≤ r.step
      ∧ r.step = r.fitStep * 256 / max 256 (min 4096 r.zoom))
    ∧ (r.wp * r.step ≤ r.ws * 65536 →
        r.originX = nearest (r.ws * 65536) (r.wp * r.step) r.cx
          ∧ 0 ≤ r.originX ∧ r.originX + (r.wp * r.step : Nat) ≤ (r.ws * 65536 : Nat) ∧ (∀ i, i < r.wp → r.columnInside i = true)
          ∧ (r.wp * r.step / 2 ≤ r.cx * 4096 → r.cx * 4096 + (r.wp * r.step - r.wp * r.step / 2) ≤ r.ws * 65536 → r.centreX = r.cx))
    ∧ (r.ws * 65536 < r.wp * r.step → 2 * r.originX = (r.ws * 65536 : Nat) - (r.wp * r.step : Nat))
    ∧ (r.hp * r.step ≤ r.hs * 65536 →
        r.originY = nearest (r.hs * 65536) (r.hp * r.step) r.cy
          ∧ 0 ≤ r.originY ∧ r.originY + (r.hp * r.step : Nat) ≤ (r.hs * 65536 : Nat) ∧ (∀ j, j < r.hp → r.rowInside j = true)
          ∧ (r.hp * r.step / 2 ≤ r.cy * 4096 → r.cy * 4096 + (r.hp * r.step - r.hp * r.step / 2) ≤ r.hs * 65536 → r.centreY = r.cy))
    ∧ (r.hs * 65536 < r.hp * r.step →
        2 * r.originY ≤ (r.hs * 65536 : Nat) - (r.hp * r.step : Nat)
          ∧ ((r.hs * 65536 : Nat) : Int) - (r.hp * r.step : Nat) < 2 * r.originY + 2)
    ∧ (r.centreX : Int) = (r.originX + (r.wp * r.step / 2 : Nat)) / 4096
    ∧ (r.centreY : Int) = (r.originY + (r.hp * r.step / 2 : Nat)) / 4096
    ∧ (∀ (p : Part) (rd : Getter) (i j : Nat), p.render = r → i < r.wp → j < r.hp →
        let cx : Int := r.originX + (i * r.step : Nat) + (r.step / 2 : Nat)
        let cy : Int := r.originY + (j * r.step : Nat) + (r.step / 2 : Nat)
        let u := cx - 32768
        let v := cy - 32768
        let weight (x : Int) : Nat := (x % 65536 / 256).toNat
        let clamp (x : Int) (n : Nat) : Nat := (max 0 (min x (n - 1))).toNat
        -- four samples at a column and the next, and a row and the next, blended by these weights
        let blended (sample : Int → Int → Nat) (x y : Int) (fx fy : Nat) : Nat :=
          ((sample x y * (256 - fx) + sample (x + 1) y * fx) * (256 - fy)
            + (sample x (y + 1) * (256 - fx) + sample (x + 1) (y + 1) * fx) * fy + 32768) / 65536
        let luma (x y : Int) : Nat := rd (r.source + clamp y r.hs * r.ws + clamp x r.ws)
        let chroma (c : Nat) (x y : Int) : Nat := rd (r.source + r.ws * r.hs + clamp y r.hs * r.ws + 2 * clamp x (r.ws / 2) + c)
        let c := r.interpolate rd i j
        let near (dx dy : Int) : Nat :=
          if r.inside (clamp (i + dx) r.wp) (clamp (j + dy) r.hp) then r.interpolate rd (clamp (i + dx) r.wp) (clamp (j + dy) r.hp) else c
        (r.inside i j = true ↔ 0 ≤ cx ∧ cx < (r.ws * 65536 : Nat) ∧ 0 ≤ cy ∧ cy < (r.hs * 65536 : Nat))
          ∧ c = blended luma (u / 65536) (v / 65536) (weight u) (weight v)
          ∧ (∀ k, r.chroma rd k i j = blended (chroma k) (u / 2 / 65536) (v / 65536) (weight (u / 2)) (weight v))
          ∧ r.sharpen rd i j =
              (if r.gain = 0 then c
               else
                sharpenValue c
                  ((4 * c + 2 * (near 0 (-1) + near 0 1 + near 1 0 + near (-1) 0)
                    + (near 1 (-1) + near (-1) (-1) + near 1 1 + near (-1) 1) + 8) / 16) r.gain r.coring)
          ∧ p.luma rd i j = (if r.inside i j then stretchValue p.stretch (r.sharpen rd i j) else r.background.y)
          ∧ ∀ k, p.chroma rd k i j =
              if r.inside (i - i % 2) j then r.chroma rd k (i - i % 2) j
              else if k = 0 then r.background.cb else r.background.cr)
    ∧ (∀ p : Part, p.render = r → (∀ a ∈ p.reads, r.source ≤ a ∧ a < r.source + 2 * r.ws * r.hs)
        ∧ (r.gain ≠ 0 → ∀ i j, i < r.wp → j < r.hp → p.col ≤ i + 1 → i ≤ p.col + p.cols → p.row ≤ j + 1 → j ≤ p.row + p.rows →
            ∀ a ∈ r.lumaReads i j, a ∈ p.reads))
    ∧ ∀ x y, x < r.wp → y < r.hp →
        ∃ n, n < pieceCount r.wp r.hp
          ∧ ∀ m, ((pieceArea r.wp r.hp m).1 ≤ x ∧ x < (pieceArea r.wp r.hp m).1 + (pieceArea r.wp r.hp m).2.1
              ∧ (pieceArea r.wp r.hp m).2.2.1 ≤ y ∧ y < (pieceArea r.wp r.hp m).2.2.1 + (pieceArea r.wp r.hp m).2.2.2) ↔ m = n)
  ∧ (∀ (p00 p10 p01 p11 fx fy lo hi : Nat), fx ≤ 256 → fy ≤ 256 → lo ≤ p00 → lo ≤ p10 → lo ≤ p01 → lo ≤ p11 →
      p00 ≤ hi → p10 ≤ hi → p01 ≤ hi → p11 ≤ hi → lo ≤ blend p00 p10 p01 p11 fx fy ∧ blend p00 p10 p01 p11 fx fy ≤ hi)
  ∧ (∀ (c blur gain coring : Nat), sharpenValue c blur gain coring ≤ 255
      ∧ (c ≤ 255 → (c ≤ blur + coring → blur ≤ c + coring → sharpenValue c blur gain coring = c)
          ∧ (blur + coring < c → sharpenValue c blur gain coring = min 255 (c + ((c - blur - coring) * gain + 8) / 16))
          ∧ (c + coring < blur → sharpenValue c blur gain coring = c - ((blur - c - coring) * gain + 8) / 16)))
  ∧ ∀ (b w out : Nat), b < w →
      stretchValue none out = out ∧ stretchValue (some (b, w)) out ≤ 255
        ∧ (out ≤ b → stretchValue (some (b, w)) out = 0) ∧ (w ≤ out → stretchValue (some (b, w)) out = 255)
        ∧ (b ≤ out → out ≤ w → stretchValue (some (b, w)) out = ((out - b) * 255 + (w - b) / 2) / (w - b))

/-! ## What every step keeps -/

/-- At no time are more than two frame slots pinned: every step keeps the invariant, from every state that has it. The invariant names,
beside the count, what keeps a release from serving a capture beside two pinned slots (Safety.lean). And every step keeps what R8 says
of the slots: a slot that is newest, held for display or pinned is COMPLETE, and each owner holds at most one pin. -/
def Obligations.NoStepPinsAThirdSlot : Prop :=
  (∀ s t : State, s.pinsOk → step s = .next t → t.pinsOk) ∧ ∀ s t : State, s.slotsOk → step s = .next t → t.slotsOk

/-- Every step keeps shared memory in its canonical form, with no byte listed outside the address space. -/
def Obligations.EveryStepKeepsMemoryCanonical : Prop := ∀ s t : State, s.memoryOk → step s = .next t → t.memoryOk

/-- Every step keeps the event queue in its ring, put standing the fill level after get, and every counter and buffer within its size. And
every step keeps the next strip one of the output mode that the raster runs in, so that the raster always goes on (R68; that mode, while
a frame turn waits for its layout read, is the model's choice, assumption log 13). -/
def Obligations.EveryStepKeepsQueuesInBounds : Prop :=
  (∀ s t : State, s.queueOk → s.boundsOk → step s = .next t → t.queueOk ∧ t.boundsOk)
    ∧ (∀ s t : State, s.rasterOk → step s = .next t → t.rasterOk)
    ∧ ∀ s : State, s.rasterOk → s.feeder.rasterOn = true →
      (s.feeder.nextStrip + 1 = s.frameStrips → Completes .frameTurn s fun t => t.feeder.nextStrip = 0)
        ∧ (s.feeder.nextStrip + 1 ≠ s.frameStrips →
            Completes (.stripScanoutStart s.feeder.nextStrip) s fun t => t.feeder.nextStrip = s.feeder.nextStrip + 1)

/-- Every step keeps the PROVISIONAL entry that of the capture in hand, and every grant within its limit. And every step keeps what R35 says
of the page index: no two entries that are not EMPTY have one page number, and no page number is above the lesson page counter. -/
def Obligations.EveryStepKeepsProvisionalEntryAndGrant : Prop :=
  (∀ s t : State, s.provisionalOk → s.grantOk → step s = .next t → t.provisionalOk ∧ t.grantOk)
    ∧ ∀ s t : State, s.provisionalOk → s.pagesOk → step s = .next t → t.pagesOk

/-- The state after reset has every invariant. -/
def Obligations.ResetHasTheInvariants : Prop :=
  State.reset.pinsOk ∧ State.reset.memoryOk ∧ State.reset.queueOk ∧ State.reset.boundsOk ∧ State.reset.provisionalOk
    ∧ State.reset.grantOk ∧ State.reset.slotsOk ∧ State.reset.pagesOk ∧ State.reset.rasterOk

end
end

