-- ==== Sys2Proof/Laws/State.lean ====
section
/-! SUPPORT. What each plain update of State leaves alone, field by field; every lemma is true by definition. -/

namespace Sys2Proof.Machine

@[simp] theorem State.setCause_control (s : State) (c : Cause) : (s.setCause c).control = s.control := rfl
@[simp] theorem State.setCause_intake (s : State) (c : Cause) : (s.setCause c).intake = s.intake := rfl
@[simp] theorem State.setCause_monitor (s : State) (c : Cause) : (s.setCause c).monitor = s.monitor := rfl
@[simp] theorem State.setCause_engine (s : State) (c : Cause) : (s.setCause c).engine = s.engine := rfl
@[simp] theorem State.setCause_feeder (s : State) (c : Cause) : (s.setCause c).feeder = s.feeder := rfl
@[simp] theorem State.setCause_capture (s : State) (c : Cause) : (s.setCause c).capture = s.capture := rfl
@[simp] theorem State.setCause_jobs (s : State) (c : Cause) : (s.setCause c).jobs = s.jobs := rfl
@[simp] theorem State.setCause_port (s : State) (c : Cause) : (s.setCause c).port = s.port := rfl
@[simp] theorem State.setCause_mem (s : State) (c : Cause) : (s.setCause c).mem = s.mem := rfl
@[simp] theorem State.setCause_pending (s : State) (c : Cause) : (s.setCause c).pending = s.pending := rfl

@[simp] theorem State.stopTimer_control (s : State) : (s.stopTimer).control = s.control := rfl
@[simp] theorem State.stopTimer_intake (s : State) : (s.stopTimer).intake = s.intake := rfl
@[simp] theorem State.stopTimer_monitor (s : State) : (s.stopTimer).monitor = s.monitor := rfl
@[simp] theorem State.stopTimer_engine (s : State) : (s.stopTimer).engine = s.engine := rfl
@[simp] theorem State.stopTimer_feeder (s : State) : (s.stopTimer).feeder = s.feeder := rfl
@[simp] theorem State.stopTimer_capture (s : State) : (s.stopTimer).capture = s.capture := rfl
@[simp] theorem State.stopTimer_jobs (s : State) : (s.stopTimer).jobs = s.jobs := rfl
@[simp] theorem State.stopTimer_port (s : State) : (s.stopTimer).port = s.port := rfl
@[simp] theorem State.stopTimer_mem (s : State) : (s.stopTimer).mem = s.mem := rfl
@[simp] theorem State.stopTimer_pending (s : State) : (s.stopTimer).pending = s.pending := rfl

@[simp] theorem State.countCorrectable_control (s : State) : (s.countCorrectable).control = s.control := rfl
@[simp] theorem State.countCorrectable_intake (s : State) : (s.countCorrectable).intake = s.intake := rfl
@[simp] theorem State.countCorrectable_monitor (s : State) : (s.countCorrectable).monitor = s.monitor := rfl
@[simp] theorem State.countCorrectable_engine (s : State) : (s.countCorrectable).engine = s.engine := rfl
@[simp] theorem State.countCorrectable_feeder (s : State) : (s.countCorrectable).feeder = s.feeder := rfl
@[simp] theorem State.countCorrectable_capture (s : State) : (s.countCorrectable).capture = s.capture := rfl
@[simp] theorem State.countCorrectable_jobs (s : State) : (s.countCorrectable).jobs = s.jobs := rfl
@[simp] theorem State.countCorrectable_post (s : State) : (s.countCorrectable).post = s.post := rfl
@[simp] theorem State.countCorrectable_mem (s : State) : (s.countCorrectable).mem = s.mem := rfl
@[simp] theorem State.countCorrectable_pending (s : State) : (s.countCorrectable).pending = s.pending := rfl

@[simp] theorem State.modifySlot_control (s : State) (n : Nat) (f : Slot → Slot) : (s.modifySlot n f).control = s.control := rfl
@[simp] theorem State.modifySlot_monitor (s : State) (n : Nat) (f : Slot → Slot) : (s.modifySlot n f).monitor = s.monitor := rfl
@[simp] theorem State.modifySlot_engine (s : State) (n : Nat) (f : Slot → Slot) : (s.modifySlot n f).engine = s.engine := rfl
@[simp] theorem State.modifySlot_feeder (s : State) (n : Nat) (f : Slot → Slot) : (s.modifySlot n f).feeder = s.feeder := rfl
@[simp] theorem State.modifySlot_capture (s : State) (n : Nat) (f : Slot → Slot) : (s.modifySlot n f).capture = s.capture := rfl
@[simp] theorem State.modifySlot_jobs (s : State) (n : Nat) (f : Slot → Slot) : (s.modifySlot n f).jobs = s.jobs := rfl
@[simp] theorem State.modifySlot_port (s : State) (n : Nat) (f : Slot → Slot) : (s.modifySlot n f).port = s.port := rfl
@[simp] theorem State.modifySlot_post (s : State) (n : Nat) (f : Slot → Slot) : (s.modifySlot n f).post = s.post := rfl
@[simp] theorem State.modifySlot_mem (s : State) (n : Nat) (f : Slot → Slot) : (s.modifySlot n f).mem = s.mem := rfl
@[simp] theorem State.modifySlot_pending (s : State) (n : Nat) (f : Slot → Slot) : (s.modifySlot n f).pending = s.pending := rfl

@[simp] theorem State.givePin_control (s : State) (n : Nat) (o : PinOwner) : (s.givePin n o).control = s.control := rfl
@[simp] theorem State.givePin_monitor (s : State) (n : Nat) (o : PinOwner) : (s.givePin n o).monitor = s.monitor := rfl
@[simp] theorem State.givePin_engine (s : State) (n : Nat) (o : PinOwner) : (s.givePin n o).engine = s.engine := rfl
@[simp] theorem State.givePin_feeder (s : State) (n : Nat) (o : PinOwner) : (s.givePin n o).feeder = s.feeder := rfl
@[simp] theorem State.givePin_capture (s : State) (n : Nat) (o : PinOwner) : (s.givePin n o).capture = s.capture := rfl
@[simp] theorem State.givePin_jobs (s : State) (n : Nat) (o : PinOwner) : (s.givePin n o).jobs = s.jobs := rfl
@[simp] theorem State.givePin_port (s : State) (n : Nat) (o : PinOwner) : (s.givePin n o).port = s.port := rfl
@[simp] theorem State.givePin_post (s : State) (n : Nat) (o : PinOwner) : (s.givePin n o).post = s.post := rfl
@[simp] theorem State.givePin_mem (s : State) (n : Nat) (o : PinOwner) : (s.givePin n o).mem = s.mem := rfl
@[simp] theorem State.givePin_pending (s : State) (n : Nat) (o : PinOwner) : (s.givePin n o).pending = s.pending := rfl

@[simp] theorem State.dropPin_control (s : State) (n : Nat) (o : PinOwner) : (s.dropPin n o).control = s.control := rfl
@[simp] theorem State.dropPin_monitor (s : State) (n : Nat) (o : PinOwner) : (s.dropPin n o).monitor = s.monitor := rfl
@[simp] theorem State.dropPin_engine (s : State) (n : Nat) (o : PinOwner) : (s.dropPin n o).engine = s.engine := rfl
@[simp] theorem State.dropPin_feeder (s : State) (n : Nat) (o : PinOwner) : (s.dropPin n o).feeder = s.feeder := rfl
@[simp] theorem State.dropPin_capture (s : State) (n : Nat) (o : PinOwner) : (s.dropPin n o).capture = s.capture := rfl
@[simp] theorem State.dropPin_jobs (s : State) (n : Nat) (o : PinOwner) : (s.dropPin n o).jobs = s.jobs := rfl
@[simp] theorem State.dropPin_port (s : State) (n : Nat) (o : PinOwner) : (s.dropPin n o).port = s.port := rfl
@[simp] theorem State.dropPin_post (s : State) (n : Nat) (o : PinOwner) : (s.dropPin n o).post = s.post := rfl
@[simp] theorem State.dropPin_mem (s : State) (n : Nat) (o : PinOwner) : (s.dropPin n o).mem = s.mem := rfl
@[simp] theorem State.dropPin_pending (s : State) (n : Nat) (o : PinOwner) : (s.dropPin n o).pending = s.pending := rfl

@[simp] theorem State.setEntry_control (s : State) (n : Nat) (e : IndexEntry) : (s.setEntry n e).control = s.control := rfl
@[simp] theorem State.setEntry_intake (s : State) (n : Nat) (e : IndexEntry) : (s.setEntry n e).intake = s.intake := rfl
@[simp] theorem State.setEntry_engine (s : State) (n : Nat) (e : IndexEntry) : (s.setEntry n e).engine = s.engine := rfl
@[simp] theorem State.setEntry_feeder (s : State) (n : Nat) (e : IndexEntry) : (s.setEntry n e).feeder = s.feeder := rfl
@[simp] theorem State.setEntry_capture (s : State) (n : Nat) (e : IndexEntry) : (s.setEntry n e).capture = s.capture := rfl
@[simp] theorem State.setEntry_jobs (s : State) (n : Nat) (e : IndexEntry) : (s.setEntry n e).jobs = s.jobs := rfl
@[simp] theorem State.setEntry_port (s : State) (n : Nat) (e : IndexEntry) : (s.setEntry n e).port = s.port := rfl
@[simp] theorem State.setEntry_post (s : State) (n : Nat) (e : IndexEntry) : (s.setEntry n e).post = s.post := rfl
@[simp] theorem State.setEntry_mem (s : State) (n : Nat) (e : IndexEntry) : (s.setEntry n e).mem = s.mem := rfl
@[simp] theorem State.setEntry_pending (s : State) (n : Nat) (e : IndexEntry) : (s.setEntry n e).pending = s.pending := rfl

@[simp] theorem State.setJobEntry_control (s : State) (n : Nat) (e : JobEntry) : (s.setJobEntry n e).control = s.control := rfl
@[simp] theorem State.setJobEntry_intake (s : State) (n : Nat) (e : JobEntry) : (s.setJobEntry n e).intake = s.intake := rfl
@[simp] theorem State.setJobEntry_monitor (s : State) (n : Nat) (e : JobEntry) : (s.setJobEntry n e).monitor = s.monitor := rfl
@[simp] theorem State.setJobEntry_engine (s : State) (n : Nat) (e : JobEntry) : (s.setJobEntry n e).engine = s.engine := rfl
@[simp] theorem State.setJobEntry_feeder (s : State) (n : Nat) (e : JobEntry) : (s.setJobEntry n e).feeder = s.feeder := rfl
@[simp] theorem State.setJobEntry_capture (s : State) (n : Nat) (e : JobEntry) : (s.setJobEntry n e).capture = s.capture := rfl
@[simp] theorem State.setJobEntry_port (s : State) (n : Nat) (e : JobEntry) : (s.setJobEntry n e).port = s.port := rfl
@[simp] theorem State.setJobEntry_post (s : State) (n : Nat) (e : JobEntry) : (s.setJobEntry n e).post = s.post := rfl
@[simp] theorem State.setJobEntry_mem (s : State) (n : Nat) (e : JobEntry) : (s.setJobEntry n e).mem = s.mem := rfl
@[simp] theorem State.setJobEntry_pending (s : State) (n : Nat) (e : JobEntry) : (s.setJobEntry n e).pending = s.pending := rfl

@[simp] theorem State.setUnit_control (s : State) (u : EngineUnit) : (s.setUnit u).control = s.control := rfl
@[simp] theorem State.setUnit_intake (s : State) (u : EngineUnit) : (s.setUnit u).intake = s.intake := rfl
@[simp] theorem State.setUnit_monitor (s : State) (u : EngineUnit) : (s.setUnit u).monitor = s.monitor := rfl
@[simp] theorem State.setUnit_feeder (s : State) (u : EngineUnit) : (s.setUnit u).feeder = s.feeder := rfl
@[simp] theorem State.setUnit_capture (s : State) (u : EngineUnit) : (s.setUnit u).capture = s.capture := rfl
@[simp] theorem State.setUnit_jobs (s : State) (u : EngineUnit) : (s.setUnit u).jobs = s.jobs := rfl
@[simp] theorem State.setUnit_port (s : State) (u : EngineUnit) : (s.setUnit u).port = s.port := rfl
@[simp] theorem State.setUnit_post (s : State) (u : EngineUnit) : (s.setUnit u).post = s.post := rfl
@[simp] theorem State.setUnit_mem (s : State) (u : EngineUnit) : (s.setUnit u).mem = s.mem := rfl
@[simp] theorem State.setUnit_pending (s : State) (u : EngineUnit) : (s.setUnit u).pending = s.pending := rfl

@[simp] theorem State.voidScan_control (s : State) : (s.voidScan).control = s.control := rfl
@[simp] theorem State.voidScan_intake (s : State) : (s.voidScan).intake = s.intake := rfl
@[simp] theorem State.voidScan_monitor (s : State) : (s.voidScan).monitor = s.monitor := rfl
@[simp] theorem State.voidScan_engine (s : State) : (s.voidScan).engine = s.engine := rfl
@[simp] theorem State.voidScan_feeder (s : State) : (s.voidScan).feeder = s.feeder := rfl
@[simp] theorem State.voidScan_capture (s : State) : (s.voidScan).capture = s.capture := rfl
@[simp] theorem State.voidScan_port (s : State) : (s.voidScan).port = s.port := rfl
@[simp] theorem State.voidScan_post (s : State) : (s.voidScan).post = s.post := rfl
@[simp] theorem State.voidScan_mem (s : State) : (s.voidScan).mem = s.mem := rfl
@[simp] theorem State.voidScan_pending (s : State) : (s.voidScan).pending = s.pending := rfl

@[simp] theorem State.moveRaster_control (s : State) (k : Nat) : (s.moveRaster k).control = s.control := rfl
@[simp] theorem State.moveRaster_intake (s : State) (k : Nat) : (s.moveRaster k).intake = s.intake := rfl
@[simp] theorem State.moveRaster_monitor (s : State) (k : Nat) : (s.moveRaster k).monitor = s.monitor := rfl
@[simp] theorem State.moveRaster_engine (s : State) (k : Nat) : (s.moveRaster k).engine = s.engine := rfl
@[simp] theorem State.moveRaster_capture (s : State) (k : Nat) : (s.moveRaster k).capture = s.capture := rfl
@[simp] theorem State.moveRaster_jobs (s : State) (k : Nat) : (s.moveRaster k).jobs = s.jobs := rfl
@[simp] theorem State.moveRaster_port (s : State) (k : Nat) : (s.moveRaster k).port = s.port := rfl
@[simp] theorem State.moveRaster_post (s : State) (k : Nat) : (s.moveRaster k).post = s.post := rfl
@[simp] theorem State.moveRaster_mem (s : State) (k : Nat) : (s.moveRaster k).mem = s.mem := rfl
@[simp] theorem State.moveRaster_pending (s : State) (k : Nat) : (s.moveRaster k).pending = s.pending := rfl
@[simp] theorem State.moveRaster_view (s : State) (k : Nat) : (s.moveRaster k).feeder.view = s.feeder.view := rfl
@[simp] theorem State.moveRaster_rasterOn (s : State) (k : Nat) : (s.moveRaster k).feeder.rasterOn = s.feeder.rasterOn := rfl
@[simp] theorem State.moveRaster_outputMode (s : State) (k : Nat) : (s.moveRaster k).feeder.outputMode = s.feeder.outputMode := rfl
@[simp] theorem State.moveRaster_layout (s : State) (k : Nat) : (s.moveRaster k).feeder.layout = s.feeder.layout := rfl
@[simp] theorem State.moveRaster_posted (s : State) (k : Nat) : (s.moveRaster k).feeder.posted = s.feeder.posted := rfl
@[simp] theorem State.moveRaster_scanning (s : State) (k : Nat) : (s.moveRaster k).feeder.scanning = s.feeder.scanning := rfl
@[simp] theorem State.moveRaster_request (s : State) (k : Nat) : (s.moveRaster k).feeder.request = s.feeder.request := rfl
@[simp] theorem State.moveRaster_display (s : State) (k : Nat) : (s.moveRaster k).feeder.display = s.feeder.display := rfl
@[simp] theorem State.moveRaster_liveFrame (s : State) (k : Nat) : (s.moveRaster k).feeder.liveFrame = s.feeder.liveFrame := rfl
@[simp] theorem State.moveRaster_late (s : State) (k : Nat) : (s.moveRaster k).feeder.late = s.feeder.late := rfl
@[simp] theorem State.moveRaster_latched (s : State) (k : Nat) : (s.moveRaster k).feeder.latched = s.feeder.latched := rfl
@[simp] theorem State.moveRaster_degraded (s : State) (k : Nat) : (s.moveRaster k).feeder.degraded = s.feeder.degraded := rfl
@[simp] theorem State.moveRaster_frameNumber (s : State) (k : Nat) : (s.moveRaster k).feeder.frameNumber = s.feeder.frameNumber := rfl
@[simp] theorem State.moveRaster_underruns (s : State) (k : Nat) : (s.moveRaster k).feeder.underruns = s.feeder.underruns := rfl
@[simp] theorem State.moveRaster_layoutRead (s : State) (k : Nat) : (s.moveRaster k).feeder.layoutRead = s.feeder.layoutRead := rfl
@[simp] theorem State.moveRaster_deferred (s : State) (k : Nat) : (s.moveRaster k).feeder.deferred = s.feeder.deferred := rfl
@[simp] theorem State.moveRaster_bufferA (s : State) (k : Nat) : (s.moveRaster k).feeder.bufferA = s.feeder.bufferA := rfl
@[simp] theorem State.moveRaster_bufferB (s : State) (k : Nat) : (s.moveRaster k).feeder.bufferB = s.feeder.bufferB := rfl
@[simp] theorem State.moveRaster_underrunRun (s : State) (k : Nat) : (s.moveRaster k).feeder.underrunRun = s.feeder.underrunRun := rfl
@[simp] theorem State.moveRaster_cleanRun (s : State) (k : Nat) : (s.moveRaster k).feeder.cleanRun = s.feeder.cleanRun := rfl
@[simp] theorem State.moveRaster_faults (s : State) (k : Nat) : (s.moveRaster k).feeder.faults = s.feeder.faults := rfl
@[simp] theorem State.moveRaster_nextStrip (s : State) (k : Nat) : (s.moveRaster k).feeder.nextStrip = k := rfl

@[simp] theorem State.hold_control (s : State) (o : Output) : (s.hold o).control = s.control := rfl
@[simp] theorem State.hold_intake (s : State) (o : Output) : (s.hold o).intake = s.intake := rfl
@[simp] theorem State.hold_monitor (s : State) (o : Output) : (s.hold o).monitor = s.monitor := rfl
@[simp] theorem State.hold_engine (s : State) (o : Output) : (s.hold o).engine = s.engine := rfl
@[simp] theorem State.hold_feeder (s : State) (o : Output) : (s.hold o).feeder = s.feeder := rfl
@[simp] theorem State.hold_capture (s : State) (o : Output) : (s.hold o).capture = s.capture := rfl
@[simp] theorem State.hold_jobs (s : State) (o : Output) : (s.hold o).jobs = s.jobs := rfl
@[simp] theorem State.hold_queue (s : State) (o : Output) : (s.hold o).port.queue = s.port.queue := rfl
@[simp] theorem State.hold_blocked (s : State) (o : Output) : (s.hold o).port.blocked = s.port.blocked := rfl
@[simp] theorem State.hold_later (s : State) (o : Output) : (s.hold o).port.later = s.port.later ++ [o] := rfl
@[simp] theorem State.hold_grant (s : State) (o : Output) : (s.hold o).port.grant = s.port.grant := rfl
@[simp] theorem State.hold_post (s : State) (o : Output) : (s.hold o).post = s.post := rfl
@[simp] theorem State.hold_mem (s : State) (o : Output) : (s.hold o).mem = s.mem := rfl
@[simp] theorem State.hold_pending (s : State) (o : Output) : (s.hold o).pending = s.pending := rfl

@[simp] theorem State.dropScanned_control (s : State) (n : Nat) : (s.dropScanned n).control = s.control := rfl
@[simp] theorem State.dropScanned_intake (s : State) (n : Nat) : (s.dropScanned n).intake = s.intake := rfl
@[simp] theorem State.dropScanned_monitor (s : State) (n : Nat) : (s.dropScanned n).monitor = s.monitor := rfl
@[simp] theorem State.dropScanned_engine (s : State) (n : Nat) : (s.dropScanned n).engine = s.engine := rfl
@[simp] theorem State.dropScanned_feeder (s : State) (n : Nat) : (s.dropScanned n).feeder = s.feeder := rfl
@[simp] theorem State.dropScanned_capture (s : State) (n : Nat) : (s.dropScanned n).capture = s.capture := rfl
@[simp] theorem State.dropScanned_port (s : State) (n : Nat) : (s.dropScanned n).port = s.port := rfl
@[simp] theorem State.dropScanned_post (s : State) (n : Nat) : (s.dropScanned n).post = s.post := rfl
@[simp] theorem State.dropScanned_mem (s : State) (n : Nat) : (s.dropScanned n).mem = s.mem := rfl
@[simp] theorem State.dropScanned_pending (s : State) (n : Nat) : (s.dropScanned n).pending = s.pending := rfl

@[simp] theorem State.popRecord_intake (s : State) : (s.popRecord).intake = s.intake := rfl
@[simp] theorem State.popRecord_monitor (s : State) : (s.popRecord).monitor = s.monitor := rfl
@[simp] theorem State.popRecord_engine (s : State) : (s.popRecord).engine = s.engine := rfl
@[simp] theorem State.popRecord_feeder (s : State) : (s.popRecord).feeder = s.feeder := rfl
@[simp] theorem State.popRecord_capture (s : State) : (s.popRecord).capture = s.capture := rfl
@[simp] theorem State.popRecord_jobs (s : State) : (s.popRecord).jobs = s.jobs := rfl
@[simp] theorem State.popRecord_post (s : State) : (s.popRecord).post = s.post := rfl
@[simp] theorem State.popRecord_mem (s : State) : (s.popRecord).mem = s.mem := rfl
@[simp] theorem State.popRecord_pending (s : State) : (s.popRecord).pending = s.pending := rfl

@[simp] theorem State.setHead_control (s : State) (op : RecordOp) : (s.setHead op).control = s.control := rfl
@[simp] theorem State.setHead_intake (s : State) (op : RecordOp) : (s.setHead op).intake = s.intake := rfl
@[simp] theorem State.setHead_monitor (s : State) (op : RecordOp) : (s.setHead op).monitor = s.monitor := rfl
@[simp] theorem State.setHead_engine (s : State) (op : RecordOp) : (s.setHead op).engine = s.engine := rfl
@[simp] theorem State.setHead_feeder (s : State) (op : RecordOp) : (s.setHead op).feeder = s.feeder := rfl
@[simp] theorem State.setHead_capture (s : State) (op : RecordOp) : (s.setHead op).capture = s.capture := rfl
@[simp] theorem State.setHead_jobs (s : State) (op : RecordOp) : (s.setHead op).jobs = s.jobs := rfl
@[simp] theorem State.setHead_post (s : State) (op : RecordOp) : (s.setHead op).post = s.post := rfl
@[simp] theorem State.setHead_mem (s : State) (op : RecordOp) : (s.setHead op).mem = s.mem := rfl
@[simp] theorem State.setHead_pending (s : State) (op : RecordOp) : (s.setHead op).pending = s.pending := rfl

@[simp] theorem State.stopReaction_intake (s : State) : (s.stopReaction).intake = s.intake := rfl
@[simp] theorem State.stopReaction_monitor (s : State) : (s.stopReaction).monitor = s.monitor := rfl
@[simp] theorem State.stopReaction_engine (s : State) : (s.stopReaction).engine = s.engine := rfl
@[simp] theorem State.stopReaction_feeder (s : State) : (s.stopReaction).feeder = s.feeder := rfl
@[simp] theorem State.stopReaction_capture (s : State) : (s.stopReaction).capture = s.capture := rfl
@[simp] theorem State.stopReaction_jobs (s : State) : (s.stopReaction).jobs = s.jobs := rfl
@[simp] theorem State.stopReaction_port (s : State) : (s.stopReaction).port = s.port := rfl
@[simp] theorem State.stopReaction_post (s : State) : (s.stopReaction).post = s.post := rfl
@[simp] theorem State.stopReaction_mem (s : State) : (s.stopReaction).mem = s.mem := rfl
@[simp] theorem State.stopReaction_pending (s : State) : (s.stopReaction).pending = s.pending := rfl

@[simp] theorem State.stopCount_control (s : State) : (s.stopCount).control = s.control := rfl
@[simp] theorem State.stopCount_intake (s : State) : (s.stopCount).intake = s.intake := rfl
@[simp] theorem State.stopCount_monitor (s : State) : (s.stopCount).monitor = s.monitor := rfl
@[simp] theorem State.stopCount_engine (s : State) : (s.stopCount).engine = s.engine := rfl
@[simp] theorem State.stopCount_feeder (s : State) : (s.stopCount).feeder = s.feeder := rfl
@[simp] theorem State.stopCount_jobs (s : State) : (s.stopCount).jobs = s.jobs := rfl
@[simp] theorem State.stopCount_port (s : State) : (s.stopCount).port = s.port := rfl
@[simp] theorem State.stopCount_post (s : State) : (s.stopCount).post = s.post := rfl
@[simp] theorem State.stopCount_mem (s : State) : (s.stopCount).mem = s.mem := rfl
@[simp] theorem State.stopCount_pending (s : State) : (s.stopCount).pending = s.pending := rfl

@[simp] theorem State.abandonRead_control (s : State) : (s.abandonRead).control = s.control := rfl
@[simp] theorem State.abandonRead_intake (s : State) : (s.abandonRead).intake = s.intake := rfl
@[simp] theorem State.abandonRead_monitor (s : State) : (s.abandonRead).monitor = s.monitor := rfl
@[simp] theorem State.abandonRead_engine (s : State) : (s.abandonRead).engine = s.engine := rfl
@[simp] theorem State.abandonRead_feeder (s : State) : (s.abandonRead).feeder = s.feeder := rfl
@[simp] theorem State.abandonRead_jobs (s : State) : (s.abandonRead).jobs = s.jobs := rfl
@[simp] theorem State.abandonRead_post (s : State) : (s.abandonRead).post = s.post := rfl
@[simp] theorem State.abandonRead_mem (s : State) : (s.abandonRead).mem = s.mem := rfl
@[simp] theorem State.abandonRead_pending (s : State) : (s.abandonRead).pending = s.pending := rfl

@[simp] theorem State.markLesson_control (s : State) : (s.markLesson).control = s.control := rfl
@[simp] theorem State.markLesson_intake (s : State) : (s.markLesson).intake = s.intake := rfl
@[simp] theorem State.markLesson_monitor (s : State) : (s.markLesson).monitor = s.monitor := rfl
@[simp] theorem State.markLesson_engine (s : State) : (s.markLesson).engine = s.engine := rfl
@[simp] theorem State.markLesson_feeder (s : State) : (s.markLesson).feeder = s.feeder := rfl
@[simp] theorem State.markLesson_jobs (s : State) : (s.markLesson).jobs = s.jobs := rfl
@[simp] theorem State.markLesson_port (s : State) : (s.markLesson).port = s.port := rfl
@[simp] theorem State.markLesson_post (s : State) : (s.markLesson).post = s.post := rfl
@[simp] theorem State.markLesson_mem (s : State) : (s.markLesson).mem = s.mem := rfl
@[simp] theorem State.markLesson_pending (s : State) : (s.markLesson).pending = s.pending := rfl

@[simp] theorem State.markStandby_control (s : State) : (s.markStandby).control = s.control := rfl
@[simp] theorem State.markStandby_intake (s : State) : (s.markStandby).intake = s.intake := rfl
@[simp] theorem State.markStandby_monitor (s : State) : (s.markStandby).monitor = s.monitor := rfl
@[simp] theorem State.markStandby_engine (s : State) : (s.markStandby).engine = s.engine := rfl
@[simp] theorem State.markStandby_feeder (s : State) : (s.markStandby).feeder = s.feeder := rfl
@[simp] theorem State.markStandby_jobs (s : State) : (s.markStandby).jobs = s.jobs := rfl
@[simp] theorem State.markStandby_port (s : State) : (s.markStandby).port = s.port := rfl
@[simp] theorem State.markStandby_post (s : State) : (s.markStandby).post = s.post := rfl
@[simp] theorem State.markStandby_mem (s : State) : (s.markStandby).mem = s.mem := rfl
@[simp] theorem State.markStandby_pending (s : State) : (s.markStandby).pending = s.pending := rfl

@[simp] theorem State.markShutting_control (s : State) : (s.markShutting).control = s.control := rfl
@[simp] theorem State.markShutting_intake (s : State) : (s.markShutting).intake = s.intake := rfl
@[simp] theorem State.markShutting_monitor (s : State) : (s.markShutting).monitor = s.monitor := rfl
@[simp] theorem State.markShutting_engine (s : State) : (s.markShutting).engine = s.engine := rfl
@[simp] theorem State.markShutting_feeder (s : State) : (s.markShutting).feeder = s.feeder := rfl
@[simp] theorem State.markShutting_jobs (s : State) : (s.markShutting).jobs = s.jobs := rfl
@[simp] theorem State.markShutting_port (s : State) : (s.markShutting).port = s.port := rfl
@[simp] theorem State.markShutting_post (s : State) : (s.markShutting).post = s.post := rfl
@[simp] theorem State.markShutting_mem (s : State) : (s.markShutting).mem = s.mem := rfl
@[simp] theorem State.markShutting_pending (s : State) : (s.markShutting).pending = s.pending := rfl

@[simp] theorem State.clearRuns_control (s : State) : (s.clearRuns).control = s.control := rfl
@[simp] theorem State.clearRuns_intake (s : State) : (s.clearRuns).intake = s.intake := rfl
@[simp] theorem State.clearRuns_monitor (s : State) : (s.clearRuns).monitor = s.monitor := rfl
@[simp] theorem State.clearRuns_engine (s : State) : (s.clearRuns).engine = s.engine := rfl
@[simp] theorem State.clearRuns_capture (s : State) : (s.clearRuns).capture = s.capture := rfl
@[simp] theorem State.clearRuns_jobs (s : State) : (s.clearRuns).jobs = s.jobs := rfl
@[simp] theorem State.clearRuns_port (s : State) : (s.clearRuns).port = s.port := rfl
@[simp] theorem State.clearRuns_post (s : State) : (s.clearRuns).post = s.post := rfl
@[simp] theorem State.clearRuns_mem (s : State) : (s.clearRuns).mem = s.mem := rfl
@[simp] theorem State.clearRuns_pending (s : State) : (s.clearRuns).pending = s.pending := rfl

@[simp] theorem State.stepRamps_control (s : State) : (s.stepRamps).control = s.control := rfl
@[simp] theorem State.stepRamps_intake (s : State) : (s.stepRamps).intake = s.intake := rfl
@[simp] theorem State.stepRamps_monitor (s : State) : (s.stepRamps).monitor = s.monitor := rfl
@[simp] theorem State.stepRamps_engine (s : State) : (s.stepRamps).engine = s.engine := rfl
@[simp] theorem State.stepRamps_capture (s : State) : (s.stepRamps).capture = s.capture := rfl
@[simp] theorem State.stepRamps_jobs (s : State) : (s.stepRamps).jobs = s.jobs := rfl
@[simp] theorem State.stepRamps_port (s : State) : (s.stepRamps).port = s.port := rfl
@[simp] theorem State.stepRamps_post (s : State) : (s.stepRamps).post = s.post := rfl
@[simp] theorem State.stepRamps_mem (s : State) : (s.stepRamps).mem = s.mem := rfl
@[simp] theorem State.stepRamps_pending (s : State) : (s.stepRamps).pending = s.pending := rfl

@[simp] theorem State.moveHold_control (s : State) : (s.moveHold).control = s.control := rfl
@[simp] theorem State.moveHold_monitor (s : State) : (s.moveHold).monitor = s.monitor := rfl
@[simp] theorem State.moveHold_engine (s : State) : (s.moveHold).engine = s.engine := rfl
@[simp] theorem State.moveHold_feeder (s : State) : (s.moveHold).feeder = s.feeder := rfl
@[simp] theorem State.moveHold_capture (s : State) : (s.moveHold).capture = s.capture := rfl
@[simp] theorem State.moveHold_jobs (s : State) : (s.moveHold).jobs = s.jobs := rfl
@[simp] theorem State.moveHold_port (s : State) : (s.moveHold).port = s.port := rfl
@[simp] theorem State.moveHold_post (s : State) : (s.moveHold).post = s.post := rfl
@[simp] theorem State.moveHold_mem (s : State) : (s.moveHold).mem = s.mem := rfl
@[simp] theorem State.moveHold_pending (s : State) : (s.moveHold).pending = s.pending := rfl

@[simp] theorem State.latchSources_control (s : State) : (s.latchSources).control = s.control := rfl
@[simp] theorem State.latchSources_intake (s : State) : (s.latchSources).intake = s.intake := rfl
@[simp] theorem State.latchSources_monitor (s : State) : (s.latchSources).monitor = s.monitor := rfl
@[simp] theorem State.latchSources_engine (s : State) : (s.latchSources).engine = s.engine := rfl
@[simp] theorem State.latchSources_capture (s : State) : (s.latchSources).capture = s.capture := rfl
@[simp] theorem State.latchSources_jobs (s : State) : (s.latchSources).jobs = s.jobs := rfl
@[simp] theorem State.latchSources_port (s : State) : (s.latchSources).port = s.port := rfl
@[simp] theorem State.latchSources_post (s : State) : (s.latchSources).post = s.post := rfl
@[simp] theorem State.latchSources_mem (s : State) : (s.latchSources).mem = s.mem := rfl
@[simp] theorem State.latchSources_pending (s : State) : (s.latchSources).pending = s.pending := rfl

@[simp] theorem State.setPattern_control (s : State) (p : Pattern) : (s.setPattern p).control = s.control := rfl
@[simp] theorem State.setPattern_intake (s : State) (p : Pattern) : (s.setPattern p).intake = s.intake := rfl
@[simp] theorem State.setPattern_engine (s : State) (p : Pattern) : (s.setPattern p).engine = s.engine := rfl
@[simp] theorem State.setPattern_feeder (s : State) (p : Pattern) : (s.setPattern p).feeder = s.feeder := rfl
@[simp] theorem State.setPattern_capture (s : State) (p : Pattern) : (s.setPattern p).capture = s.capture := rfl
@[simp] theorem State.setPattern_jobs (s : State) (p : Pattern) : (s.setPattern p).jobs = s.jobs := rfl
@[simp] theorem State.setPattern_port (s : State) (p : Pattern) : (s.setPattern p).port = s.port := rfl
@[simp] theorem State.setPattern_post (s : State) (p : Pattern) : (s.setPattern p).post = s.post := rfl
@[simp] theorem State.setPattern_mem (s : State) (p : Pattern) : (s.setPattern p).mem = s.mem := rfl
@[simp] theorem State.setPattern_pending (s : State) (p : Pattern) : (s.setPattern p).pending = s.pending := rfl

@[simp] theorem State.storeComponent_control (s : State) (v : Byte) : (s.storeComponent v).control = s.control := rfl
@[simp] theorem State.storeComponent_monitor (s : State) (v : Byte) : (s.storeComponent v).monitor = s.monitor := rfl
@[simp] theorem State.storeComponent_engine (s : State) (v : Byte) : (s.storeComponent v).engine = s.engine := rfl
@[simp] theorem State.storeComponent_feeder (s : State) (v : Byte) : (s.storeComponent v).feeder = s.feeder := rfl
@[simp] theorem State.storeComponent_capture (s : State) (v : Byte) : (s.storeComponent v).capture = s.capture := rfl
@[simp] theorem State.storeComponent_jobs (s : State) (v : Byte) : (s.storeComponent v).jobs = s.jobs := rfl
@[simp] theorem State.storeComponent_port (s : State) (v : Byte) : (s.storeComponent v).port = s.port := rfl
@[simp] theorem State.storeComponent_post (s : State) (v : Byte) : (s.storeComponent v).post = s.post := rfl
@[simp] theorem State.storeComponent_mem (s : State) (v : Byte) : (s.storeComponent v).mem = s.mem := rfl
@[simp] theorem State.storeComponent_pending (s : State) (v : Byte) : (s.storeComponent v).pending = s.pending := rfl

@[simp] theorem State.unmarkPending_control (s : State) : (s.unmarkPending).control = s.control := rfl
@[simp] theorem State.unmarkPending_monitor (s : State) : (s.unmarkPending).monitor = s.monitor := rfl
@[simp] theorem State.unmarkPending_engine (s : State) : (s.unmarkPending).engine = s.engine := rfl
@[simp] theorem State.unmarkPending_feeder (s : State) : (s.unmarkPending).feeder = s.feeder := rfl
@[simp] theorem State.unmarkPending_capture (s : State) : (s.unmarkPending).capture = s.capture := rfl
@[simp] theorem State.unmarkPending_jobs (s : State) : (s.unmarkPending).jobs = s.jobs := rfl
@[simp] theorem State.unmarkPending_port (s : State) : (s.unmarkPending).port = s.port := rfl
@[simp] theorem State.unmarkPending_post (s : State) : (s.unmarkPending).post = s.post := rfl
@[simp] theorem State.unmarkPending_mem (s : State) : (s.unmarkPending).mem = s.mem := rfl
@[simp] theorem State.unmarkPending_pending (s : State) : (s.unmarkPending).pending = s.pending := rfl

@[simp] theorem State.dropAnnouncement_intake (s : State) (a : Announcement) : (s.dropAnnouncement a).intake = s.intake := rfl
@[simp] theorem State.dropAnnouncement_monitor (s : State) (a : Announcement) : (s.dropAnnouncement a).monitor = s.monitor := rfl
@[simp] theorem State.dropAnnouncement_engine (s : State) (a : Announcement) : (s.dropAnnouncement a).engine = s.engine := rfl
@[simp] theorem State.dropAnnouncement_feeder (s : State) (a : Announcement) : (s.dropAnnouncement a).feeder = s.feeder := rfl
@[simp] theorem State.dropAnnouncement_capture (s : State) (a : Announcement) : (s.dropAnnouncement a).capture = s.capture := rfl
@[simp] theorem State.dropAnnouncement_jobs (s : State) (a : Announcement) : (s.dropAnnouncement a).jobs = s.jobs := rfl
@[simp] theorem State.dropAnnouncement_port (s : State) (a : Announcement) : (s.dropAnnouncement a).port = s.port := rfl
@[simp] theorem State.dropAnnouncement_post (s : State) (a : Announcement) : (s.dropAnnouncement a).post = s.post := rfl
@[simp] theorem State.dropAnnouncement_mem (s : State) (a : Announcement) : (s.dropAnnouncement a).mem = s.mem := rfl
@[simp] theorem State.dropAnnouncement_pending (s : State) (a : Announcement) : (s.dropAnnouncement a).pending = s.pending := rfl

@[simp] theorem State.clearControl_control (s : State) : (s.clearControl).control = s.control := rfl
@[simp] theorem State.clearControl_intake (s : State) : (s.clearControl).intake = s.intake := rfl
@[simp] theorem State.clearControl_monitor (s : State) : (s.clearControl).monitor = s.monitor := rfl
@[simp] theorem State.clearControl_engine (s : State) : (s.clearControl).engine = s.engine := rfl
@[simp] theorem State.clearControl_feeder (s : State) : (s.clearControl).feeder = s.feeder := rfl
@[simp] theorem State.clearControl_capture (s : State) : (s.clearControl).capture = s.capture := rfl
@[simp] theorem State.clearControl_jobs (s : State) : (s.clearControl).jobs = s.jobs := rfl
@[simp] theorem State.clearControl_post (s : State) : (s.clearControl).post = s.post := rfl
@[simp] theorem State.clearControl_pending (s : State) : (s.clearControl).pending = s.pending := rfl

@[simp] theorem State.setViews_control (s : State) (m : Mode) : (s.setViews m).control = s.control := rfl
@[simp] theorem State.setViews_engine (s : State) (m : Mode) : (s.setViews m).engine = s.engine := rfl
@[simp] theorem State.setViews_port (s : State) (m : Mode) : (s.setViews m).port = s.port := rfl
@[simp] theorem State.setViews_post (s : State) (m : Mode) : (s.setViews m).post = s.post := rfl
@[simp] theorem State.setViews_mem (s : State) (m : Mode) : (s.setViews m).mem = s.mem := rfl
@[simp] theorem State.setViews_pending (s : State) (m : Mode) : (s.setViews m).pending = s.pending := rfl

@[simp] theorem State.keepInHand_control (s : State) (w : Word) : (s.keepInHand w).control = s.control := rfl
@[simp] theorem State.keepInHand_intake (s : State) (w : Word) : (s.keepInHand w).intake = s.intake := rfl
@[simp] theorem State.keepInHand_monitor (s : State) (w : Word) : (s.keepInHand w).monitor = s.monitor := rfl
@[simp] theorem State.keepInHand_engine (s : State) (w : Word) : (s.keepInHand w).engine = s.engine := rfl
@[simp] theorem State.keepInHand_feeder (s : State) (w : Word) : (s.keepInHand w).feeder = s.feeder := rfl
@[simp] theorem State.keepInHand_capture (s : State) (w : Word) : (s.keepInHand w).capture = s.capture := rfl
@[simp] theorem State.keepInHand_jobs (s : State) (w : Word) : (s.keepInHand w).jobs = s.jobs := rfl
@[simp] theorem State.keepInHand_port (s : State) (w : Word) : (s.keepInHand w).port = s.port := rfl
@[simp] theorem State.keepInHand_mem (s : State) (w : Word) : (s.keepInHand w).mem = s.mem := rfl
@[simp] theorem State.keepInHand_pending (s : State) (w : Word) : (s.keepInHand w).pending = s.pending := rfl

@[simp] theorem State.leaveHand_control (s : State) : s.leaveHand.control = s.control := rfl
@[simp] theorem State.leaveHand_intake (s : State) : s.leaveHand.intake = s.intake := rfl
@[simp] theorem State.leaveHand_monitor (s : State) : s.leaveHand.monitor = s.monitor := rfl
@[simp] theorem State.leaveHand_engine (s : State) : s.leaveHand.engine = s.engine := rfl
@[simp] theorem State.leaveHand_feeder (s : State) : s.leaveHand.feeder = s.feeder := rfl
@[simp] theorem State.leaveHand_capture (s : State) : s.leaveHand.capture = s.capture := rfl
@[simp] theorem State.leaveHand_jobs (s : State) : s.leaveHand.jobs = s.jobs := rfl
@[simp] theorem State.leaveHand_port (s : State) : s.leaveHand.port = s.port := rfl
@[simp] theorem State.leaveHand_mem (s : State) : s.leaveHand.mem = s.mem := rfl
@[simp] theorem State.leaveHand_pending (s : State) : s.leaveHand.pending = s.pending := rfl

@[simp] theorem State.keepInHand_inHand (s : State) (w : Word) : (s.keepInHand w).post.inHand = some w := rfl
@[simp] theorem State.leaveHand_inHand (s : State) : s.leaveHand.post.inHand = none := rfl
@[simp] theorem State.keepInHand_fifo (s : State) (w : Word) : (s.keepInHand w).post.fifo = s.post.fifo := rfl
@[simp] theorem State.leaveHand_fifo (s : State) : s.leaveHand.post.fifo = s.post.fifo := rfl

end Sys2Proof.Machine
end

