-- ==== Sys2Proof/Laws/Frame.lean ====
section
/-! SUPPORT. Frames: for each shared operation, the pieces of state it can change; everything else is unchanged. -/

namespace Sys2Proof.Machine

set_option Elab.async false

variable {s t u : State} {a b c : List Piece}

theorem Unchanged.refl (s : State) : Unchanged a s s := fun p _ => by cases p <;> simp [same]

theorem same.trans {p : Piece} (h : same s t p) (k : same t u p) : same s u p := by cases p <;> simp_all [same]

theorem Unchanged.mono (h : Unchanged a s t) (k : a ⊆ c := by decide) : Unchanged c s t :=
  fun p hp => h p fun hp' => hp (k hp')

/-- Frames compose. -/
theorem Unchanged.comp (h : Unchanged a s t) (k : Unchanged b t u) (ha : a ⊆ c := by decide) (hb : b ⊆ c := by decide) :
    Unchanged c s u := fun p hp => same.trans (h p fun q => hp (ha q)) (k p fun q => hp (hb q))

/-! ## The arbiter -/

theorem State.settleCounts_unchanged (s : State) : Unchanged [.arbiter] s (s.settleCounts) := by
  intro p hp; cases p <;> simp_all [same, State.settleCounts]

theorem State.endEmptyGrant_unchanged (s : State) : Unchanged [.arbiter] s s.endEmptyGrant := by
  unfold State.endEmptyGrant
  split
  · split <;> (intro p hp; cases p <;> simp_all [same])
  · exact .refl s

theorem State.makeGrant_unchanged (s : State) : Unchanged [.arbiter] s s.makeGrant := by
  unfold State.makeGrant
  split
  · exact .refl s
  · split <;> (intro p hp; cases p <;> simp_all [same])

theorem State.settle_unchanged (s : State) : Unchanged [.arbiter] s s.settle := by
  unfold State.settle
  split
  · exact .comp (.comp s.settleCounts_unchanged (State.endEmptyGrant_unchanged _) (c := [.arbiter]))
      (State.makeGrant_unchanged _)
  · exact .refl s

/-! ## Sending: at once, or behind a wait -/

/-- What the sending of something changes: the queue it goes to, or the wait it is kept in. -/
def Sent.pieces : Sent → List Piece
  | .op _ _ => [.records, .arbiter]
  | .event _ _ _ _ => [.raised, .records]
  | .cause _ => [.cause, .records]
  | .safe => [.safety, .records]

/-- What anything sent can change. -/
abbrev sending : List Piece := [.records, .arbiter, .raised, .cause, .safety]

theorem State.setCause_unchanged (s : State) (c : Cause) : Unchanged [.cause] s (s.setCause c) := by
  intro p hp; cases p <;> simp_all [same, State.setCause]

theorem State.hold_unchanged (s : State) (o : Output) : Unchanged [.records] s (s.hold o) := by
  intro p hp; cases p <;> simp_all [same, State.hold]

theorem State.join_unchanged (s : State) (issuer actor : Block) (op : RecordOp) :
    Unchanged [.records, .arbiter] s (s.join issuer actor op) := by
  unfold State.join
  split
  · refine .comp (a := [.records]) (fun p hp => ?_) (State.makeGrant_unchanged _)
    cases p <;> simp_all [same]
  · intro p hp; cases p <;> simp_all [same]

theorem State.put_unchanged (s : State) (b : Block) (x : Sent) : Unchanged x.pieces s (s.put b x) := by
  cases x with
  | op issuer op =>
    unfold State.put
    dsimp only
    split
    · exact (s.hold_unchanged _).mono (by simp [Sent.pieces])
    · exact s.join_unchanged _ _ _
  | event kind small a b => intro p hp; cases p <;> simp_all [same, State.put, Sent.pieces]
  | cause c => exact (s.setCause_unchanged c).mono (by simp [Sent.pieces])
  | safe => intro p hp; cases p <;> simp_all [same, State.put, Sent.pieces]

theorem State.emit_unchanged (s : State) (b : Block) (x : Sent) : Unchanged x.pieces s (s.emit b x) := by
  unfold State.emit
  split
  · exact (s.hold_unchanged _).mono (by cases x <;> simp [Sent.pieces])
  · exact s.put_unchanged b x

theorem State.emitAll_unchanged (l : List Output) (s : State) : Unchanged sending s (s.emitAll l) := by
  induction l generalizing s with
  | nil => exact .refl s
  | cons o l ih => exact .comp (s.emit_unchanged o.actor o.sent) (ih _) (by cases o.sent <;> simp [Sent.pieces])

theorem State.release_unchanged (s : State) : Unchanged sending s s.release := by
  refine .comp (a := [.records]) (fun p hp => ?_) (State.emitAll_unchanged s.port.later _)
  cases p <;> simp_all [same]

/-! ## Records and live fields -/

theorem State.issue_unchanged (s : State) (actor issuer : Block) (op : RecordOp) :
    Unchanged [.records, .arbiter] s (s.issue actor issuer op) := s.emit_unchanged actor (.op issuer op)

theorem State.issueWrite_unchanged (s : State) (actor issuer : Block) (runs : List (Nat × List Byte)) :
    Unchanged [.records, .arbiter] s (s.issueWrite actor issuer runs) := s.issue_unchanged _ _ _

theorem State.liveField_unchanged (s : State) (actor : Block) (off size value : Nat) :
    Unchanged [.records, .arbiter] s (s.liveField actor off size value) := s.issueWrite_unchanged _ _ _

theorem State.voidScan_unchanged (s : State) : Unchanged [.scan] s s.voidScan := by
  intro p hp; cases p <;> simp_all [same, State.voidScan]

theorem State.setCredit_unchanged (s : State) (n : Nat) : Unchanged [.chain, .records, .arbiter] s (s.setCredit n) := by
  unfold State.setCredit
  split
  · exact .refl s
  · refine .comp (t := { s with capture.credit := n }) (a := [.chain]) ?_ (State.liveField_unchanged _ _ _ _ _)
    intro p hp; cases p <;> simp_all [same]

theorem State.setChain_unchanged (s : State) (n : Bool) : Unchanged [.chain, .records, .arbiter] s (s.setChain n) := by
  unfold State.setChain
  split
  · exact .refl s
  · refine .comp (t := { s with capture.running := n }) (a := [.chain]) ?_ (State.liveField_unchanged _ _ _ _ _)
    intro p hp; cases p <;> simp_all [same]

theorem State.setLesson_unchanged (s : State) (n : Bool) : Unchanged [.lesson, .records, .arbiter] s (s.setLesson n) := by
  unfold State.setLesson
  split
  · exact .refl s
  · refine .comp (t := { s with capture.lessonOpen := n }) (a := [.lesson]) ?_ (State.liveField_unchanged _ _ _ _ _)
    intro p hp; cases p <;> simp_all [same]

theorem State.setCounter_unchanged (s : State) (n : Nat) : Unchanged [.lesson, .records, .arbiter] s (s.setCounter n) := by
  unfold State.setCounter
  split
  · exact .refl s
  · refine .comp (t := { s with capture.counter := n }) (a := [.lesson]) ?_ (State.liveField_unchanged _ _ _ _ _)
    intro p hp; cases p <;> simp_all [same]

theorem State.setContextState_unchanged (s : State) (n : ContextState) : Unchanged [.context, .records, .arbiter]
    s (s.setContextState n) := by
  unfold State.setContextState
  split
  · exact .refl s
  · refine .comp (t := { s with capture.context.state := n }) (a := [.context]) ?_ (State.liveField_unchanged _ _ _ _ _)
    intro p hp; cases p <;> simp_all [same]

theorem State.setInstability_unchanged (s : State) (n : Nat) : Unchanged [.instability, .records, .arbiter] s (s.setInstability n) := by
  unfold State.setInstability
  split
  · exact .refl s
  · refine .comp (t := { s with intake.instability := n }) (a := [.instability]) ?_ (State.liveField_unchanged _ _ _ _ _)
    intro p hp; cases p <;> simp_all [same]

theorem State.setSuspended_unchanged (s : State) (n : Bool) : Unchanged [.instability, .records, .arbiter] s (s.setSuspended n) := by
  unfold State.setSuspended
  split
  · exact .refl s
  · refine .comp (t := { s with intake.suspended := n }) (a := [.instability]) ?_ (State.liveField_unchanged _ _ _ _ _)
    intro p hp; cases p <;> simp_all [same]

theorem State.setDegraded_unchanged (s : State) (n : Bool) : Unchanged [.lateness, .scan, .records, .arbiter] s (s.setDegraded n) := by
  unfold State.setDegraded
  split
  · exact .refl s
  · refine .comp (a := [.lateness, .scan]) ?_ (State.liveField_unchanged _ _ _ _ _)
    have h : Unchanged [.lateness] s { s with feeder.degraded := n } := by intro p hp; cases p <;> simp_all [same]
    split
    · exact .comp h (State.voidScan_unchanged _)
    · exact h.mono

theorem State.setPut_unchanged (s : State) (n : Nat) : Unchanged [.events, .records, .arbiter] s (s.setPut n) := by
  unfold State.setPut
  split
  · exact .refl s
  · refine .comp (t := { s with post.put := n }) (a := [.events]) ?_ (State.liveField_unchanged _ _ _ _ _)
    intro p hp; cases p <;> simp_all [same]

theorem State.setGet_unchanged (s : State) (n : Nat) : Unchanged [.events, .records, .arbiter] s (s.setGet n) := by
  unfold State.setGet
  split
  · exact .refl s
  · refine .comp (t := { s with post.get := n }) (a := [.events]) ?_ (State.liveField_unchanged _ _ _ _ _)
    intro p hp; cases p <;> simp_all [same]

theorem State.publishPut_unchanged (s : State) (n : Nat) : Unchanged [.events, .records, .arbiter] s (s.publishPut n) := by
  refine .comp (a := [.events]) (fun p hp => ?_) (State.liveField_unchanged _ _ _ _ _)
  cases p <;> simp_all [same]

theorem State.publishGet_unchanged (s : State) (n : Nat) : Unchanged [.events, .records, .arbiter] s (s.publishGet n) := by
  refine .comp (a := [.events]) (fun p hp => ?_) (State.liveField_unchanged _ _ _ _ _)
  cases p <;> simp_all [same]

theorem State.setLost_unchanged (s : State) (n : Nat) : Unchanged [.lost, .records, .arbiter] s (s.setLost n) := by
  unfold State.setLost
  split
  · exact .refl s
  · refine .comp (t := { s with post.lost := n }) (a := [.lost]) ?_ (State.liveField_unchanged _ _ _ _ _)
    intro p hp; cases p <;> simp_all [same]

/-! ## Events and moderation -/

theorem State.raise_unchanged (s : State) (o : Block) (k : EventKind) (n a b : Nat) :
    Unchanged [.raised, .records] s (s.raise o k n a b) := s.emit_unchanged o (.event k n a b)

theorem State.stopTimer_unchanged (s : State) : Unchanged [.moderation] s (s.stopTimer) := by
  intro p hp; cases p <;> simp_all [same, State.stopTimer]

theorem State.signalReady_unchanged (s : State) : Unchanged [.moderation, .cause, .records, .arbiter] s s.signalReady := by
  refine .comp (a := [.moderation]) (fun p hp => ?_) (State.emit_unchanged _ .post (.cause .eventsReady)) (hb := by simp [Sent.pieces])
  cases p <;> simp_all [same, State.stopTimer]

theorem State.resolveHoldoff_unchanged (s : State) : Unchanged [.moderation, .cause, .records, .arbiter] s s.resolveHoldoff := by
  unfold State.resolveHoldoff
  split
  · exact s.signalReady_unchanged
  · exact .refl s

theorem State.moderate_unchanged (s : State) : Unchanged [.moderation, .cause, .records, .arbiter] s s.moderate := by
  unfold State.moderate
  split
  · exact s.signalReady_unchanged
  · split <;> (intro p hp; cases p <;> simp_all [same])

theorem State.writeEvent_unchanged (s : State) (k : EventKind) (n a b f : Nat) :
    Unchanged [.records, .events, .moderation, .cause, .arbiter] s (s.writeEvent k n a b f) := by
  unfold State.writeEvent
  refine .comp (a := [.records, .events, .arbiter]) ?_ (State.moderate_unchanged _)
  refine .comp (a := [.records, .events, .arbiter]) ?_ (State.publishPut_unchanged _ _)
  refine .comp (b := [.events]) (s.issueWrite_unchanged .post .post
    [(Config.eventBase + 16 * s.post.put, eventBytes k.value n s.post.sequence f a b)]) ?_
  intro p hp; cases p <;> simp_all [same]

theorem State.loseEvent_unchanged (s : State) : Unchanged [.records, .lost, .cause, .arbiter] s s.loseEvent :=
  .comp (s.setLost_unchanged _) (State.emit_unchanged _ .post (.cause .eventsLost)) (hb := by simp [Sent.pieces])

theorem State.takeEvent_unchanged (s : State) (k : EventKind) (n a b f : Nat) :
    Unchanged [.records, .events, .moderation, .cause, .lost, .arbiter] s (s.takeEvent k n a b f) := by
  unfold State.takeEvent
  simp only []
  refine .comp s.resolveHoldoff_unchanged (b := [.records, .events, .moderation, .cause, .lost, .arbiter]) ?_
  split
  · exact (State.writeEvent_unchanged _ _ _ _ _ _).mono
  · exact (State.loseEvent_unchanged _).mono

/-! ## Error-correcting code -/

theorem State.reportUncorrectable_unchanged (s : State) (q : Requester) (w : Nat) :
    Unchanged [.errors, .cause, .raised, .records, .arbiter] s (s.reportUncorrectable q w) := by
  unfold State.reportUncorrectable
  refine .comp (a := [.errors, .cause]) ?_ (State.raise_unchanged _ _ _ _ _ _)
  refine .comp (a := [.errors]) (fun p hp => ?_) (State.setCause_unchanged _ _)
  cases p <;> simp_all [same]

theorem State.countCorrectable_unchanged (s : State) : Unchanged [.errors] s (s.countCorrectable) := by
  intro p hp; cases p <;> simp_all [same, State.countCorrectable]

theorem State.codeWord_unchanged (s : State) (q : Requester) (whole : Bool) (w : Nat) :
    Unchanged [.errors, .cause, .raised, .records, .arbiter] s (s.codeWord q whole w) := by
  unfold State.codeWord
  split
  · intro p hp; cases p <;> simp_all [same]
  · split
    · exact s.reportUncorrectable_unchanged q w
    · split <;> (intro p hp; cases p <;> simp_all [same, State.countCorrectable])

theorem State.codeWords_unchanged (q : Requester) (lo hi w n : Nat) (s : State) :
    Unchanged [.errors, .cause, .raised, .records, .arbiter] s (s.codeWords q lo hi w n) := by
  induction n generalizing s w with
  | zero => exact .refl s
  | succ n ih => exact .comp (s.codeWord_unchanged q _ w) (ih _ _)

theorem State.store_unchanged (s : State) (q : Requester) (addr : Nat) (bytes : List Byte) :
    Unchanged [.memory, .errors, .cause, .raised, .records, .arbiter] s (s.store q addr bytes) := by
  unfold State.store
  split
  · exact .refl s
  · refine .comp (a := [.memory]) (fun p hp => ?_) (State.codeWords_unchanged _ _ _ _ _ _)
    cases p <;> simp_all [same]

theorem State.storeRuns_unchanged (q : Requester) (runs : List (Nat × List Byte)) (s : State) :
    Unchanged [.memory, .errors, .cause, .raised, .records, .arbiter] s (s.storeRuns q runs) := by
  induction runs generalizing s with
  | nil => exact .refl s
  | cons r rest ih => exact .comp (s.store_unchanged q r.1 r.2) (ih _)

theorem State.checkWords_unchanged (q : Requester) (w n : Nat) (s : State) :
    Unchanged [.errors, .cause, .raised, .records, .arbiter] s (s.checkWords q w n).1 := by
  induction n generalizing s w with
  | zero => exact .refl s
  | succ n ih =>
    unfold State.checkWords
    split
    · exact s.reportUncorrectable_unchanged q w
    · split
      · exact .comp s.countCorrectable_unchanged (ih _ _)
      · exact ih _ _

theorem State.load_unchanged (s : State) (q : Requester) (addr n : Nat) :
    Unchanged [.errors, .cause, .raised, .records, .arbiter] s (s.load q addr n).1 := by
  have h := State.checkWords_unchanged q (addr / 4) ((addr + n + 3) / 4 - addr / 4) s
  unfold State.load
  split <;> simp_all

/-! ## Slots and the index -/

theorem State.modifySlot_unchanged (s : State) (n : Nat) (f : Slot → Slot) : Unchanged [.slots] s (s.modifySlot n f) := by
  intro p hp; cases p <;> simp_all [same, State.modifySlot]

theorem State.givePin_unchanged (s : State) (n : Nat) (o : PinOwner) : Unchanged [.slots] s (s.givePin n o) :=
  s.modifySlot_unchanged _ _

theorem State.dropPin_unchanged (s : State) (n : Nat) (o : PinOwner) : Unchanged [.slots] s (s.dropPin n o) :=
  s.modifySlot_unchanged _ _

theorem State.setEntry_unchanged (s : State) (n : Nat) (e : IndexEntry) : Unchanged [.index] s (s.setEntry n e) := by
  intro p hp; cases p <;> simp_all [same, State.setEntry]

theorem State.writeEntry_unchanged (s : State) (b : Block) (n : Nat) (e : IndexEntry) :
    Unchanged [.index, .records, .arbiter] s (s.writeEntry b n e) := .comp (s.setEntry_unchanged n e) (State.issueWrite_unchanged _ _ _ _)

theorem State.setEntryState_unchanged (s : State) (b : Block) (n : Nat) (x : EntryState) :
    Unchanged [.index, .records, .arbiter] s (s.setEntryState b n x) :=
  .comp (s.setEntry_unchanged n _) (State.issueWrite_unchanged _ _ _ _)

theorem State.insertEntry_unchanged {s t : State} {b : Block} {e : IndexEntry} {n : Nat} (h : s.insertEntry b e = some (t, n)) :
    Unchanged [.index, .records, .raised, .arbiter] s t := by
  unfold State.insertEntry at h
  split at h
  · cases h; exact (s.writeEntry_unchanged _ _ e).mono
  · split at h
    · cases h; exact .comp (s.writeEntry_unchanged _ _ e) (State.raise_unchanged _ _ _ _ _ _)
    · cases h

/-! ## The engine's taking of work -/

theorem State.scanFrom_unchanged (s : State) (sc : Scan) (n : Nat) :
    Unchanged [.scan, .records, .arbiter] s (s.scanFrom sc n) := by
  unfold State.scanFrom
  split
  · refine .comp (a := [.scan]) (fun p hp => ?_) (State.issue_unchanged _ _ _ _)
    cases p <;> simp_all [same]
  · intro p hp; cases p <;> simp_all [same]

theorem State.setUnit_unchanged (s : State) (u : EngineUnit) : Unchanged [.unit] s (s.setUnit u) := by
  intro p hp; cases p <;> simp_all [same, State.setUnit]

theorem State.startUnit_unchanged (s : State) (w : Work) (ps : List Part) : Unchanged [.unit, .arbiter] s (s.startUnit w ps) :=
  .comp (s.setUnit_unchanged _) (State.makeGrant_unchanged _)

theorem State.startStrip_unchanged (s : State) (q : StripRequest) : Unchanged [.unit, .arbiter] s (s.startStrip q) :=
  s.startUnit_unchanged _ _

theorem State.startCapturePiece_unchanged (s : State) (r : Render) :
    Unchanged [.unit, .context, .arbiter] s (s.startCapturePiece r) := by
  refine .comp (a := [.context]) (fun p hp => ?_) (State.startUnit_unchanged _ _ _)
  cases p <;> simp_all [same]

theorem State.startJobPiece_unchanged (s : State) (j : RunningJob) :
    Unchanged [.unit, .runningJob, .arbiter] s (s.startJobPiece j) := by
  have h : Unchanged [.runningJob] s { s with jobs.running := some { j with next := j.next + 1 } } := by
    intro p hp; cases p <;> simp_all [same]
  unfold State.startJobPiece
  simp only []
  refine .comp h (b := [.unit, .arbiter]) ?_
  split <;> exact State.startUnit_unchanged _ _ _

theorem State.takeWork_unchanged (s : State) :
    Unchanged [.unit, .context, .runningJob, .scan, .records, .arbiter] s s.takeWork := by
  unfold State.takeWork
  split
  · exact .refl s
  · split
    · exact (s.startStrip_unchanged _).mono
    · split
      · exact (s.startCapturePiece_unchanged _).mono
      · split
        · exact (s.startJobPiece_unchanged _).mono
        · split
          · exact (s.scanFrom_unchanged _ _).mono
          · exact .refl s

theorem State.endGrantOf_unchanged (s : State) (q : Requester) : Unchanged [.arbiter] s (s.endGrantOf q) := by
  unfold State.endGrantOf
  split
  · split <;> (intro p hp; cases p <;> simp_all [same])
  · exact .refl s

theorem State.dropUnit_unchanged (s : State) : Unchanged [.unit, .arbiter] s s.dropUnit := by
  unfold State.dropUnit
  refine .comp (a := [.unit, .arbiter]) ?_ (State.makeGrant_unchanged _)
  refine .comp (s.endGrantOf_unchanged .engine) (b := [.unit, .arbiter]) (fun p hp => ?_)
  cases p <;> simp_all [same]

/-! ## The closing of a step -/

/-- Closing a step changes the arbiter and the marks of the events raised, and nothing else. -/
theorem State.close_unchanged (s0 s : State) : Unchanged closing s (s0.close s) := by
  refine .comp (a := [.raised]) (fun p hp => ?_) (State.settle_unchanged _)
  cases p <;> simp_all [same]

/-- Closing a step in which the engine may take work. -/
theorem State.closeWork_unchanged (s0 s : State) : Unchanged takingWork s (s0.closeWork s) :=
  .comp s.takeWork_unchanged (s0.close_unchanged _)

theorem unlinkAt_news (n : Nat) (l : List RaisedEvent) :
    (unlinkAt n l).map (fun e => (e.owner, e.kind, e.small, e.a, e.b)) = l.map fun e => (e.owner, e.kind, e.small, e.a, e.b) := by
  unfold unlinkAt
  induction l generalizing n with
  | nil => simp
  | cons x l ih =>
    cases n with
    | zero => simp
    | succ n => simp [ih]

/-- No piece of news is lost or made by a change that leaves the raised events. -/
theorem Unchanged.news (h : Unchanged a s t) (k : Piece.raised ∉ a := by decide) : t.news = s.news := by
  have := h .raised k
  simp_all [same, State.news]

@[simp] theorem State.close_news (s0 s : State) : (s0.close s).news = s.news := by
  refine (Unchanged.news (State.settle_unchanged _)).trans ?_
  exact unlinkAt_news _ _

@[simp] theorem State.closeWork_news (s0 s : State) : (s0.closeWork s).news = s.news :=
  (s0.close_news _).trans (Unchanged.news s.takeWork_unchanged)

/-- Where nobody waits for room, an event is raised as it is sent (R155, R174). -/
theorem State.raise_news (s : State) (o : Block) (k : EventKind) (n a b : Nat) (h : s.waiting o = false) :
    (s.raise o k n a b).news = s.news ++ [(o, k, n, a, b)] := by
  simp [State.news, State.raise, State.emit, h, State.put]

/-! ## The record queue -/

theorem State.setJobEntry_unchanged (s : State) (n : Nat) (e : JobEntry) : Unchanged [.jobEntries] s (s.setJobEntry n e) := by
  intro p hp; cases p <;> simp_all [same, State.setJobEntry]

theorem State.writeOutcome_unchanged (s : State) (n : Nat) (e : JobEntry) :
    Unchanged [.jobEntries, .records, .arbiter] s (s.writeOutcome n e) :=
  .comp (s.setJobEntry_unchanged n e) (State.issueWrite_unchanged _ _ _ _)

theorem State.writePieces_unchanged (s : State) (n d : Nat) :
    Unchanged [.jobEntries, .records, .arbiter] s (s.writePieces n d) :=
  .comp (s.setJobEntry_unchanged n _) (State.issueWrite_unchanged _ _ _ _)

theorem State.endEntry_unchanged (s : State) (n : Nat) (st : JobState) (r : Nat) :
    Unchanged [.jobEntries, .records, .raised, .arbiter] s (s.endEntry n st r) :=
  .comp (s.writeOutcome_unchanged n _) (State.raise_unchanged _ _ _ _ _ _)

theorem State.popRecord_unchanged (s : State) : Unchanged [.records, .safety, .arbiter] s (s.popRecord) := by
  intro p hp; cases p <;> simp_all [same, State.popRecord]

theorem State.setHead_unchanged (s : State) (op : RecordOp) : Unchanged [.records, .arbiter] s (s.setHead op) := by
  intro p hp; cases p <;> simp_all [same, State.setHead]

theorem State.scanRead_unchanged (s : State) (n : Nat) (r : ReadState) :
    Unchanged [.scan, .records, .jobEntries, .raised, .arbiter] s (s.scanRead n r) := by
  unfold State.scanRead
  split
  · exact .refl s
  · split
    · exact (s.scanFrom_unchanged _ _).mono
    · refine .comp (a := [.jobEntries, .records, .raised, .arbiter]) ?_ (State.scanFrom_unchanged _ _ _)
      split
      · exact s.endEntry_unchanged _ _ _
      · exact .refl s

/-- What the delivery of a record read can change. -/
abbrev delivery : List Piece := [.scan, .records, .jobEntries, .raised, .frameTurn, .portReads, .descriptorRead, .arbiter]

theorem State.deliver_unchanged (s : State) (q : Reader) (r : ReadState) : Unchanged delivery s (s.deliver q r) := by
  cases q with
  | job n => exact (s.scanRead_unchanged n r).mono
  | _ => intro p hp; cases p <;> simp_all [same, State.deliver]

/-- What a change of mode changes. -/
abbrev modeChange : List Piece := [.mode, .announcements, .timer, .safety, .records, .raised, .arbiter]

theorem State.enterMode_unchanged (s : State) (m : Mode) :
    Unchanged [.mode, .announcements, .timer, .safety, .records, .arbiter] s (s.enterMode m) := by
  unfold State.enterMode
  refine .comp (a := [.mode, .announcements, .timer, .safety]) (fun p hp => ?_) (State.liveField_unchanged _ _ _ _ _)
  cases p <;> simp_all [same]

theorem State.changeMode_unchanged (s : State) (m : Mode) (cause : Nat) : Unchanged modeChange s (s.changeMode m cause) :=
  .comp (s.enterMode_unchanged m) (State.raise_unchanged _ _ _ _ _ _)

theorem State.shutdownTest_unchanged (s : State) : Unchanged modeChange s s.shutdownTest := by
  unfold State.shutdownTest
  split
  · exact .comp (s.changeMode_unchanged _ _) (State.raise_unchanged _ _ _ _ _ _)
  · exact .refl s

/-- What the performing of record operations can change: memory and the results of the reads. -/
abbrev recording : List Piece :=
  [.scan, .records, .jobEntries, .raised, .frameTurn, .portReads, .descriptorRead, .memory, .errors, .cause, .safety,
    .arbiter, .mode, .announcements, .timer]

theorem State.recordReadBurst_unchanged (s : State) (q : Reader) (addr : Nat) (got : List Byte) :
    Unchanged [.scan, .records, .jobEntries, .raised, .frameTurn, .portReads, .descriptorRead, .errors, .cause, .safety, .arbiter] s
      (s.recordReadBurst q addr got) := by
  have h := s.load_unchanged .record (addr + got.length)
    (min (64 - (addr + got.length) % 64) (readLength q got - got.length))
  unfold State.recordReadBurst
  simp only []
  split
  next s' he =>
    rw [he] at h
    exact .comp (.comp h s'.popRecord_unchanged (c := [.errors, .cause, .raised, .records, .safety, .arbiter]))
      (State.deliver_unchanged _ _ _)
  next s' bytes he =>
    rw [he] at h
    split
    · exact .comp (.comp h s'.popRecord_unchanged (c := [.errors, .cause, .raised, .records, .safety, .arbiter]))
        (State.deliver_unchanged _ _ _)
    · exact .comp h (s'.setHead_unchanged _)

theorem State.recordBurst_unchanged (s : State) : Unchanged recording s s.recordBurst := by
  unfold State.recordBurst
  split
  · exact .refl s
  · exact s.popRecord_unchanged.mono
  · exact .comp (s.store_unchanged _ _ _) (State.popRecord_unchanged _)
  · exact .comp (s.store_unchanged _ _ _) (State.setHead_unchanged _ _)
  · exact (s.recordReadBurst_unchanged _ _ _).mono

theorem State.admitBlocked_unchanged (s : State) : Unchanged (modeChange ++ [.cause]) s s.admitBlocked := by
  unfold State.admitBlocked
  split
  · exact .refl s
  · split
    · refine .comp (a := modeChange ++ [.cause]) ?_ (State.shutdownTest_unchanged _)
      refine .comp (a := [.records, .arbiter]) ?_ (State.release_unchanged _)
      refine .comp (a := [.records]) (fun p hp => ?_) (State.makeGrant_unchanged _)
      cases p <;> simp_all [same]
    · exact .refl s

theorem State.drainUntil_unchanged (enough : State → Bool) (n : Nat) (s : State) :
    Unchanged recording s (State.drainUntil enough n s) := by
  induction n generalizing s with
  | zero => exact .refl s
  | succ n ih =>
    unfold State.drainUntil
    split
    · exact .refl s
    · exact .comp (.comp s.admitBlocked_unchanged (State.recordBurst_unchanged _) (c := recording)) (ih _)

theorem State.drain_unchanged (s : State) (enough : State → Bool) : Unchanged recording s (s.drain enough) :=
  .comp (State.drainUntil_unchanged _ _ _) (State.settle_unchanged _)

/-! ## Post words -/

theorem State.stopReaction_unchanged (s : State) : Unchanged [.timer] s (s.stopReaction) := by
  intro p hp; cases p <;> simp_all [same, State.stopReaction]

theorem State.refuse_unchanged (s : State) (n : Nat) (w : Word) : Unchanged [.raised, .records] s (s.refuse n w) :=
  s.raise_unchanged _ _ _ _ _

theorem State.wordTaken_unchanged (s : State) (rest : List Word) : Unchanged [.fifo, .timer] s (s.wordTaken rest) := by
  have h : Unchanged [.fifo] s { s with post.fifo := rest } := by intro p hp; cases p <;> simp_all [same]
  unfold State.wordTaken
  simp only []
  split
  · exact .comp h (State.stopReaction_unchanged _)
  · exact h.mono

theorem State.keepInHand_unchanged (s : State) (w : Word) : Unchanged [.fifo] s (s.keepInHand w) := by
  intro p hp; cases p <;> simp_all [same, State.keepInHand]

theorem State.leaveHand_unchanged (s : State) : Unchanged [.fifo] s s.leaveHand := by
  intro p hp; cases p <;> simp_all [same, State.leaveHand]

/-- A word that goes through its checks changes what its owner's act changes, or the hand, or is refused. -/
theorem State.dispatch_unchanged (s : State) (kind : Nat) (allowed : Mode → Bool) (legal : Nat → Bool) {act : Word → State → State}
    {changed : List Piece} (w : Word) (h : Unchanged changed s (act w s)) :
    Unchanged ([.fifo, .raised, .records] ++ changed) s (s.dispatch kind allowed legal act w) := by
  have h' : Unchanged ([.fifo, .raised, .records] ++ changed) s (act w s) :=
    h.mono (List.subset_append_right _ _)
  unfold State.dispatch
  split
  · exact (s.refuse_unchanged _ _).mono (by simp)
  · split
    · exact (s.refuse_unchanged _ _).mono (by simp)
    · split
      · exact h'
      · exact (s.keepInHand_unchanged _).mono (by simp)

end Sys2Proof.Machine
end

