-- ==== Sys2Proof/Laws/FrameCapture.lean ====
section
/-! SUPPORT. Frames of the capture unit's and the job runner's operations. -/

namespace Sys2Proof.Machine

set_option Elab.async false

/-! ## Capture unit -/

/-- What the end of a capture without a descriptor changes (R123). -/
abbrev missing : List Piece := [.slots, .index, .records, .context, .slotWait, .descriptorRead, .raised, .arbiter]

/-- What the capture unit's own work changes. -/
abbrev capturing : List Piece :=
  [.slots, .index, .records, .context, .slotWait, .descriptorRead, .raised, .chain, .lesson, .arbiter]

theorem State.abandonRead_unchanged (s : State) : Unchanged [.descriptorRead, .records, .arbiter] s s.abandonRead := by
  intro p hp; cases p <;> simp_all [same, State.abandonRead]

theorem State.stopCount_unchanged (s : State) : Unchanged [.slotWait] s s.stopCount := by
  intro p hp; cases p <;> simp_all [same, State.stopCount]

theorem State.clearContext_unchanged (s : State) :
    Unchanged [.context, .records, .slotWait, .descriptorRead, .arbiter] s s.clearContext := by
  unfold State.clearContext
  simp only []
  refine .comp (a := [.context, .records, .slotWait, .descriptorRead, .arbiter]) (b := [.context,
      .descriptorRead]) (t := (s.setContextState .idle).stopCount.abandonRead)
    ?_ (fun p hp => ?_)
  · exact .comp (.comp (s.setContextState_unchanged _) (State.stopCount_unchanged _) (c := [.context, .records, .slotWait, .arbiter]))
      (State.abandonRead_unchanged _)
  · cases p <;> simp_all [same]

theorem State.dropCapturePin_unchanged (s : State) : Unchanged [.slots] s s.dropCapturePin := by
  unfold State.dropCapturePin
  split
  · exact s.dropPin_unchanged _ _
  · exact .refl s

theorem State.withdraw_unchanged (s : State) : Unchanged [.index, .records, .arbiter] s s.withdraw := by
  unfold State.withdraw
  split
  · exact s.setEntryState_unchanged _ _ _
  · exact .refl s

theorem State.missCapture_unchanged (s : State) (r : Nat) : Unchanged missing s (s.missCapture r) :=
  .comp (.comp (.comp s.dropCapturePin_unchanged (State.withdraw_unchanged _) (c := missing))
    (State.clearContext_unchanged _) (c := missing)) (State.raise_unchanged _ _ _ _ _ _)

theorem State.missDecision_unchanged (s : State) (r : Nat) (k : Reason) : Unchanged [.raised, .records] s (s.missDecision r k) :=
  s.raise_unchanged _ _ _ _ _

theorem State.chainFault_unchanged (s : State) (k : Nat) : Unchanged capturing s (s.chainFault k) :=
  .comp (.comp (.comp (s.setCredit_unchanged 0) (State.setChain_unchanged _ _) (c := capturing))
    (State.raise_unchanged _ _ _ _ _ _) (c := capturing)) (State.missCapture_unchanged _ _)

theorem State.readHead_unchanged (s : State) : Unchanged capturing s s.readHead := by
  unfold State.readHead
  split
  · exact s.chainFault_unchanged _
  · refine .comp (a := [.descriptorRead]) (fun p hp => ?_) (State.issue_unchanged _ _ _ _)
    cases p <;> simp_all [same]

theorem State.checkChain_unchanged (s : State) : Unchanged capturing s s.checkChain := by
  have h := s.setContextState_unchanged .waitingSlot
  unfold State.checkChain
  simp only []
  refine .comp h (b := capturing) ?_
  split
  · exact (State.missCapture_unchanged _ _).mono
  · split
    · intro p hp; cases p <;> simp_all [same]
    · exact State.readHead_unchanged _

theorem State.capturePinned_unchanged (s : State) (n : Nat) : Unchanged capturing s (s.capturePinned n) := by
  unfold State.capturePinned
  refine .comp (a := [.slots, .context]) ?_ (State.checkChain_unchanged _)
  refine .comp (s.givePin_unchanged n .capture) (b := [.context]) (fun p hp => ?_)
  cases p <;> simp_all [same]

theorem State.requestCapturePin_unchanged (s : State) : Unchanged capturing s s.requestCapturePin := by
  unfold State.requestCapturePin
  split
  · split
    · exact s.capturePinned_unchanged _
    · exact (s.setContextState_unchanged _).mono
  · exact (s.setContextState_unchanged _).mono

theorem State.releasePin_unchanged (s : State) (n : Nat) (o : PinOwner) : Unchanged capturing s (s.releasePin n o) := by
  unfold State.releasePin
  simp only []
  refine .comp (s.dropPin_unchanged n o) (b := capturing) ?_
  split
  · split
    · exact State.capturePinned_unchanged _ _
    · exact .refl _
  · exact .refl _

theorem State.fillContext_unchanged (s : State) (k : Reason) (f : Nat) (g : Signature) (l : Levels) :
    Unchanged capturing s (s.fillContext k f g l) := by
  unfold State.fillContext
  simp only []
  split
  · exact .refl s
  next t n h =>
    refine .comp (.comp (s.setCounter_unchanged _) (State.insertEntry_unchanged h) (c := capturing)) (b := capturing) ?_
    refine .comp (a := [.context]) (fun p hp => ?_) (State.requestCapturePin_unchanged _)
    cases p <;> simp_all [same]

theorem State.takeDecision_unchanged (s : State) (k : Reason) (f : Nat) (g : Signature) (l : Levels) :
    Unchanged capturing s (s.takeDecision k f g l) := by
  unfold State.takeDecision
  split
  · exact (s.missDecision_unchanged _ _).mono
  · split
    · exact (s.missDecision_unchanged _ _).mono
    · exact s.fillContext_unchanged _ _ _ _

theorem State.moveHead_unchanged (s : State) (n : Nat) : Unchanged [.chain, .context] s (s.moveHead n) := by
  intro p hp; cases p <;> simp_all [same, State.moveHead]

theorem State.returnDescriptor_unchanged (s : State) (d : Descriptor) (st : Nat) (x : Option (Nat × Nat)) (g : Geometry)
    (w : Nat) : Unchanged [.records, .chain, .context, .arbiter] s (s.returnDescriptor d st x g w) :=
  .comp (.comp (s.issueWrite_unchanged _ _ _) (State.setCredit_unchanged _ _) (c := [.records, .chain, .context, .arbiter]))
    (State.moveHead_unchanged _ _)

theorem State.enterRendering_unchanged (s : State) (d : Descriptor) : Unchanged [.context, .records, .arbiter] s (s.enterRendering d) := by
  unfold State.enterRendering
  refine .comp (a := [.context]) (fun p hp => ?_) (State.setContextState_unchanged _ _)
  cases p <;> simp_all [same]

theorem State.rejectDescriptor_unchanged (s : State) (d : Descriptor) : Unchanged capturing s (s.rejectDescriptor d) :=
  .comp (.comp (s.returnDescriptor_unchanged _ _ _ _ _) (State.raise_unchanged _ _ _ _ _ _) (c := capturing))
    (State.checkChain_unchanged _)

theorem State.descriptorRead_unchanged (s : State) (bytes : List Byte) : Unchanged capturing s (s.descriptorRead bytes) := by
  unfold State.descriptorRead
  simp only []
  split
  · exact s.chainFault_unchanged _
  · split
    · exact s.rejectDescriptor_unchanged _
    · split
      · exact s.chainFault_unchanged _
      · exact (s.enterRendering_unchanged _).mono

theorem State.completeCapture_unchanged (s : State) (d : Descriptor) (n : Nat) :
    Unchanged capturing s (s.completeCapture d n) := by
  unfold State.completeCapture
  simp only []
  refine .comp (a := capturing) ?_ (State.clearContext_unchanged _)
  refine .comp (a := capturing) ?_ (State.dropCapturePin_unchanged _)
  refine .comp (a := capturing) ?_ (State.raise_unchanged _ _ _ _ _ _)
  refine .comp (a := capturing) ?_ (State.returnDescriptor_unchanged _ _ _ _ _ _)
  exact .comp (s.setEntry_unchanged _ _) (State.issueWrite_unchanged _ _ _ _)

theorem State.failCapture_unchanged (s : State) (d : Descriptor) (n : Nat) : Unchanged capturing s (s.failCapture d n) := by
  unfold State.failCapture
  simp only []
  refine .comp (a := capturing) ?_ (State.clearContext_unchanged _)
  refine .comp (a := capturing) ?_ (State.dropCapturePin_unchanged _)
  refine .comp (a := capturing) ?_ (State.raise_unchanged _ _ _ _ _ _)
  exact .comp s.withdraw_unchanged (State.returnDescriptor_unchanged _ _ _ _ _ _)

theorem State.capturePieceDone_unchanged (s : State) : Unchanged capturing s s.capturePieceDone := by
  unfold State.capturePieceDone
  simp only []
  split
  · have h : Unchanged [.context] s { s with capture.context.done := s.capture.context.done + 1 } := by
      intro p hp; cases p <;> simp_all [same]
    split
    · exact h.mono
    · exact .comp h (State.completeCapture_unchanged _ _ _)
  · exact .refl s

theorem State.capturePieceFaulted_unchanged (s : State) : Unchanged capturing s s.capturePieceFaulted := by
  unfold State.capturePieceFaulted
  split
  · exact s.failCapture_unchanged _ _
  · exact .refl s

theorem State.markLesson_unchanged (s : State) : Unchanged [.decisions] s s.markLesson := by
  intro p hp; cases p <;> simp_all [same, State.markLesson]

theorem State.markStandby_unchanged (s : State) : Unchanged [.decisions] s s.markStandby := by
  intro p hp; cases p <;> simp_all [same, State.markStandby]

theorem State.markShutting_unchanged (s : State) : Unchanged [.decisions] s s.markShutting := by
  intro p hp; cases p <;> simp_all [same, State.markShutting]

theorem State.emptyIndex_unchanged (s : State) : Unchanged [.index, .records, .arbiter] s s.emptyIndex := by
  have h : Unchanged [.index] s { s with monitor.index := s.monitor.index.map fun e => { e with state := .empty } } := by
    intro p hp; cases p <;> simp_all [same]
  unfold State.emptyIndex
  simp only []
  split
  · exact h.mono
  · exact .comp h (State.issueWrite_unchanged _ _ _ _)

theorem State.missWaiting_unchanged (s : State) (r : Nat) : Unchanged missing s (s.missWaiting r) := by
  unfold State.missWaiting
  split
  · exact s.missCapture_unchanged r
  · exact .refl s

theorem State.captureEntry_unchanged (s : State) (m : Mode) :
    Unchanged [.views, .decisions, .slots, .index, .records, .context, .slotWait, .descriptorRead, .raised, .arbiter]
        s (s.captureEntry m) := by
  have h : Unchanged [.views] s { s with capture.view := m } := by intro p hp; cases p <;> simp_all [same]
  unfold State.captureEntry
  simp only []
  split
  · exact .comp (.comp h (State.markStandby_unchanged _) (c := [.views, .decisions])) (State.missWaiting_unchanged _ _)
  · exact .comp (.comp h (State.markShutting_unchanged _) (c := [.views, .decisions])) (State.missWaiting_unchanged _ _)
  · exact h.mono

theorem State.resumeCapture_unchanged (s : State) : Unchanged capturing s s.resumeCapture := by
  unfold State.resumeCapture
  split
  · exact .comp s.abandonRead_unchanged (State.checkChain_unchanged _)
  · exact .refl s

theorem State.restartChain_unchanged (s : State) (h : Nat) : Unchanged [.chain, .records, .arbiter] s (s.restartChain h) := by
  unfold State.restartChain
  refine .comp (a := [.chain, .records, .arbiter]) ?_ (State.setCredit_unchanged _ _)
  refine .comp (a := [.chain]) (fun p hp => ?_) (State.setChain_unchanged _ _)
  cases p <;> simp_all [same]

/-! ## The engine's reads and writes at the end of a unit -/

theorem State.countCorrectables_unchanged (l : List Nat) (s : State) :
    Unchanged [.errors] s (l.foldl (fun t _ => t.countCorrectable) s) := by
  induction l generalizing s with
  | nil => exact .refl s
  | cons w l ih => exact .comp s.countCorrectable_unchanged (ih _)

theorem State.finishReads_unchanged (s : State) (u : EngineUnit) :
    Unchanged [.errors, .cause, .raised, .records, .arbiter] s (s.finishReads u).1 := by
  unfold State.finishReads
  simp only []
  split
  · exact .comp (State.countCorrectables_unchanged _ s) (State.reportUncorrectable_unchanged _ _ _)
  · exact (State.countCorrectables_unchanged _ s).mono

theorem State.finishWrites_unchanged (s : State) (u : EngineUnit) :
    Unchanged [.memory, .errors, .cause, .raised, .records, .arbiter] s (s.finishWrites u) := State.storeRuns_unchanged _ _ _

/-! ## Job runner -/

/-- What the end of a job changes: its outcome, and what the release of its pin brings (R11, R145). -/
abbrev jobEnding : List Piece :=
  [.slots, .index, .records, .context, .slotWait, .descriptorRead, .raised, .chain, .lesson, .jobEntries, .runningJob, .arbiter]

theorem State.releaseJobPin_unchanged (s : State) (j : RunningJob) : Unchanged capturing s (s.releaseJobPin j) := by
  unfold State.releaseJobPin
  split
  · exact s.releasePin_unchanged _ _
  · exact .refl s

theorem State.setRunning_unchanged (s : State) (j : Option RunningJob) : Unchanged [.runningJob] s (s.setRunning j) := by
  intro p hp; cases p <;> simp_all [same, State.setRunning]

theorem State.endJob_unchanged (s : State) (j : RunningJob) (st : JobState) (r i : Nat) :
    Unchanged jobEnding s (s.endJob j st r i) :=
  .comp (.comp (.comp (s.writeOutcome_unchanged _ _) (State.raise_unchanged _ _ _ _ _ _) (c := jobEnding))
    (State.releaseJobPin_unchanged _ _) (c := jobEnding)) (State.setRunning_unchanged _ _)

theorem State.stopJob_unchanged (s : State) (r : Nat) : Unchanged jobEnding s (s.stopJob r) := by
  unfold State.stopJob
  split
  · exact .refl s
  · split
    · exact .refl s
    · split
      · exact (s.setRunning_unchanged _).mono
      · exact s.endJob_unchanged _ _ _ _

theorem State.addEntry_unchanged (s : State) (n : Nat) : Unchanged [.jobEntries, .records, .arbiter] s (s.addEntry n) := by
  unfold State.addEntry
  split
  · exact .refl s
  · exact .refl s
  · exact s.writeOutcome_unchanged _ _

theorem State.dropScanned_unchanged (s : State) (n : Nat) : Unchanged [.scan] s (s.dropScanned n) := by
  intro p hp; cases p <;> simp_all [same, State.dropScanned]

theorem State.cancelEntry_unchanged (s : State) (n : Nat) : Unchanged (.scan :: jobEnding) s (s.cancelEntry n) := by
  unfold State.cancelEntry
  split
  · exact .comp (s.dropScanned_unchanged n) (State.endEntry_unchanged _ _ _ _)
  · exact (s.stopJob_unchanged _).mono
  · exact .refl s

theorem Unchanged.foldl {a : List Piece} {α : Type} (f : State → α → State) (h : ∀ s x, Unchanged a s (f s x)) (l : List α)
    (s : State) : Unchanged a s (l.foldl f s) := by
  induction l generalizing s with
  | nil => exact .refl s
  | cons x l ih => exact .comp (h s x) (ih _) (fun _ h => h) (fun _ h => h)

theorem State.forEntries_unchanged {a : List Piece} (f : State → Nat → State) (h : ∀ s n, Unchanged a s (f s n)) (s : State)
    (arg : Nat) : Unchanged a s (s.forEntries arg f) := Unchanged.foldl f h _ s

theorem State.runJob_unchanged (s : State) (n : Nat) (r : Request) (pin : Option Nat) (x : Render) (k : Nat) :
    Unchanged [.jobEntries, .records, .runningJob, .arbiter] s (s.runJob n r pin x k) := by
  unfold State.runJob
  simp only []
  refine .comp (b := [.runningJob]) (s.writeOutcome_unchanged n { state := .running, reason := reasonNone, pieces := 0, index := 255 })
    (fun p hp => ?_)
  cases p <;> simp_all [same]

theorem State.startJob_unchanged (s : State) (n : Nat) (r : Request) :
    Unchanged [.jobEntries, .records, .runningJob, .slots, .arbiter] s (s.startJob n r) := by
  unfold State.startJob
  split
  · exact (s.runJob_unchanged _ _ _ _ _).mono
  · exact (s.runJob_unchanged _ _ _ _ _).mono
  · split
    · exact .refl s
    · split
      · exact .comp (s.givePin_unchanged _ _) (State.runJob_unchanged _ _ _ _ _ _)
      · exact .refl s

theorem State.endScan_unchanged (s : State) (x : Scan) :
    Unchanged [.scan, .jobEntries, .records, .runningJob, .slots, .raised, .arbiter] s (s.endScan x) := by
  have h : Unchanged [.scan] s { s with jobs.scan := none } := by intro p hp; cases p <;> simp_all [same]
  unfold State.endScan
  simp only []
  split
  · exact h.mono
  · split
    · split
      · exact .comp h (State.endEntry_unchanged _ _ _ _)
      · exact .comp h (State.startJob_unchanged _ _ _)
    · exact h.mono

theorem State.jobPieceDone_unchanged (s : State) : Unchanged jobEnding s s.jobPieceDone := by
  unfold State.jobPieceDone
  split
  · exact .refl s
  · simp only []
    rename_i j _
    have h : Unchanged jobEnding s
        (if j.done + 1 < j.total then (s.setRunning (some { j with done := j.done + 1 })).writePieces j.entry (j.done + 1)
          else s.setRunning (some { j with done := j.done + 1 })) := by
      split
      · exact .comp (s.setRunning_unchanged _) (State.writePieces_unchanged _ _ _)
      · exact (s.setRunning_unchanged _).mono
    split
    · exact .comp h (State.endJob_unchanged _ _ _ _ _)
    · by_cases hd : j.done + 1 < j.total
      · rw [if_pos hd]; exact h
      · rw [if_neg hd]; exact .comp h (State.endJob_unchanged _ _ _ _ _)

theorem State.signatureInsert_unchanged (s : State) (page : Nat) (sig : Signature) (image : Nat) :
    Unchanged [.lesson, .index, .records, .raised, .arbiter] s (s.signatureInsert page sig image).1 := by
  unfold State.signatureInsert
  split
  · exact .refl s
  · split
    · exact .refl s
    · simp only []
      have h : Unchanged [.lesson, .records, .arbiter] s (if s.capture.counter < page then s.setCounter page else s) := by
        split
        · exact s.setCounter_unchanged _
        · exact .refl s
      split
      · exact .comp h (State.writeEntry_unchanged _ _ _ _)
      · split
        next t n e => exact .comp h (State.insertEntry_unchanged e)
        · exact h.mono

theorem State.endInserted_unchanged (r : State × (Nat ⊕ Nat)) (j : RunningJob) :
    Unchanged jobEnding r.1 (State.endInserted r j) := by
  unfold State.endInserted
  split
  · exact State.endJob_unchanged _ _ _ _ _
  · exact State.endJob_unchanged _ _ _ _ _

theorem State.finishSignature_unchanged (s : State) (j : RunningJob) : Unchanged jobEnding s (s.finishSignature j) := by
  unfold State.finishSignature
  simp only []
  split
  · exact .comp (.comp (s.issueWrite_unchanged _ _ _) (State.signatureInsert_unchanged _ _ _ _) (c := jobEnding))
      (State.endInserted_unchanged _ _)
  · exact .comp (s.issueWrite_unchanged _ _ _) (State.endJob_unchanged _ _ _ _ _)

theorem State.signaturePieceDone_unchanged (s : State) (u : EngineUnit) : Unchanged jobEnding s (s.signaturePieceDone u) := by
  unfold State.signaturePieceDone
  split
  · exact .refl s
  · simp only []
    rename_i j _
    generalize u.parts.foldl (fun acc p => p.addSamples (s.getter u) acc) j.sums = sums
    have h : Unchanged jobEnding s
        (if j.done + 1 < j.total then
          (s.setRunning (some { j with done := j.done + 1, sums := sums })).writePieces j.entry (j.done + 1)
          else s.setRunning (some { j with done := j.done + 1, sums := sums })) := by
      split
      · exact .comp (s.setRunning_unchanged _) (State.writePieces_unchanged _ _ _)
      · exact (s.setRunning_unchanged _).mono
    split
    · exact .comp h (State.endJob_unchanged _ _ _ _ _)
    · by_cases hd : j.done + 1 < j.total
      · rw [if_pos hd]; exact h
      · rw [if_neg hd]; exact .comp h (State.finishSignature_unchanged _ _)

theorem State.jobPieceFaulted_unchanged (s : State) : Unchanged jobEnding s s.jobPieceFaulted := by
  unfold State.jobPieceFaulted
  split
  · exact .refl s
  · exact s.endJob_unchanged _ _ _ _

theorem State.cancelPending_unchanged (s : State) : Unchanged [.jobEntries, .records, .raised, .arbiter] s s.cancelPending := by
  refine Unchanged.foldl _ (fun t n => ?_) _ s
  split
  · exact t.endEntry_unchanged _ _ _
  · exact .refl t

theorem State.jobsEntry_unchanged (s : State) (m : Mode) : Unchanged (.views :: .scan :: jobEnding) s (s.jobsEntry m) := by
  have h : Unchanged [.views] s { s with jobs.view := m } := by intro p hp; cases p <;> simp_all [same]
  have v : Unchanged [.views, .scan] s { s with jobs.view := m }.voidScan := .comp h (State.voidScan_unchanged _)
  unfold State.jobsEntry
  simp only []
  split
  · exact .comp v (State.stopJob_unchanged _ _)
  · exact .comp (.comp v (State.stopJob_unchanged _ _) (c := .views :: .scan :: jobEnding)) (State.cancelPending_unchanged _)
  · exact h.mono

end Sys2Proof.Machine
end

