-- ==== Sys2Proof/Laws/FrameFeeder.lean ====
section
/-! SUPPORT. Frames of the display feeder's operations. -/

namespace Sys2Proof.Machine

set_option Elab.async false

theorem State.setBuffer_unchanged (s : State) (b : Bool) (i : StripImage) : Unchanged [.strips] s (s.setBuffer b i) := by
  unfold State.setBuffer
  split <;> (intro p hp; cases p <;> simp_all [same])

theorem State.requestStrip_unchanged (s : State) (k : Nat) : Unchanged [.strips] s (s.requestStrip k) := by
  unfold State.requestStrip
  simp only []
  split
  · intro p hp; cases p <;> simp_all [same]
  · exact s.setBuffer_unchanged _ _

theorem State.abandonStrip_unchanged (s : State) : Unchanged [.unit, .arbiter] s s.abandonStrip := by
  unfold State.abandonStrip
  split
  · split
    · refine .comp s.dropUnit_unchanged (b := [.unit]) (fun p hp => ?_)
      cases p <;> simp_all [same]
    · exact .refl s
  · exact .refl s

theorem State.withdrawStrip_unchanged (s : State) : Unchanged [.strips, .unit, .arbiter] s s.withdrawStrip := by
  unfold State.withdrawStrip
  split
  · refine .comp (a := [.strips]) (fun p hp => ?_) (State.abandonStrip_unchanged _)
    cases p <;> simp_all [same]
  · exact .refl s

/-- What the scan-out of a strip changes. -/
abbrev scanning : List Piece := [.strips, .unit, .arbiter, .stripCounts, .lateness]

theorem State.underrun_unchanged (s : State) : Unchanged scanning s s.underrun := by
  have h := s.withdrawStrip_unchanged
  unfold State.underrun
  refine .comp h (b := [.strips, .stripCounts, .lateness]) (fun p hp => ?_)
  have k : same s s.withdrawStrip .stripCounts := h _ (by decide)
  cases p <;> simp_all [same]

theorem State.beginScanout_unchanged (s : State) : Unchanged scanning s s.beginScanout := by
  unfold State.beginScanout
  split
  · split
    · exact s.underrun_unchanged
    · intro p hp; cases p <;> simp_all [same]
  · intro p hp; cases p <;> simp_all [same]

theorem State.moveRaster_unchanged (s : State) (k : Nat) : Unchanged [.raster] s (s.moveRaster k) := by
  intro p hp; cases p <;> simp_all [same]

theorem State.stripScanout_unchanged (s : State) (k : Nat) : Unchanged scanning s (s.stripScanout k) := by
  have h := s.beginScanout_unchanged
  unfold State.stripScanout
  split
  · simp only []
    split
    · exact .comp h (State.requestStrip_unchanged _ _)
    · exact h
  · exact .refl s

theorem State.stripDone_unchanged (s : State) (u : EngineUnit) (b : Bool) : Unchanged [.strips] s (s.stripDone u b) := by
  unfold State.stripDone
  simp only []
  refine .comp (b := [.strips]) (s.setBuffer_unchanged b
    (stripImage u.parts (s.getter u) s.feeder.layout.background (rasterSize s.feeder.outputMode).w)) (fun p hp => ?_)
  cases p <;> simp_all [same]

theorem State.stripFaulted_unchanged (s : State) (b : Bool) : Unchanged [.strips, .stripCounts] s (s.stripFaulted b) := by
  have h := s.setBuffer_unchanged b (.solid s.feeder.layout.background)
  unfold State.stripFaulted
  refine .comp h (b := [.strips, .stripCounts]) (fun p hp => ?_)
  have k : same s (s.setBuffer b (.solid s.feeder.layout.background)) .stripCounts := h _ (by decide)
  cases p <;> simp_all [same]

theorem State.clearRuns_unchanged (s : State) : Unchanged [.lateness] s s.clearRuns := by
  intro p hp; cases p <;> simp_all [same, State.clearRuns]

theorem State.judge_unchanged (s : State) : Unchanged [.lateness, .scan, .records, .raised, .arbiter] s s.judge := by
  have h (x : State) (b : Bool) : Unchanged [.lateness, .scan, .records, .arbiter] x (x.setDegraded b).clearRuns :=
    .comp (x.setDegraded_unchanged b) (State.clearRuns_unchanged _)
  unfold State.judge
  split
  · exact .refl s
  · split
    · unfold State.judgeLate
      split
      · intro p hp; cases p <;> simp_all [same]
      · split
        · intro p hp; cases p <;> simp_all [same]
        · exact .comp (h s true) (State.raise_unchanged _ _ _ _ _ _)
    · unfold State.judgeClean
      split
      · intro p hp; cases p <;> simp_all [same]
      · split
        · intro p hp; cases p <;> simp_all [same]
        · exact .comp (h s false) (State.raise_unchanged _ _ _ _ _ _)

theorem State.requestFreeze_unchanged (s : State) (m : Nat) (o : Option Nat) : Unchanged [.slots] s (s.requestFreeze m o).1 := by
  unfold State.requestFreeze
  split
  · exact s.givePin_unchanged _ _
  · split
    · exact s.givePin_unchanged _ _
    · exact .refl s

theorem State.settleFreeze_unchanged (s : State) (l : RawLayout) : Unchanged capturing s (s.settleFreeze l).1 := by
  unfold State.settleFreeze
  split
  · exact .refl s
  · split
    · split
      · exact .refl s
      · split
        · exact .refl s
        · exact .comp (s.releasePin_unchanged _ _) (State.requestFreeze_unchanged _ _ _)
    · exact .refl s
    · exact (s.requestFreeze_unchanged _ _).mono

theorem State.refuseLayout_unchanged (s : State) (r g p : Nat) : Unchanged [.raised, .records] s (s.refuseLayout r g p) :=
  s.raise_unchanged _ _ _ _ _

theorem State.adoptLayout_unchanged (s : State) (l : RawLayout) : Unchanged (.layout :: capturing) s (s.adoptLayout l) := by
  unfold State.adoptLayout
  simp only []
  refine .comp (a := .layout :: capturing) ?_ (State.raise_unchanged _ _ _ _ _ _)
  have set (x : Layout) : Unchanged [.layout] s { s with feeder.layout := x } := by
    intro p hp; cases p <;> simp_all [same]
  have h := set
    { generation := l.generation
      background := l.background
      panes := l.panes.zipIdx.map fun (p, n) => carryZoom s.feeder.layout n p.pane }
  split
  · split
    · exact .comp h (State.releasePin_unchanged _ _ _)
    · exact h.mono
  · exact h.mono

theorem State.applyLayout_unchanged (s : State) (bytes : List Byte) : Unchanged (.layout :: capturing) s (s.applyLayout bytes) := by
  unfold State.applyLayout
  simp only []
  split
  · exact (s.refuseLayout_unchanged _ _ _).mono
  · have k := s.settleFreeze_unchanged (parseLayout bytes)
    split
    next h => rw [h] at k; exact .comp k (State.refuseLayout_unchanged _ _ _ _)
    next h => rw [h] at k; exact .comp k (State.adoptLayout_unchanged _ _)

theorem State.readOutputMode_unchanged (s : State) (m : Nat) : Unchanged [.layout] s (s.readOutputMode m) := by
  unfold State.readOutputMode
  split
  · exact .refl s
  · intro p hp; cases p <;> simp_all [same]

theorem State.stepRamps_unchanged (s : State) : Unchanged [.layout] s s.stepRamps := by
  intro p hp; cases p <;> simp_all [same, State.stepRamps]

theorem State.moveHold_unchanged (s : State) : Unchanged [.slots] s s.moveHold := by
  intro p hp; cases p <;> simp_all [same, State.moveHold]

theorem State.latchSources_unchanged (s : State) : Unchanged [.strips] s s.latchSources := by
  intro p hp; cases p <;> simp_all [same, State.latchSources]

theorem State.countHoldoff_unchanged (s : State) : Unchanged [.moderation, .cause, .records, .arbiter] s s.countHoldoff := by
  unfold State.countHoldoff
  simp only []
  refine .comp s.resolveHoldoff_unchanged (b := [.moderation]) ?_
  split
  · intro p hp; cases p <;> simp_all [same]
  · exact .refl _

theorem State.countReaction_unchanged (s : State) : Unchanged [.timer, .safety] s s.countReaction := by
  intro p hp; cases p <;> simp_all [same, State.countReaction]

theorem State.countFrame_unchanged (s : State) :
    Unchanged [.records, .frameNumber, .moderation, .cause, .timer, .safety, .arbiter] s s.countFrame := by
  unfold State.countFrame
  simp only []
  refine .comp (a := [.records, .frameNumber, .moderation, .cause, .arbiter]) ?_ (State.countReaction_unchanged _)
  refine .comp (a := [.records, .frameNumber, .arbiter]) ?_ (State.countHoldoff_unchanged _)
  refine .comp (b := [.frameNumber]) (s.issueWrite_unchanged .feeder .post [(0x20,
      s.frameFields (wrapInc s.feeder.frameNumber))]) (fun p hp => ?_)
  cases p <;> simp_all [same]

theorem State.beginLiveFrame_unchanged (s : State) : Unchanged [.lateness, .strips] s s.beginLiveFrame := by
  unfold State.beginLiveFrame
  refine .comp (a := [.lateness]) (fun p hp => ?_) (State.requestStrip_unchanged _ _)
  cases p <;> simp_all [same]

/-- What a frame turn up to its layout read, or after it, changes. -/
abbrev turning : List Piece :=
  [.strips, .unit, .arbiter, .stripCounts, .lateness, .records, .raised, .layout, .frameTurn, .context, .runningJob, .scan,
   .slots, .frameNumber, .moderation, .cause, .timer, .safety, .errors]

theorem State.frameTurnRest_unchanged (s : State) : Unchanged turning s s.frameTurnRest := by
  unfold State.frameTurnRest
  split
  · refine .comp (a := turning) ?_ (State.takeWork_unchanged _)
    refine .comp (a := turning) ?_ (State.beginLiveFrame_unchanged _)
    refine .comp (a := turning) ?_ (State.countFrame_unchanged _)
    exact .comp (.comp s.stepRamps_unchanged (State.moveHold_unchanged _) (c := turning)) (State.latchSources_unchanged _)
  · exact .comp s.stepRamps_unchanged (State.countFrame_unchanged _)

theorem State.frameTurnJudge_unchanged (s : State) : Unchanged turning s s.frameTurnJudge := by
  unfold State.frameTurnJudge
  split
  · refine .comp (a := turning) ?_ (State.takeWork_unchanged _)
    refine .comp (a := turning) ?_ (State.judge_unchanged _)
    exact .comp s.beginScanout_unchanged (State.takeWork_unchanged _)
  · exact s.beginScanout_unchanged.mono

theorem State.turnFrame_unchanged (s : State) (m : Nat) : Unchanged turning s (s.turnFrame m) := by
  unfold State.turnFrame
  simp only []
  have h : Unchanged turning s (s.frameTurnJudge.readOutputMode m) :=
    .comp s.frameTurnJudge_unchanged (State.readOutputMode_unchanged _ _)
  split
  · refine .comp h (b := [.frameTurn, .records, .arbiter]) ?_
    refine .comp (a := [.frameTurn]) (fun p hp => ?_) (State.issue_unchanged _ _ _ _)
    cases p <;> simp_all [same]
  · exact .comp h (State.frameTurnRest_unchanged _)

theorem State.recoverAtEntry_unchanged (s : State) : Unchanged [.lateness, .scan, .records, .raised, .arbiter] s s.recoverAtEntry := by
  unfold State.recoverAtEntry
  split
  · exact .comp (s.setDegraded_unchanged _) (State.raise_unchanged _ _ _ _ _ _)
  · exact .refl s

theorem State.releaseFreeze_unchanged (s : State) : Unchanged capturing s s.releaseFreeze := by
  unfold State.releaseFreeze
  split
  · exact s.releasePin_unchanged _ _
  · exact .refl s

/-- What the feeder's entries change. -/
abbrev feederEntering : List Piece :=
  [.views, .frameTurn, .strips, .unit, .arbiter, .lateness, .slots, .index, .records, .context, .slotWait, .descriptorRead,
   .raised, .chain, .lesson, .scan, .runningJob]

theorem State.leaveLive_unchanged (s : State) : Unchanged feederEntering s s.leaveLive := by
  unfold State.leaveLive
  simp only []
  refine .comp (a := feederEntering) ?_ (State.recoverAtEntry_unchanged _)
  refine .comp (a := feederEntering) ?_ (State.clearRuns_unchanged _)
  refine .comp (.comp (.comp s.withdrawStrip_unchanged (State.takeWork_unchanged _) (c := feederEntering))
    (State.releaseFreeze_unchanged _) (c := feederEntering))
    (b := [.slots, .lateness, .strips]) (fun p hp => ?_)
  cases p <;> simp_all [same]

theorem State.feederEntry_unchanged (s : State) (m : Mode) : Unchanged feederEntering s (s.feederEntry m) := by
  have h : Unchanged [.views] s { s with feeder.view := m } := by intro p hp; cases p <;> simp_all [same]
  unfold State.feederEntry
  simp only []
  split
  · exact .comp h (State.leaveLive_unchanged _)
  · refine .comp (.comp h (State.leaveLive_unchanged _) (c := feederEntering)) (b := [.frameTurn]) (fun p hp => ?_)
    cases p <;> simp_all [same]
  · exact h.mono

/-- What the feeder changes at any event that reaches it. -/
abbrev feeding : List Piece :=
  [.views, .frameTurn, .strips, .unit, .arbiter, .stripCounts, .lateness, .slots, .index, .records, .context, .slotWait,
   .descriptorRead, .raised, .chain, .lesson, .layout, .runningJob, .scan, .frameNumber, .moderation, .cause, .timer, .safety, .errors]

theorem State.feederTakes_unchanged (s : State) (e : FeederEvent) : Unchanged feeding s (s.feederTakes e) := by
  unfold State.feederTakes
  split
  · cases e with
    | scanout k => exact (s.stripScanout_unchanged k).mono
    | turn m => exact (s.turnFrame_unchanged m).mono
    | takeLayout => intro p hp; cases p <;> simp_all [same, State.feederEvent]
    | entry m => exact (s.feederEntry_unchanged m).mono
  · intro p hp; cases p <;> simp_all [same]

theorem State.feederAll_unchanged (l : List FeederEvent) (s : State) : Unchanged feeding s (State.feederAll l s) := by
  induction l generalizing s with
  | nil => exact .refl s
  | cons e l ih =>
    exact .comp (.comp (s.feederTakes_unchanged e) (State.takeWork_unchanged _) (c := feeding)) (ih _)

theorem State.resumeTurn_unchanged (s : State) (b : Option (List Byte)) : Unchanged feeding s (s.resumeTurn b) := by
  have h : Unchanged [.frameTurn] s
      { s with feeder.layoutRead := .idle, feeder.posted := false, feeder.deferred := [] } := by
    intro p hp; cases p <;> simp_all [same]
  unfold State.resumeTurn
  simp only []
  refine .comp (a := feeding) ?_ (State.feederAll_unchanged _ _)
  refine .comp (a := feeding) ?_ (State.frameTurnRest_unchanged _)
  refine .comp h (b := feeding) ?_
  split
  · exact (State.applyLayout_unchanged _ _).mono
  · exact (State.refuseLayout_unchanged _ _ _ _).mono

end Sys2Proof.Machine
end

