-- ==== Sys2Proof/Laws/FrameRest.lean ====
section
/-! SUPPORT. Frames of the operations of the intake, the page monitor, the post port, the memory port and mode control. -/

namespace Sys2Proof.Machine

set_option Elab.async false

/-! ## Intake -/

theorem State.bumpInstability_unchanged (s : State) (c : Nat) :
    Unchanged [.instability, .records, .raised, .arbiter] s (s.bumpInstability c) := by
  unfold State.bumpInstability
  simp only []
  split
  · exact .comp (.comp (s.setInstability_unchanged _) (State.setSuspended_unchanged _ _) (c := [.instability, .records, .arbiter]))
      (State.raise_unchanged _ _ _ _ _ _)
  · exact (s.setInstability_unchanged _).mono

theorem State.freeTarget_unchanged (s : State) : Unchanged [.slots] s s.freeTarget := by
  unfold State.freeTarget
  split
  · exact s.modifySlot_unchanged _ _
  · exact .refl s

theorem State.discardFrame_unchanged (s : State) : Unchanged [.slots, .shape, .buffer] s s.discardFrame := by
  have h := s.freeTarget_unchanged
  have k : same s s.freeTarget .shape := h _ (by decide)
  have k2 : same s s.freeTarget .buffer := h _ (by decide)
  unfold State.discardFrame
  refine .comp h (b := [.shape, .buffer]) (fun p hp => ?_)
  cases p <;> simp_all [same]

/-- What the judging of a frame as malformed or dropped changes. -/
abbrev discarding : List Piece := [.slots, .shape, .buffer, .badFrames, .instability, .records, .raised, .arbiter]

theorem State.malformedFrame_unchanged (s : State) : Unchanged discarding s s.malformedFrame := by
  unfold State.malformedFrame
  simp only []
  refine .comp (a := [.slots, .shape, .buffer, .badFrames]) ?_ (State.bumpInstability_unchanged _ _)
  refine .comp s.discardFrame_unchanged (b := [.badFrames]) (fun p hp => ?_)
  cases p <;> simp_all [same]

theorem State.malformedLine_unchanged (s : State) : Unchanged discarding s s.malformedLine := by
  unfold State.malformedLine
  refine .comp s.malformedFrame_unchanged (b := [.shape]) (fun p hp => ?_)
  cases p <;> simp_all [same]

theorem State.dropFrame_unchanged (s : State) : Unchanged discarding s s.dropFrame := by
  unfold State.dropFrame
  simp only []
  refine .comp (a := [.slots, .shape, .buffer, .badFrames]) ?_ (State.bumpInstability_unchanged _ _)
  refine .comp s.discardFrame_unchanged (b := [.badFrames, .shape]) (fun p hp => ?_)
  cases p <;> simp_all [same]

theorem State.chooseSlot_unchanged (s : State) : Unchanged [.slots, .shape] s s.chooseSlot := by
  unfold State.chooseSlot
  split
  next n h =>
    refine .comp (b := [.shape]) (s.modifySlot_unchanged n fun t => { t with fill := .filling, geometry := some s.intake.frameGeometry })
      (fun p hp => ?_)
    cases p <;> simp_all [same]
  · intro p hp; cases p <;> simp_all [same]

theorem State.beginFrame_unchanged (s : State) : Unchanged [.slots, .shape] s s.beginFrame := by
  unfold State.beginFrame
  simp only []
  split
  · split
    · intro p hp; cases p <;> simp_all [same]
    · refine .comp (a := [.shape]) (fun p hp => ?_) (State.chooseSlot_unchanged _)
      cases p <;> simp_all [same]
  · intro p hp; cases p <;> simp_all [same]

theorem State.countSlotWait_unchanged (s : State) : Unchanged [.slotWait] s s.countSlotWait := by
  unfold State.countSlotWait
  split <;> (intro p hp; cases p <;> simp_all [same])

theorem State.acceptMeans_unchanged (s : State) (m : List Nat) (g : Geometry) :
    Unchanged [.statistics, .instability, .records, .slotWait, .arbiter] s (s.acceptMeans m g) := by
  unfold State.acceptMeans
  simp only []
  refine .comp (a := [.statistics, .instability, .records, .arbiter]) ?_ (State.countSlotWait_unchanged _)
  have set (n : Nat) (x : TileStats) : Unchanged [.statistics] s { s with intake.frameNumber := n, intake.held := some x } := by
    intro p hp; cases p <;> simp_all [same]
  have h := set (wrapInc s.intake.frameNumber) { means := m, frame := wrapInc s.intake.frameNumber, geometry := g }
  refine .comp (.comp h (State.setInstability_unchanged _ (s.intake.instability - 1)) (c := [.statistics, .instability, .records,
      .arbiter]))
    (b := [.statistics]) (fun p hp => ?_)
  cases p <;> simp_all [same]

theorem State.completeSlot_unchanged (s : State) (p : PendingFrame) : Unchanged [.slots] s (s.completeSlot p) := by
  unfold State.completeSlot
  simp only []
  split
  · exact s.modifySlot_unchanged _ _
  · refine .comp (b := [.slots]) (s.modifySlot_unchanged p.slot fun x => { x with fill := .complete }) (fun p hp => ?_)
    cases p <;> simp_all [same]

theorem State.deliverPending_unchanged (s : State) (p : PendingFrame) :
    Unchanged [.memory, .errors, .cause, .raised, .buffer, .records, .arbiter] s (s.deliverPending p) := by
  have h := State.storeRuns_unchanged .intake ((runsOf (s.intake.pendingCells p.slot)).flatMap burstsOf) s
  have k := h .buffer (by decide)
  unfold State.deliverPending
  refine .comp h (b := [.buffer]) (fun p hp => ?_)
  cases p <;> simp_all [same]

/-- What an acceptance changes. -/
abbrev accepting : List Piece :=
  [.memory, .errors, .cause, .raised, .buffer, .slots, .shape, .statistics, .instability, .records, .slotWait, .arbiter]

theorem State.acceptPending_unchanged (s : State) (p : PendingFrame) : Unchanged accepting s (s.acceptPending p) := by
  unfold State.acceptPending
  simp only []
  have h : Unchanged accepting s { (s.deliverPending p).completeSlot p with intake.pendingFrame := none } := by
    have k := State.completeSlot_unchanged (s.deliverPending p) p
    refine .comp (.comp (s.deliverPending_unchanged p) k (c := accepting)) (b := [.buffer]) (fun q hq => ?_)
    cases q <;> simp_all [same]
  refine .comp (.comp h (State.acceptMeans_unchanged _ p.means p.geometry) (c := accepting)) (b := [.slots, .shape]) ?_
  unfold State.deferredChoice
  split
  · exact State.chooseSlot_unchanged _
  · exact .refl _

theorem State.frameComplete_unchanged (s : State) :
    Unchanged [.slots, .shape, .buffer, .badFrames, .instability, .records, .raised, .statistics, .slotWait, .arbiter]
        s s.frameComplete := by
  unfold State.frameComplete
  split
  · refine .comp (a := [.shape]) (fun p hp => ?_) (State.acceptMeans_unchanged _ _ _)
    cases p <;> simp_all [same]
  · intro p hp; cases p <;> simp_all [same]
  · refine .comp s.dropFrame_unchanged (b := [.shape]) (fun p hp => ?_)
    cases p <;> simp_all [same]

theorem State.takeComponent_unchanged (s : State) (v : Byte) : Unchanged discarding s (s.takeComponent v) := by
  unfold State.takeComponent
  split
  · exact s.malformedLine_unchanged
  · split
    · exact s.dropFrame_unchanged
    · intro p hp; cases p <;> simp_all [same, State.storeComponent]

theorem State.intakeEntry_unchanged (s : State) (m : Mode) : Unchanged [.views, .slots, .shape, .buffer] s (s.intakeEntry m) := by
  have h : Unchanged [.views] s { s with intake.view := m } := by intro p hp; cases p <;> simp_all [same]
  have k (x : State) : Unchanged [.slots, .shape, .buffer] x x.passOver := by
    unfold State.passOver
    split
    · refine .comp x.discardFrame_unchanged (b := [.shape]) (fun p hp => ?_)
      cases p <;> simp_all [same]
    · exact .refl x
  have k2 (x : State) : Unchanged [.buffer] x x.unmarkPending := by
    intro p hp; cases p <;> simp_all [same, State.unmarkPending]
  unfold State.intakeEntry
  simp only []
  split
  · refine .comp (.comp h (.comp (k _) (k2 _) (c := [.slots, .shape, .buffer])) (c := [.views, .slots, .shape, .buffer]))
      (b := [.slots, .shape]) (fun p hp => ?_)
    cases p <;> simp_all [same]
  · refine .comp (.comp h (State.discardFrame_unchanged _) (c := [.views, .slots, .shape, .buffer])) (b := [.shape])
      (fun p hp => ?_)
    cases p <;> simp_all [same]
  · exact h.mono

/-! ## Page monitor -/

theorem State.setPattern_unchanged (s : State) (p : Pattern) : Unchanged [.pattern] s (s.setPattern p) := by
  intro p hp; cases p <;> simp_all [same, State.setPattern]

theorem State.endPattern_unchanged (s : State) : Unchanged [.pattern, .raised, .records, .arbiter] s s.endPattern := by
  unfold State.endPattern
  simp only []
  refine .comp (a := [.pattern]) (fun p hp => ?_) (State.raise_unchanged _ _ _ _ _ _)
  cases p <;> simp_all [same, State.setPattern]

theorem State.resolveTimeout_unchanged (s : State) : Unchanged [.pattern, .raised, .records, .arbiter] s s.resolveTimeout := by
  unfold State.resolveTimeout
  split
  · exact s.endPattern_unchanged
  · exact .refl s

theorem State.pageSeen_unchanged (s : State) (n d f : Nat) : Unchanged [.index, .records, .raised, .arbiter] s (s.pageSeen n d f) := by
  unfold State.pageSeen
  simp only []
  refine .comp (a := [.index, .records, .arbiter]) ?_ (State.raise_unchanged _ _ _ _ _ _)
  exact .comp (s.setEntry_unchanged _ _) (State.issueWrite_unchanged _ _ _ _)

theorem State.stillLive_unchanged (s : State) (f : TileStats) :
    Unchanged [.levels, .index, .records, .raised, .decisions, .arbiter] s (s.stillLive f) := by
  have h : Unchanged [.levels] s { s with monitor.levels := levelsOf s.post.setup f.means } := by
    intro p hp; cases p <;> simp_all [same]
  unfold State.stillLive
  simp only []
  split
  · exact h.mono
  · split
    · exact .comp h (State.pageSeen_unchanged _ _ _ _)
    · split
      · refine .comp h (b := [.decisions]) (fun p hp => ?_)
        cases p <;> simp_all [same]
      · exact h.mono

theorem State.wake_unchanged (s : State) : Unchanged modeChange s s.wake := by
  unfold State.wake
  simp only []
  split
  · refine .comp (s.changeMode_unchanged .live causePresence) (b := [.timer]) (fun p hp => ?_)
    cases p <;> simp_all [same]
  · exact .refl s

/-- What the classification of a frame changes. -/
abbrev classifying : List Piece :=
  [.pattern, .levels, .index, .records, .raised, .decisions, .slots, .context, .slotWait, .descriptorRead, .mode, .announcements,
      .timer, .safety, .arbiter]

theorem State.judgePattern_unchanged (s : State) (p : Pattern) (f : TileStats) :
    Unchanged classifying s (s.judgePattern p f) := by
  unfold State.judgePattern
  simp only []
  split
  · split
    · exact .comp (s.setPattern_unchanged _) (State.stillLive_unchanged _ _)
    · exact .comp (s.setPattern_unchanged _)
        (.comp (State.raise_unchanged _ _ _ _ _ _) (State.wake_unchanged _) (c := modeChange))
  · intro p hp; cases p <;> simp_all [same, State.setPattern]

theorem State.tellMoving_unchanged (s : State) (c : FrameClass) : Unchanged missing s (s.tellMoving c) := by
  unfold State.tellMoving
  split
  · exact s.missCapture_unchanged _
  · exact .refl s

theorem State.judgeMeans_unchanged (s : State) (f : TileStats) : Unchanged classifying s (s.judgeMeans f) := by
  unfold State.judgeMeans
  split
  · unfold State.classify
    exact .comp (State.tellMoving_unchanged _ _) (State.judgePattern_unchanged _ _ _)
  · exact .refl s

theorem State.takeMeans_unchanged (s : State) (f : TileStats) : Unchanged classifying s (s.takeMeans f) := by
  unfold State.takeMeans
  refine .comp (.comp s.resolveTimeout_unchanged (State.judgeMeans_unchanged _ f) (c := classifying)) (b := [.pattern]) (fun p hp => ?_)
  cases p <;> simp_all [same]

theorem State.monitorEntry_unchanged (s : State) (m : Mode) : Unchanged [.views, .pattern, .raised, .records, .arbiter]
    s (s.monitorEntry m) := by
  have h : Unchanged [.views] s { s with monitor.view := m } := by intro p hp; cases p <;> simp_all [same]
  have k : Unchanged [.views, .pattern, .raised, .records, .arbiter] s
      { ({ s with monitor.view := m }).resolveTimeout.setPattern settledPattern with monitor.previous := none } := by
    refine .comp (.comp h (.comp (State.resolveTimeout_unchanged _) (State.setPattern_unchanged _ settledPattern) (c := [.pattern,
        .raised, .records, .arbiter]))
      (c := [.views, .pattern, .raised, .records, .arbiter])) (b := [.pattern]) (fun p hp => ?_)
    cases p <;> simp_all [same]
  unfold State.monitorEntry
  simp only []
  split
  · exact k
  · exact k
  · exact k
  · exact h.mono

/-! ## Post port -/

theorem State.rejudge_unchanged (s : State) : Unchanged [.moderation, .cause, .records, .arbiter] s s.rejudge := by
  unfold State.rejudge
  split
  · exact s.signalReady_unchanged
  · split
    · exact s.stopTimer_unchanged.mono
    · split
      · intro p hp; cases p <;> simp_all [same]
      · exact .refl s

theorem State.resizeQueue_unchanged (s : State) (n : Nat) : Unchanged [.events, .records, .arbiter] s (s.resizeQueue n) := by
  unfold State.resizeQueue
  split
  · exact .refl s
  · exact .comp (s.setPut_unchanged _) (State.setGet_unchanged _ _)

/-- What the taking of a setup, or of an event, changes in the post port. -/
abbrev publishing : List Piece := [.records, .events, .moderation, .cause, .lost, .setup, .arbiter]

theorem State.takeSetup_unchanged (s : State) (u : Setup) (g : Nat) : Unchanged publishing s (s.takeSetup u g) := by
  unfold State.takeSetup
  simp only []
  refine .comp (a := publishing) ?_ (State.takeEvent_unchanged _ _ _ _ _ _)
  refine .comp (a := publishing) ?_ (State.liveField_unchanged _ _ _ _ _)
  refine .comp (a := publishing) ?_ (State.rejudge_unchanged _)
  refine .comp (.comp s.resolveHoldoff_unchanged (State.resizeQueue_unchanged _ u.queueSize) (c := publishing)) (b := [.setup])
    (fun p hp => ?_)
  cases p <;> simp_all [same]

theorem State.setupRead_unchanged (s : State) (bytes : List Byte) : Unchanged publishing s (s.setupRead bytes) := by
  unfold State.setupRead
  simp only []
  split
  · exact (s.takeEvent_unchanged _ _ _ _ _).mono
  · exact s.takeSetup_unchanged _ _

theorem State.acknowledge_unchanged (s : State) (k : Nat) : Unchanged publishing s (s.acknowledge k) := by
  have h (x : State) : Unchanged [.moderation] x x.settleUnsignalled := by
    unfold State.settleUnsignalled
    simp only []
    split
    · refine .comp (a := [.moderation]) (fun p hp => ?_) (State.stopTimer_unchanged _)
      cases p <;> simp_all [same]
    · intro p hp; cases p <;> simp_all [same]
  have k2 (x : State) (n : Nat) : Unchanged [.events] x { x with post.fill := n } := by
    intro p hp; cases p <;> simp_all [same]
  unfold State.acknowledge
  simp only []
  refine .comp (a := publishing) ?_ (h _)
  exact .comp (.comp s.resolveHoldoff_unchanged (k2 _ _) (c := publishing)) (State.publishGet_unchanged _ _)

theorem State.watchSafe_unchanged (s : State) (k : EventKind) : Unchanged [.safety, .records] s (s.watchSafe k) := by
  unfold State.watchSafe
  split
  · exact s.emit_unchanged .post .safe
  · exact .refl s

theorem State.takeRaised_unchanged (s : State) (n : Nat) (e : RaisedEvent) :
    Unchanged [.records, .events, .moderation, .cause, .lost, .raised, .safety, .arbiter] s (s.takeRaised n e) := by
  have k2 : Unchanged [.raised] s { s with post.raised := s.post.raised.eraseIdx n } := by
    intro p hp; cases p <;> simp_all [same]
  exact .comp (.comp k2 (State.takeEvent_unchanged _ _ _ _ _ _)
    (c := [.records, .events, .moderation, .cause, .lost, .raised, .arbiter])) (State.watchSafe_unchanged _ _)

/-! ## Memory port -/

theorem State.upset_unchanged (s : State) (x : Upset) :
    Unchanged [.memory, .errors, .cause, .raised, .records, .arbiter, .unit] s (s.upset x) := by
  cases x with
  | correctable w => unfold State.upset; simp only []; split <;> (intro p hp; cases p <;> simp_all [same])
  | uncorrectable w v => unfold State.upset; simp only []; split <;> (intro p hp; cases p <;> simp_all [same])
  | cutOff a n =>
    have h := s.load_unchanged .engine a n
    unfold State.upset
    simp only []
    split
    · refine .comp h (b := [.unit]) (fun p hp => ?_)
      cases p <;> simp_all [same]
    · exact .refl s

theorem State.befall_unchanged (s : State) (us : List Upset) :
    Unchanged [.memory, .errors, .cause, .raised, .records, .arbiter, .unit] s (s.befall us) := by
  have h : Unchanged [.memory, .errors, .cause, .raised, .records, .arbiter, .unit] s (us.foldl State.upset s) := by
    induction us generalizing s with
    | nil => exact .refl s
    | cons x us ih => exact .comp (s.upset_unchanged x) (ih _)
  refine .comp h (t := us.foldl State.upset s) (b := [.unit]) (fun p hp => ?_)
  cases p <;> simp_all [same, State.befall]

theorem State.intakeBurst_unchanged (s : State) :
    Unchanged [.memory, .errors, .cause, .raised, .buffer, .records, .arbiter] s s.intakeBurst := by
  unfold State.intakeBurst
  split
  next a bs h =>
    have k := s.store_unchanged .intake a (bs.map BufferByte.value)
    have k2 := k .buffer (by decide)
    simp only []
    refine .comp k (b := [.buffer]) (fun p hp => ?_)
    cases p <;> simp_all [same]
  · exact .refl s

/-- What a burst of any requester changes. -/
abbrev bursting : List Piece :=
  [.scan, .records, .jobEntries, .raised, .frameTurn, .portReads, .descriptorRead, .memory, .errors, .cause, .safety, .arbiter,
   .buffer, .host, .unit, .strips, .stripCounts, .slots, .index, .context, .slotWait, .chain, .lesson, .runningJob, .mode,
   .announcements, .timer]

theorem State.faultUnit_unchanged (s : State) (u : EngineUnit) : Unchanged bursting s (s.faultUnit u) := by
  have h (x : State) : Unchanged bursting x x.dropUnit.shutdownTest :=
    .comp x.dropUnit_unchanged (State.shutdownTest_unchanged _)
  unfold State.faultUnit
  simp only []
  split
  · exact .comp (s.stripFaulted_unchanged _) (h _)
  · exact .comp s.capturePieceFaulted_unchanged (h _)
  · exact .comp s.jobPieceFaulted_unchanged (h _)
  · exact .comp s.jobPieceFaulted_unchanged (h _)

theorem State.engineBurst_unchanged (s : State) (u : EngineUnit) (b : EngineBurst) :
    Unchanged bursting s (s.engineBurst u b) := by
  unfold State.engineBurst
  split
  · simp only []
    have k := State.storeRuns_unchanged .engine ((runsOf ((s.destinationCells u).filter fun c => (burstAddrs b).contains c.1)).flatMap burstsOf) s
    refine .comp k (b := [.unit]) (State.setUnit_unchanged _ _)
  · have k := s.load_unchanged .engine b.addr b.len
    split
    next t bytes h =>
      rw [h] at k
      refine .comp k (b := [.unit]) (fun p hp => ?_)
      cases p <;> simp_all [same]
    next t h =>
      rw [h] at k
      exact .comp k (State.faultUnit_unchanged _ _)

theorem State.hostStore_unchanged (s : State) (a : Nat) (d : Word) (e : BitVec 4) :
    Unchanged [.memory, .errors, .cause, .raised, .records, .arbiter] s (s.hostStore a d e) := by
  unfold State.hostStore
  split
  · exact .refl s
  · refine .comp (a := [.memory]) (fun p hp => ?_) (State.codeWord_unchanged _ _ _ _)
    cases p <;> simp_all [same]

theorem State.hostBurst_unchanged (s : State) : Unchanged [.memory, .errors, .cause, .raised, .host, .records, .arbiter] s s.hostBurst := by
  unfold State.hostBurst
  split
  · exact .refl s
  next a h =>
    have k := s.load_unchanged .host a 4
    split
    next t bytes h2 =>
      rw [h2] at k
      refine .comp k (b := [.host]) (fun p hp => ?_)
      cases p <;> simp_all [same]
    next t h2 =>
      rw [h2] at k
      refine .comp k (b := [.host]) (fun p hp => ?_)
      cases p <;> simp_all [same]
  next a d e h =>
    refine .comp (s.hostStore_unchanged a d e) (b := [.host]) (fun p hp => ?_)
    cases p <;> simp_all [same]

theorem State.burstOf_unchanged {s t : State} {q : Requester} {b : EngineBurst} (h : s.burstOf q b = some t) :
    Unchanged bursting s t := by
  unfold State.burstOf at h
  split at h
  · cases h; exact s.intakeBurst_unchanged.mono
  · cases h; exact s.recordBurst_unchanged.mono
  · cases h; exact s.hostBurst_unchanged.mono
  · split at h
    · split at h
      · cases h; exact s.engineBurst_unchanged _ _
      · cases h
    · cases h

theorem State.countBurst_unchanged (s : State) (q : Requester) : Unchanged [.arbiter] s (s.countBurst q) := by
  unfold State.countBurst
  split
  · exact .refl s
  · simp only []
    split
    · split
      · intro p hp; cases p <;> simp_all [same]
      · split <;> (intro p hp; cases p <;> simp_all [same])
    · exact .refl s

theorem State.admitHost_unchanged (s : State) (x : HostAccess) : Unchanged [.host, .cause] s (s.admitHost x) := by
  unfold State.admitHost
  split
  · refine .comp (a := [.host]) (fun p hp => ?_) (State.setCause_unchanged _ _)
    cases p <;> simp_all [same]
  · intro p hp; cases p <;> simp_all [same]

theorem State.hostAccess_unchanged (s : State) (x : HostAccess) : Unchanged [.host, .cause] s (s.hostAccess x) := by
  have h : Unchanged [.host] s { s with port.response := .none } := by intro p hp; cases p <;> simp_all [same]
  unfold State.hostAccess
  simp only []
  split
  · exact .refl s
  · split
    · intro p hp; cases p <;> simp_all [same]
    · exact .comp h (State.admitHost_unchanged _ _)

/-! ## Mode control -/

theorem State.clearControl_unchanged (s : State) : Unchanged [.memory, .errors] s s.clearControl := by
  intro p hp; cases p <;> simp_all [same, State.clearControl]

theorem State.releaseHost_unchanged (s : State) : Unchanged [.host, .cause] s s.releaseHost := by
  unfold State.releaseHost
  split
  · exact s.admitHost_unchanged _
  · exact .refl s

theorem State.leaveBoot_unchanged (s : State) (m : Mode) :
    Unchanged [.mode, .announcements, .timer, .safety, .records, .events, .moderation, .cause, .lost, .arbiter] s (s.leaveBoot m) :=
  .comp (s.enterMode_unchanged m) (State.takeEvent_unchanged _ _ _ _ _ _)

/-- What the end of BOOT changes. -/
abbrev booting : List Piece :=
  [.boot, .inputs, .layout, .mode, .announcements, .timer, .safety, .records, .raised, .views, .shape, .host, .cause, .arbiter,
   .events, .moderation, .lost]

theorem State.endBoot_unchanged (s : State) : Unchanged booting s s.endBoot := by
  have h : Unchanged [.boot, .inputs, .layout] s
      { s with port.boot := .none, control.warned := false, feeder.rasterOn := true } := by
    intro p hp; cases p <;> simp_all [same]
  have k (x : State) : Unchanged [.announcements] x { x with control.announcements := [] } := by
    intro p hp; cases p <;> simp_all [same]
  have k2 (x : State) (m : Mode) : Unchanged [.views] x (x.setViews m) := by
    intro p hp; cases p <;> simp_all [same, State.setViews]
  have k3 (x : State) (i : IntakeState) : Unchanged [.shape] x { x with intake.state := i } := by
    intro p hp; cases p <;> simp_all [same]
  unfold State.endBoot
  simp only []
  refine .comp (a := booting) ?_ (State.shutdownTest_unchanged _)
  refine .comp (a := booting) ?_ (k3 _ _)
  refine .comp (a := booting) ?_ (k2 _ _)
  refine .comp (a := booting) ?_ (k _)
  exact .comp (.comp h (State.releaseHost_unchanged _) (c := booting)) (State.leaveBoot_unchanged _ _)

/-- What a mode entry changes. -/
abbrev entering : List Piece :=
  [.announcements, .views, .frameTurn, .strips, .unit, .arbiter, .stripCounts, .lateness, .slots, .index, .records, .context,
   .slotWait, .descriptorRead, .raised, .chain, .lesson, .layout, .runningJob, .scan, .frameNumber, .moderation, .cause, .timer,
   .safety, .shape, .buffer, .pattern, .decisions, .jobEntries, .mode, .errors]

theorem State.blockEntry_unchanged (s : State) (b : Block) (m : Mode) : Unchanged entering s (s.blockEntry b m) := by
  cases b with
  | intake => exact (s.intakeEntry_unchanged m).mono
  | monitor => exact (s.monitorEntry_unchanged m).mono
  | feeder => exact (s.feederTakes_unchanged _).mono
  | capture => exact (s.captureEntry_unchanged m).mono
  | jobs => exact (s.jobsEntry_unchanged m).mono
  | _ => exact .refl s

theorem State.dropAnnouncement_unchanged (s : State) (x : Announcement) : Unchanged [.announcements] s (s.dropAnnouncement x) := by
  intro p hp; cases p <;> simp_all [same, State.dropAnnouncement]

end Sys2Proof.Machine
end

