-- ==== Sys2Proof/Laws/Close.lean ====
section
/-! SUPPORT. What sending and the closing of a step leave alone, block by block, and the record operations that each shared
operation issues. -/

namespace Sys2Proof.Machine

set_option Elab.async false

/-! ## The arbiter -/

/-- The arbiter changes the grant, the requester last granted and the pass-over counts, and nothing else. -/
theorem State.makeGrant_is (s : State) :
    ∃ g l p, s.makeGrant = { s with port.grant := g, port.last := l, port.pass := p } := by
  unfold State.makeGrant
  split
  · exact ⟨s.port.grant, s.port.last, s.port.pass, rfl⟩
  split
  · exact ⟨s.port.grant, s.port.last, s.port.pass, rfl⟩
  · exact ⟨_, _, _, rfl⟩

theorem State.endEmptyGrant_is (s : State) : ∃ g, s.endEmptyGrant = { s with port.grant := g } := by
  unfold State.endEmptyGrant
  split
  · split
    · exact ⟨s.port.grant, rfl⟩
    · exact ⟨_, rfl⟩
  · exact ⟨s.port.grant, rfl⟩

theorem State.settle_is (s : State) :
    ∃ g l p, s.settle = { s with port.grant := g, port.last := l, port.pass := p } := by
  unfold State.settle
  split
  · obtain ⟨p, hp⟩ : ∃ p, s.settleCounts = { s with port.pass := p } := ⟨_, rfl⟩
    obtain ⟨g, hg⟩ := State.endEmptyGrant_is s.settleCounts
    obtain ⟨g', l, p', hm⟩ := State.makeGrant_is s.settleCounts.endEmptyGrant
    exact ⟨g', l, p', by rw [hm, hg, hp]⟩
  · exact ⟨s.port.grant, s.port.last, s.port.pass, rfl⟩

/-! ## Sending -/

/-- A record operation, issued at once or behind a wait, changes the record queue, what waits for room in it, and the arbiter, which
may grant it at once (R155, R158). -/
theorem State.issue_is (s : State) (actor issuer : Block) (op : RecordOp) :
    ∃ q b w g l p, s.issue actor issuer op =
      { s with port.queue := q, port.blocked := b, port.later := w, port.grant := g, port.last := l, port.pass := p } := by
  unfold State.issue State.emit
  split
  · exact ⟨s.port.queue, _, _, s.port.grant, s.port.last, s.port.pass, rfl⟩
  · unfold State.put
    dsimp only
    split
    · exact ⟨s.port.queue, _, _, s.port.grant, s.port.last, s.port.pass, rfl⟩
    · unfold State.join
      split
      · obtain ⟨g, l, p, h⟩ := State.makeGrant_is { s with port.queue := s.port.queue ++ [op] }
        exact ⟨_, s.port.blocked, s.port.later, g, l, p, h⟩
      · exact ⟨s.port.queue, _, _, s.port.grant, s.port.last, s.port.pass, rfl⟩

/-- What a block sends waits behind what waits already, if the block waits (R155); an operation waits so too if its issuer waits (R34);
otherwise it goes out. -/
theorem State.emit_is (s : State) (actor : Block) (x : Sent) :
    (s.waiting actor = true ∧ s.emit actor x = s.hold ⟨actor, x⟩)
      ∨ (s.waiting actor = false ∧
          ((∃ issuer op, x = .op issuer op ∧ s.waiting issuer = true
              ∧ s.emit actor x = s.hold ⟨waitsFor issuer actor, .op issuer op⟩)
            ∨ (∃ issuer op, x = .op issuer op ∧ s.waiting issuer = false ∧ s.emit actor x = s.join issuer actor op)
            ∨ ((∀ issuer op, x ≠ .op issuer op) ∧ s.emit actor x = s.put actor x))) := by
  unfold State.emit
  cases h : s.waiting actor
  · refine .inr ⟨rfl, ?_⟩
    cases x with
    | op issuer op =>
      cases k : s.waiting issuer
      · exact .inr (.inl ⟨issuer, op, rfl, k, by simp [State.put, k]⟩)
      · exact .inl ⟨issuer, op, rfl, k, by simp [State.put, k]⟩
    | _ => exact .inr (.inr ⟨fun _ _ => nofun, rfl⟩)
  · exact .inl ⟨rfl, rfl⟩

/-- A record operation joins the queue where no other waits and there is room, and otherwise waits, with the blocks that wait for
it (R155). -/
theorem State.join_is (s : State) (issuer actor : Block) (op : RecordOp) :
    (s.port.blocked = [] ∧ s.port.queue.length < 32
        ∧ s.join issuer actor op = { s with port.queue := s.port.queue ++ [op] }.makeGrant)
      ∨ ((s.port.blocked ≠ [] ∨ 32 ≤ s.port.queue.length) ∧ ∃ blocks, issuer ∈ blocks
          ∧ s.join issuer actor op = { s with port.blocked := s.port.blocked ++ [⟨blocks, op⟩] }) := by
  unfold State.join
  split
  · rename_i h; exact .inl ⟨h.1, h.2, rfl⟩
  · rename_i h
    refine .inr ⟨?_, _, ?_, rfl⟩
    · by_cases hb : s.port.blocked = []
      · exact .inr (Nat.le_of_not_lt fun k => h ⟨hb, k⟩)
      · exact .inl hb
    · split <;> exact List.mem_cons_self

/-- With nothing waiting behind the waits, nothing goes out. -/
@[simp] theorem State.release_none {s : State} (h : s.port.later = []) : s.release = s := by
  have e : s.release = { s with port.later := [] } := by simp [State.release, State.emitAll, h]
  rw [e, ← h]

/-- With nobody waiting for room, no block waits. -/
theorem State.not_waiting {s : State} (h : s.noneWait) (b : Block) : s.waiting b = false := by
  simp [State.waiting, h.1, h.2]

/-- Blocks that do not wait issue a record operation after those issued before it (R155). -/
theorem State.issue_ops (s : State) (actor issuer : Block) (op : RecordOp) (h : s.waiting actor = false)
    (k : s.waiting issuer = false) : (s.issue actor issuer op).ops = s.ops ++ [op] := by
  have j : (s.join issuer actor op).ops = s.ops ++ [op] := by
    unfold State.join
    split
    · rename_i e
      obtain ⟨g, l, p, h⟩ := State.makeGrant_is { s with port.queue := s.port.queue ++ [op] }
      rw [h]
      simp [State.ops, e.1]
    · simp [State.ops]
  unfold State.issue State.emit
  rw [if_neg (by simp [h])]
  unfold State.put
  dsimp only
  rw [if_neg (by simp [k])]
  exact j

/-- With room for it, a record operation joins the queue, and the room left is one less (R155). -/
theorem State.issue_room {s : State} {n : Nat} (h : s.roomFor (n + 1)) (actor issuer : Block) (op : RecordOp) :
    (s.issue actor issuer op).ops = s.ops ++ [op] ∧ (s.issue actor issuer op).roomFor n := by
  refine ⟨s.issue_ops _ _ _ (State.not_waiting h.1 _) (State.not_waiting h.1 _), ?_⟩
  unfold State.issue State.emit
  rw [if_neg (by simp [State.not_waiting h.1])]
  unfold State.put
  dsimp only
  rw [if_neg (by simp [State.not_waiting h.1])]
  unfold State.join
  have room : s.port.queue.length < Config.recordRoom := by have := h.2; show _ < 32; omega
  rw [if_pos ⟨h.1.1, room⟩]
  obtain ⟨g, l, p, e⟩ := State.makeGrant_is { s with port.queue := s.port.queue ++ [op] }
  rw [e]
  refine ⟨h.1, ?_⟩
  have := h.2
  simp only [List.length_append, List.length_cons, List.length_nil]
  omega

/-- With room for it, a live field or a record is written by one operation. -/
theorem State.issueWrite_room {s : State} {n : Nat} (h : s.roomFor (n + 1)) (actor issuer : Block)
    (runs : List (Nat × List Byte)) :
    (s.issueWrite actor issuer runs).ops = s.ops ++ [writeRuns runs] ∧ (s.issueWrite actor issuer runs).roomFor n :=
  State.issue_room h _ _ _

theorem State.liveField_room {s : State} {n : Nat} (h : s.roomFor (n + 1)) (actor : Block) (off size v : Nat) :
    (s.liveField actor off size v).ops = s.ops ++ [fieldWrite off size v] ∧ (s.liveField actor off size v).roomFor n :=
  State.issueWrite_room h _ _ _

/-- With nobody waiting for room, an event is raised as it is sent, and carries the input frame number (R13, R174). -/
theorem State.raise_room {s : State} (h : s.noneWait) (o : Block) (k : EventKind) (n a b : Nat) :
    s.raise o k n a b =
      { s with post.raised := s.post.raised ++ [⟨o, k, n, a, b, s.intake.frameNumber, decide (o ≠ .mode)⟩] } := by
  simp [State.raise, State.emit, State.not_waiting h, State.put]

/-! ## Taking work -/

theorem State.scanFrom_spec (s : State) (got : Scan) (n : Nat) :
    (s.scanFrom got n).control = s.control ∧ (s.scanFrom got n).intake = s.intake ∧ (s.scanFrom got n).monitor = s.monitor
      ∧ (s.scanFrom got n).feeder = s.feeder ∧ (s.scanFrom got n).post = s.post ∧ (s.scanFrom got n).mem = s.mem
      ∧ (s.scanFrom got n).pending = s.pending ∧ (s.scanFrom got n).capture = s.capture
      ∧ (s.scanFrom got n).engine = s.engine
      ∧ (s.scanFrom got n).jobs.running = s.jobs.running ∧ (s.scanFrom got n).jobs.entries = s.jobs.entries
      ∧ (s.scanFrom got n).jobs.view = s.jobs.view := by
  unfold State.scanFrom
  split
  · rename_i k _
    obtain ⟨q, b, w, g, l, p, h⟩ :=
      State.issue_is { s with jobs.scan := some { got with reading := some k } } .jobs .jobs (.read (.job k) (jobAddr k) [])
    simp [h]
  · simp

/-- A unit taken changes the engine and the arbiter alone. -/
theorem State.startUnit_is (s : State) (w : Work) (ps : List Part) :
    ∃ e g l p, s.startUnit w ps = { s with engine := e, port.grant := g, port.last := l, port.pass := p } := by
  obtain ⟨g, l, p, h⟩ := State.makeGrant_is (s.setUnit { work := w, parts := ps })
  exact ⟨_, g, l, p, h⟩

/-- What the engine takes at an offer (R94): nothing, a unit for a strip, the next capture piece, the next piece of the running job, or
a scan with its first read. -/
theorem State.takeWork_is (s : State) :
    s.takeWork = s ∨ (∃ w ps, s.takeWork = s.startUnit w ps)
      ∨ (∃ w ps, s.takeWork = { s with capture.context.next := s.capture.context.next + 1 }.startUnit w ps)
      ∨ (∃ j w ps, s.jobs.running = some j ∧
          s.takeWork = { s with jobs.running := some { j with next := j.next + 1 } }.startUnit w ps)
      ∨ (s.scanOffered = true ∧ s.takeWork = s.scanFrom ⟨none, [], false, []⟩ 0) := by
  unfold State.takeWork
  split
  · exact .inl rfl
  split
  · exact .inr (.inl ⟨_, _, rfl⟩)
  split
  · exact .inr (.inr (.inl ⟨_, _, rfl⟩))
  split
  · rename_i j hj
    have hr : s.jobs.running = some j := by
      unfold State.offeredJob at hj
      split at hj
      · split at hj <;> simp_all
      · cases hj
    refine .inr (.inr (.inr (.inl ⟨j, ?_⟩)))
    unfold State.startJobPiece
    simp only []
    split
    · exact ⟨_, _, hr, rfl⟩
    · exact ⟨_, _, hr, rfl⟩
  split
  · exact .inr (.inr (.inr (.inr ⟨‹_›, rfl⟩)))
  · exact .inl rfl

/-- Taking work leaves these blocks as they are. -/
theorem State.takeWork_spec (s : State) :
    s.takeWork.control = s.control ∧ s.takeWork.intake = s.intake ∧ s.takeWork.monitor = s.monitor
      ∧ s.takeWork.feeder = s.feeder ∧ s.takeWork.post = s.post ∧ s.takeWork.mem = s.mem ∧ s.takeWork.pending = s.pending := by
  have unit (x : State) (w : Work) (ps : List Part) :
      (x.startUnit w ps).control = x.control ∧ (x.startUnit w ps).intake = x.intake ∧ (x.startUnit w ps).monitor = x.monitor
        ∧ (x.startUnit w ps).feeder = x.feeder ∧ (x.startUnit w ps).post = x.post ∧ (x.startUnit w ps).mem = x.mem
        ∧ (x.startUnit w ps).pending = x.pending := by
    obtain ⟨e, g, l, p, h⟩ := x.startUnit_is w ps
    simp [h]
  rcases s.takeWork_is with h | ⟨w, ps, h⟩ | ⟨w, ps, h⟩ | ⟨j, w, ps, _, h⟩ | ⟨_, h⟩
  · simp [h]
  · rw [h]; exact unit s w ps
  · rw [h]; exact unit _ w ps
  · rw [h]; exact unit _ w ps
  · have := s.scanFrom_spec ⟨none, [], false, []⟩ 0
    rw [h]; simp_all

@[simp] theorem State.takeWork_control (s : State) : s.takeWork.control = s.control := s.takeWork_spec.1
@[simp] theorem State.takeWork_intake (s : State) : s.takeWork.intake = s.intake := s.takeWork_spec.2.1
@[simp] theorem State.takeWork_monitor (s : State) : s.takeWork.monitor = s.monitor := s.takeWork_spec.2.2.1
@[simp] theorem State.takeWork_feeder (s : State) : s.takeWork.feeder = s.feeder := s.takeWork_spec.2.2.2.1
@[simp] theorem State.takeWork_post (s : State) : s.takeWork.post = s.post := s.takeWork_spec.2.2.2.2.1
@[simp] theorem State.takeWork_mem (s : State) : s.takeWork.mem = s.mem := s.takeWork_spec.2.2.2.2.2.1
@[simp] theorem State.takeWork_pending (s : State) : s.takeWork.pending = s.pending := s.takeWork_spec.2.2.2.2.2.2

/-- Of the capture, taking work moves the next piece alone. -/
theorem State.takeWork_capture (s : State) :
    s.takeWork.capture = { s.capture with context.next := s.takeWork.capture.context.next } := by
  have unit (x : State) (w : Work) (ps : List Part) : (x.startUnit w ps).capture = x.capture := by
    obtain ⟨e, g, l, p, h⟩ := x.startUnit_is w ps
    rw [h]
  rcases s.takeWork_is with h | ⟨w, ps, h⟩ | ⟨w, ps, h⟩ | ⟨j, w, ps, _, h⟩ | ⟨_, h⟩
  · simp [h]
  · simp [h, unit]
  · simp [h, unit]
  · simp [h, unit]
  · have := s.scanFrom_spec ⟨none, [], false, []⟩ 0
    simp_all

/-- Of the jobs, taking work moves the running job's next piece and may begin a scan. -/
theorem State.takeWork_jobs (s : State) :
    s.takeWork.jobs.entries = s.jobs.entries ∧ s.takeWork.jobs.view = s.jobs.view
      ∧ s.takeWork.jobs.running.map (fun j => { j with next := 0 }) = s.jobs.running.map fun j => { j with next := 0 } := by
  have unit (x : State) (w : Work) (ps : List Part) : (x.startUnit w ps).jobs = x.jobs := by
    obtain ⟨e, g, l, p, h⟩ := x.startUnit_is w ps
    rw [h]
  rcases s.takeWork_is with h | ⟨w, ps, h⟩ | ⟨w, ps, h⟩ | ⟨j, w, ps, hj, h⟩ | ⟨_, h⟩
  · simp [h]
  · simp [h, unit]
  · simp [h, unit]
  · simp [h, unit, hj]
  · have := s.scanFrom_spec ⟨none, [], false, []⟩ 0
    simp_all

@[simp] theorem State.takeWork_entries (s : State) : s.takeWork.jobs.entries = s.jobs.entries := s.takeWork_jobs.1
@[simp] theorem State.takeWork_jobsView (s : State) : s.takeWork.jobs.view = s.jobs.view := s.takeWork_jobs.2.1

/-! ## Record operations issued at an offer -/

theorem State.scanFrom_ops (s : State) (sc : Scan) (n : Nat) (h : s.waiting .jobs = false) :
    (s.scanFrom sc n).ops = s.ops ∨ ∃ k, k < 16 ∧ (s.scanFrom sc n).ops = s.ops ++ [.read (.job k) (jobAddr k) []] := by
  unfold State.scanFrom
  split
  · rename_i k hk
    refine .inr ⟨k, ?_, State.issue_ops _ _ _ _ h h⟩
    have := List.mem_of_find?_eq_some hk
    simpa using this
  · exact .inl rfl

theorem State.takeWork_ops (s : State) :
    s.takeWork.ops = s.ops ∨ ∃ k, k < 16 ∧ s.takeWork.ops = s.ops ++ [.read (.job k) (jobAddr k) []] := by
  have unit (x : State) (w : Work) (ps : List Part) : (x.startUnit w ps).ops = x.ops := by
    obtain ⟨e, g, l, p, h⟩ := x.startUnit_is w ps
    rw [h]
    rfl
  rcases s.takeWork_is with h | ⟨w, ps, h⟩ | ⟨w, ps, h⟩ | ⟨j, w, ps, _, h⟩ | ⟨ho, h⟩
  · exact .inl (by rw [h])
  · exact .inl (by rw [h, unit])
  · exact .inl (by rw [h, unit]; rfl)
  · exact .inl (by rw [h, unit]; rfl)
  · rw [h]
    refine s.scanFrom_ops _ 0 ?_
    simp only [State.scanOffered, State.free, Bool.and_eq_true, Bool.not_eq_true'] at ho
    exact ho.2

/-! ## The closing -/

theorem State.settle_spec (s : State) :
    s.settle.control = s.control ∧ s.settle.intake = s.intake ∧ s.settle.monitor = s.monitor ∧ s.settle.engine = s.engine
      ∧ s.settle.feeder = s.feeder ∧ s.settle.capture = s.capture ∧ s.settle.jobs = s.jobs ∧ s.settle.post = s.post
      ∧ s.settle.mem = s.mem ∧ s.settle.pending = s.pending ∧ s.settle.ops = s.ops
      ∧ s.settle.port.queue = s.port.queue ∧ s.settle.port.blocked = s.port.blocked
      ∧ s.settle.port.bridge = s.port.bridge ∧ s.settle.port.response = s.port.response ∧ s.settle.port.boot = s.port.boot
      ∧ s.settle.port.correctable = s.port.correctable ∧ s.settle.port.uncorrectable = s.port.uncorrectable
      ∧ s.settle.port.weak = s.port.weak ∧ s.settle.port.bad = s.port.bad := by
  obtain ⟨g, l, p, h⟩ := s.settle_is
  simp [h, State.ops]

theorem State.close_spec (s0 s : State) :
    (s0.close s).control = s.control ∧ (s0.close s).intake = s.intake ∧ (s0.close s).monitor = s.monitor
      ∧ (s0.close s).engine = s.engine ∧ (s0.close s).feeder = s.feeder ∧ (s0.close s).capture = s.capture
      ∧ (s0.close s).jobs = s.jobs
      ∧ (s0.close s).post = { s.post with raised := unlinkAt s0.post.raised.length s.post.raised }
      ∧ (s0.close s).mem = s.mem ∧ (s0.close s).pending = s.pending ∧ (s0.close s).ops = s.ops
      ∧ (s0.close s).port.queue = s.port.queue ∧ (s0.close s).port.blocked = s.port.blocked
      ∧ (s0.close s).port.bridge = s.port.bridge ∧ (s0.close s).port.response = s.port.response
      ∧ (s0.close s).port.boot = s.port.boot ∧ (s0.close s).port.correctable = s.port.correctable
      ∧ (s0.close s).port.uncorrectable = s.port.uncorrectable ∧ (s0.close s).port.weak = s.port.weak
      ∧ (s0.close s).port.bad = s.port.bad :=
  State.settle_spec _

@[simp] theorem State.close_control (s0 s : State) : (s0.close s).control = s.control := (s0.close_spec s).1
@[simp] theorem State.close_intake (s0 s : State) : (s0.close s).intake = s.intake := (s0.close_spec s).2.1
@[simp] theorem State.close_monitor (s0 s : State) : (s0.close s).monitor = s.monitor := (s0.close_spec s).2.2.1
@[simp] theorem State.close_engine (s0 s : State) : (s0.close s).engine = s.engine := (s0.close_spec s).2.2.2.1
@[simp] theorem State.close_feeder (s0 s : State) : (s0.close s).feeder = s.feeder := (s0.close_spec s).2.2.2.2.1
@[simp] theorem State.close_capture (s0 s : State) : (s0.close s).capture = s.capture := (s0.close_spec s).2.2.2.2.2.1
@[simp] theorem State.close_jobs (s0 s : State) : (s0.close s).jobs = s.jobs := (s0.close_spec s).2.2.2.2.2.2.1
@[simp] theorem State.close_post (s0 s : State) :
    (s0.close s).post = { s.post with raised := unlinkAt s0.post.raised.length s.post.raised } :=
  (s0.close_spec s).2.2.2.2.2.2.2.1
@[simp] theorem State.close_mem (s0 s : State) : (s0.close s).mem = s.mem := (s0.close_spec s).2.2.2.2.2.2.2.2.1
@[simp] theorem State.close_pending (s0 s : State) : (s0.close s).pending = s.pending :=
  (s0.close_spec s).2.2.2.2.2.2.2.2.2.1
@[simp] theorem State.close_ops (s0 s : State) : (s0.close s).ops = s.ops := (s0.close_spec s).2.2.2.2.2.2.2.2.2.2.1

/-- Of the memory port, closing a step changes the grant, the requester last granted and the pass-over counts alone. -/
theorem State.close_port (s0 s : State) :
    (s0.close s).port.queue = s.port.queue ∧ (s0.close s).port.blocked = s.port.blocked
      ∧ (s0.close s).port.bridge = s.port.bridge ∧ (s0.close s).port.response = s.port.response
      ∧ (s0.close s).port.boot = s.port.boot ∧ (s0.close s).port.correctable = s.port.correctable
      ∧ (s0.close s).port.uncorrectable = s.port.uncorrectable ∧ (s0.close s).port.weak = s.port.weak
      ∧ (s0.close s).port.bad = s.port.bad := (s0.close_spec s).2.2.2.2.2.2.2.2.2.2.2

@[simp] theorem State.closeWork_control (s0 s : State) : (s0.closeWork s).control = s.control := by simp [State.closeWork]
@[simp] theorem State.closeWork_intake (s0 s : State) : (s0.closeWork s).intake = s.intake := by simp [State.closeWork]
@[simp] theorem State.closeWork_monitor (s0 s : State) : (s0.closeWork s).monitor = s.monitor := by simp [State.closeWork]
@[simp] theorem State.closeWork_feeder (s0 s : State) : (s0.closeWork s).feeder = s.feeder := by simp [State.closeWork]
@[simp] theorem State.closeWork_post (s0 s : State) :
    (s0.closeWork s).post = { s.post with raised := unlinkAt s0.post.raised.length s.post.raised } := by
  simp [State.closeWork]
@[simp] theorem State.closeWork_mem (s0 s : State) : (s0.closeWork s).mem = s.mem := by simp [State.closeWork]
@[simp] theorem State.closeWork_pending (s0 s : State) : (s0.closeWork s).pending = s.pending := by simp [State.closeWork]
@[simp] theorem State.closeWork_entries (s0 s : State) : (s0.closeWork s).jobs.entries = s.jobs.entries := by
  simp [State.closeWork]
@[simp] theorem State.closeWork_jobsView (s0 s : State) : (s0.closeWork s).jobs.view = s.jobs.view := by
  simp [State.closeWork]

theorem State.closeWork_capture (s0 s : State) :
    (s0.closeWork s).capture = { s.capture with context.next := (s0.closeWork s).capture.context.next } := by
  simpa [State.closeWork] using s.takeWork_capture

theorem State.closeWork_running (s0 s : State) :
    (s0.closeWork s).jobs.running.map (fun j => { j with next := 0 }) = s.jobs.running.map fun j => { j with next := 0 } := by
  simpa [State.closeWork] using s.takeWork_jobs.2.2

theorem State.closeWork_ops (s0 s : State) :
    (s0.closeWork s).ops = s.ops ∨ ∃ k, k < 16 ∧ (s0.closeWork s).ops = s.ops ++ [.read (.job k) (jobAddr k) []] := by
  simpa [State.closeWork] using s.takeWork_ops

/-- Marking the first event of a step leaves each event the frame number it arose at (R13). -/
theorem unlinkAt_frames {n f : Nat} {l : List RaisedEvent} (h : ∀ e ∈ l.drop n, e.frame = f) :
    ∀ e ∈ (unlinkAt n l).drop n, e.frame = f := by
  unfold unlinkAt
  induction l generalizing n with
  | nil => simp
  | cons x l ih =>
    cases n with
    | zero => simp_all
    | succ n => simpa using ih (by simpa using h)

theorem Stamped.close {s u : State} (h : Stamped s u) : Stamped s (s.close u) := by
  intro e he
  simp only [State.close_post, State.close_intake] at he ⊢
  exact unlinkAt_frames h e he

theorem Stamped.closeWork {s u : State} (h : Stamped s u) : Stamped s (s.closeWork u) :=
  Stamped.close (u := u.takeWork) (by intro e he; simp only [State.takeWork_post, State.takeWork_intake] at he ⊢; exact h e he)

/-- A step that raises nothing leaves no event to stamp. -/
theorem Stamped.of_raised {s u : State} (h : u.post.raised = s.post.raised) : Stamped s u := by
  intro e he
  rw [h, List.drop_length] at he
  cases he

end Sys2Proof.Machine
end

