-- ==== Sys2Proof/Laws/Effects.lean ====
section
/-! SUPPORT. What each operation that issues record traffic does to each block: its own field, the record queue, what waits for room
in it, and the arbiter; and, with room for it, the operations issued. -/

namespace Sys2Proof.Machine

set_option Elab.async false

/-! ## Record operations -/

@[simp] theorem State.issue_control (s : State) (x y : Block) (op : RecordOp) : (s.issue x y op).control = s.control := by
  obtain ⟨_, _, _, _, _, _, h⟩ := s.issue_is x y op; rw [h]
@[simp] theorem State.issue_intake (s : State) (x y : Block) (op : RecordOp) : (s.issue x y op).intake = s.intake := by
  obtain ⟨_, _, _, _, _, _, h⟩ := s.issue_is x y op; rw [h]
@[simp] theorem State.issue_monitor (s : State) (x y : Block) (op : RecordOp) : (s.issue x y op).monitor = s.monitor := by
  obtain ⟨_, _, _, _, _, _, h⟩ := s.issue_is x y op; rw [h]
@[simp] theorem State.issue_engine (s : State) (x y : Block) (op : RecordOp) : (s.issue x y op).engine = s.engine := by
  obtain ⟨_, _, _, _, _, _, h⟩ := s.issue_is x y op; rw [h]
@[simp] theorem State.issue_feeder (s : State) (x y : Block) (op : RecordOp) : (s.issue x y op).feeder = s.feeder := by
  obtain ⟨_, _, _, _, _, _, h⟩ := s.issue_is x y op; rw [h]
@[simp] theorem State.issue_capture (s : State) (x y : Block) (op : RecordOp) : (s.issue x y op).capture = s.capture := by
  obtain ⟨_, _, _, _, _, _, h⟩ := s.issue_is x y op; rw [h]
@[simp] theorem State.issue_jobs (s : State) (x y : Block) (op : RecordOp) : (s.issue x y op).jobs = s.jobs := by
  obtain ⟨_, _, _, _, _, _, h⟩ := s.issue_is x y op; rw [h]
@[simp] theorem State.issue_post (s : State) (x y : Block) (op : RecordOp) : (s.issue x y op).post = s.post := by
  obtain ⟨_, _, _, _, _, _, h⟩ := s.issue_is x y op; rw [h]
@[simp] theorem State.issue_mem (s : State) (x y : Block) (op : RecordOp) : (s.issue x y op).mem = s.mem := by
  obtain ⟨_, _, _, _, _, _, h⟩ := s.issue_is x y op; rw [h]
@[simp] theorem State.issue_pending (s : State) (x y : Block) (op : RecordOp) : (s.issue x y op).pending = s.pending := by
  obtain ⟨_, _, _, _, _, _, h⟩ := s.issue_is x y op; rw [h]
@[simp] theorem State.issue_bridge (s : State) (x y : Block) (op : RecordOp) : (s.issue x y op).port.bridge = s.port.bridge := by
  obtain ⟨_, _, _, _, _, _, h⟩ := s.issue_is x y op; rw [h]
@[simp] theorem State.issue_response (s : State) (x y : Block) (op : RecordOp) : (s.issue x y op).port.response = s.port.response := by
  obtain ⟨_, _, _, _, _, _, h⟩ := s.issue_is x y op; rw [h]
@[simp] theorem State.issue_boot (s : State) (x y : Block) (op : RecordOp) : (s.issue x y op).port.boot = s.port.boot := by
  obtain ⟨_, _, _, _, _, _, h⟩ := s.issue_is x y op; rw [h]
@[simp] theorem State.issue_correctable (s : State) (x y : Block) (op : RecordOp) :
    (s.issue x y op).port.correctable = s.port.correctable := by
  obtain ⟨_, _, _, _, _, _, h⟩ := s.issue_is x y op; rw [h]
@[simp] theorem State.issue_uncorrectable (s : State) (x y : Block) (op : RecordOp) :
    (s.issue x y op).port.uncorrectable = s.port.uncorrectable := by
  obtain ⟨_, _, _, _, _, _, h⟩ := s.issue_is x y op; rw [h]
@[simp] theorem State.issue_weak (s : State) (x y : Block) (op : RecordOp) : (s.issue x y op).port.weak = s.port.weak := by
  obtain ⟨_, _, _, _, _, _, h⟩ := s.issue_is x y op; rw [h]
@[simp] theorem State.issue_bad (s : State) (x y : Block) (op : RecordOp) : (s.issue x y op).port.bad = s.port.bad := by
  obtain ⟨_, _, _, _, _, _, h⟩ := s.issue_is x y op; rw [h]
@[simp] theorem State.issue_news (s : State) (x y : Block) (op : RecordOp) : (s.issue x y op).news = s.news := by
  simp [State.news]

@[simp] theorem State.issueWrite_control (s : State) (x y : Block) (r : List (Nat × List Byte)) :
    (s.issueWrite x y r).control = s.control := 
  s.issue_control _ _ _
@[simp] theorem State.issueWrite_intake (s : State) (x y : Block) (r : List (Nat × List Byte)) :
    (s.issueWrite x y r).intake = s.intake := 
  s.issue_intake _ _ _
@[simp] theorem State.issueWrite_monitor (s : State) (x y : Block) (r : List (Nat × List Byte)) :
    (s.issueWrite x y r).monitor = s.monitor := 
  s.issue_monitor _ _ _
@[simp] theorem State.issueWrite_engine (s : State) (x y : Block) (r : List (Nat × List Byte)) :
    (s.issueWrite x y r).engine = s.engine := 
  s.issue_engine _ _ _
@[simp] theorem State.issueWrite_feeder (s : State) (x y : Block) (r : List (Nat × List Byte)) :
    (s.issueWrite x y r).feeder = s.feeder := 
  s.issue_feeder _ _ _
@[simp] theorem State.issueWrite_capture (s : State) (x y : Block) (r : List (Nat × List Byte)) :
    (s.issueWrite x y r).capture = s.capture := 
  s.issue_capture _ _ _
@[simp] theorem State.issueWrite_jobs (s : State) (x y : Block) (r : List (Nat × List Byte)) : (s.issueWrite x y r).jobs = s.jobs := 
  s.issue_jobs _ _ _
@[simp] theorem State.issueWrite_post (s : State) (x y : Block) (r : List (Nat × List Byte)) : (s.issueWrite x y r).post = s.post := 
  s.issue_post _ _ _
@[simp] theorem State.issueWrite_mem (s : State) (x y : Block) (r : List (Nat × List Byte)) : (s.issueWrite x y r).mem = s.mem := 
  s.issue_mem _ _ _
@[simp] theorem State.issueWrite_pending (s : State) (x y : Block) (r : List (Nat × List Byte)) :
    (s.issueWrite x y r).pending = s.pending := 
  s.issue_pending _ _ _
@[simp] theorem State.issueWrite_bridge (s : State) (x y : Block) (r : List (Nat × List Byte)) :
    (s.issueWrite x y r).port.bridge = s.port.bridge := 
  s.issue_bridge _ _ _
@[simp] theorem State.issueWrite_response (s : State) (x y : Block) (r : List (Nat × List Byte)) :
    (s.issueWrite x y r).port.response = s.port.response := 
  s.issue_response _ _ _
@[simp] theorem State.issueWrite_boot (s : State) (x y : Block) (r : List (Nat × List Byte)) :
    (s.issueWrite x y r).port.boot = s.port.boot := 
  s.issue_boot _ _ _
@[simp] theorem State.issueWrite_correctable (s : State) (x y : Block) (r : List (Nat × List Byte)) :
    (s.issueWrite x y r).port.correctable = s.port.correctable := 
  s.issue_correctable _ _ _
@[simp] theorem State.issueWrite_uncorrectable (s : State) (x y : Block) (r : List (Nat × List Byte)) :
    (s.issueWrite x y r).port.uncorrectable = s.port.uncorrectable := 
  s.issue_uncorrectable _ _ _
@[simp] theorem State.issueWrite_weak (s : State) (x y : Block) (r : List (Nat × List Byte)) :
    (s.issueWrite x y r).port.weak = s.port.weak := 
  s.issue_weak _ _ _
@[simp] theorem State.issueWrite_bad (s : State) (x y : Block) (r : List (Nat × List Byte)) :
    (s.issueWrite x y r).port.bad = s.port.bad := 
  s.issue_bad _ _ _
@[simp] theorem State.issueWrite_news (s : State) (x y : Block) (r : List (Nat × List Byte)) :
    (s.issueWrite x y r).news = s.news := s.issue_news _ _ _

@[simp] theorem State.liveField_control (s : State) (x : Block) (o z v : Nat) : (s.liveField x o z v).control = s.control := 
  s.issueWrite_control _ _ _
@[simp] theorem State.liveField_intake (s : State) (x : Block) (o z v : Nat) : (s.liveField x o z v).intake = s.intake := 
  s.issueWrite_intake _ _ _
@[simp] theorem State.liveField_monitor (s : State) (x : Block) (o z v : Nat) : (s.liveField x o z v).monitor = s.monitor := 
  s.issueWrite_monitor _ _ _
@[simp] theorem State.liveField_engine (s : State) (x : Block) (o z v : Nat) : (s.liveField x o z v).engine = s.engine := 
  s.issueWrite_engine _ _ _
@[simp] theorem State.liveField_feeder (s : State) (x : Block) (o z v : Nat) : (s.liveField x o z v).feeder = s.feeder := 
  s.issueWrite_feeder _ _ _
@[simp] theorem State.liveField_capture (s : State) (x : Block) (o z v : Nat) : (s.liveField x o z v).capture = s.capture := 
  s.issueWrite_capture _ _ _
@[simp] theorem State.liveField_jobs (s : State) (x : Block) (o z v : Nat) : (s.liveField x o z v).jobs = s.jobs := 
  s.issueWrite_jobs _ _ _
@[simp] theorem State.liveField_post (s : State) (x : Block) (o z v : Nat) : (s.liveField x o z v).post = s.post := 
  s.issueWrite_post _ _ _
@[simp] theorem State.liveField_mem (s : State) (x : Block) (o z v : Nat) : (s.liveField x o z v).mem = s.mem := 
  s.issueWrite_mem _ _ _
@[simp] theorem State.liveField_pending (s : State) (x : Block) (o z v : Nat) : (s.liveField x o z v).pending = s.pending := 
  s.issueWrite_pending _ _ _
@[simp] theorem State.liveField_bridge (s : State) (x : Block) (o z v : Nat) : (s.liveField x o z v).port.bridge = s.port.bridge := 
  s.issueWrite_bridge _ _ _
@[simp] theorem State.liveField_response (s : State) (x : Block) (o z v : Nat) : (s.liveField x o z v).port.response = s.port.response := 
  s.issueWrite_response _ _ _
@[simp] theorem State.liveField_boot (s : State) (x : Block) (o z v : Nat) : (s.liveField x o z v).port.boot = s.port.boot := 
  s.issueWrite_boot _ _ _
@[simp] theorem State.liveField_correctable (s : State) (x : Block) (o z v : Nat) :
    (s.liveField x o z v).port.correctable = s.port.correctable := 
  s.issueWrite_correctable _ _ _
@[simp] theorem State.liveField_uncorrectable (s : State) (x : Block) (o z v : Nat) :
    (s.liveField x o z v).port.uncorrectable = s.port.uncorrectable := 
  s.issueWrite_uncorrectable _ _ _
@[simp] theorem State.liveField_weak (s : State) (x : Block) (o z v : Nat) : (s.liveField x o z v).port.weak = s.port.weak := 
  s.issueWrite_weak _ _ _
@[simp] theorem State.liveField_bad (s : State) (x : Block) (o z v : Nat) : (s.liveField x o z v).port.bad = s.port.bad := 
  s.issueWrite_bad _ _ _
@[simp] theorem State.liveField_news (s : State) (x : Block) (o z v : Nat) : (s.liveField x o z v).news = s.news :=
  s.issueWrite_news _ _ _

/-! ## Live fields -/

/-- The field changes, with its live field; nothing else does, beside the queue and the arbiter (R177). -/
theorem State.setCredit_is (s : State) (n : Nat) :
    s.setCredit n = { s with capture.credit := n, port := (s.setCredit n).port }
      ∧ (s.setCredit n).port.bridge = s.port.bridge ∧ (s.setCredit n).port.response = s.port.response
      ∧ (s.setCredit n).port.boot = s.port.boot ∧ (s.setCredit n).port.correctable = s.port.correctable
      ∧ (s.setCredit n).port.uncorrectable = s.port.uncorrectable ∧ (s.setCredit n).port.weak = s.port.weak
      ∧ (s.setCredit n).port.bad = s.port.bad := by
  unfold State.setCredit
  split
  · rename_i h; subst h; simp
  · refine ⟨?_, by simp⟩
    obtain ⟨q, b, w, g, l, p, h⟩ := State.issue_is { s with capture.credit := n } .capture .post (fieldWrite 0x0C 1 n)
    exact h.trans (by rw [show State.liveField _ _ _ _ _ = _ from h])

theorem State.setCredit_room {s : State} {k : Nat} (n : Nat)
    (h : s.roomFor (k + (fieldChange (s.capture.credit = n) 0x0C 1 n).length)) :
    (s.setCredit n).ops = s.ops ++ fieldChange (s.capture.credit = n) 0x0C 1 n ∧ (s.setCredit n).roomFor k := by
  unfold State.setCredit fieldChange at *
  split
  · rename_i e; rw [if_pos e] at h; exact ⟨by simp [State.ops], h⟩
  · rename_i e; rw [if_neg e] at h; exact State.liveField_room (s := { s with capture.credit := n }) h _ _ _ _

@[simp] theorem State.setCredit_control (s : State) (n : Nat) : (s.setCredit n).control = s.control := by
  rw [(s.setCredit_is n).1]
@[simp] theorem State.setCredit_intake (s : State) (n : Nat) : (s.setCredit n).intake = s.intake := by
  rw [(s.setCredit_is n).1]
@[simp] theorem State.setCredit_monitor (s : State) (n : Nat) : (s.setCredit n).monitor = s.monitor := by
  rw [(s.setCredit_is n).1]
@[simp] theorem State.setCredit_engine (s : State) (n : Nat) : (s.setCredit n).engine = s.engine := by
  rw [(s.setCredit_is n).1]
@[simp] theorem State.setCredit_feeder (s : State) (n : Nat) : (s.setCredit n).feeder = s.feeder := by
  rw [(s.setCredit_is n).1]
@[simp] theorem State.setCredit_capture (s : State) (n : Nat) : (s.setCredit n).capture = { s.capture with credit := n } := by
  rw [(s.setCredit_is n).1]
@[simp] theorem State.setCredit_jobs (s : State) (n : Nat) : (s.setCredit n).jobs = s.jobs := by
  rw [(s.setCredit_is n).1]
@[simp] theorem State.setCredit_post (s : State) (n : Nat) : (s.setCredit n).post = s.post := by
  rw [(s.setCredit_is n).1]
@[simp] theorem State.setCredit_mem (s : State) (n : Nat) : (s.setCredit n).mem = s.mem := by
  rw [(s.setCredit_is n).1]
@[simp] theorem State.setCredit_pending (s : State) (n : Nat) : (s.setCredit n).pending = s.pending := by
  rw [(s.setCredit_is n).1]
@[simp] theorem State.setCredit_bridge (s : State) (n : Nat) : (s.setCredit n).port.bridge = s.port.bridge := (s.setCredit_is n).2.1
@[simp] theorem State.setCredit_response (s : State) (n : Nat) :
    (s.setCredit n).port.response = s.port.response := (s.setCredit_is n).2.2.1
@[simp] theorem State.setCredit_boot (s : State) (n : Nat) : (s.setCredit n).port.boot = s.port.boot := (s.setCredit_is n).2.2.2.1
@[simp] theorem State.setCredit_correctable (s : State) (n : Nat) :
    (s.setCredit n).port.correctable = s.port.correctable := (s.setCredit_is n).2.2.2.2.1
@[simp] theorem State.setCredit_uncorrectable (s : State) (n : Nat) :
    (s.setCredit n).port.uncorrectable = s.port.uncorrectable := (s.setCredit_is n).2.2.2.2.2.1
@[simp] theorem State.setCredit_weak (s : State) (n : Nat) : (s.setCredit n).port.weak = s.port.weak := (s.setCredit_is n).2.2.2.2.2.2.1
@[simp] theorem State.setCredit_bad (s : State) (n : Nat) : (s.setCredit n).port.bad = s.port.bad := (s.setCredit_is n).2.2.2.2.2.2.2
@[simp] theorem State.setCredit_news (s : State) (n : Nat) : (s.setCredit n).news = s.news := by simp [State.news]

/-- The field changes, with its live field; nothing else does, beside the queue and the arbiter (R177). -/
theorem State.setChain_is (s : State) (n : Bool) :
    s.setChain n = { s with capture.running := n, port := (s.setChain n).port }
      ∧ (s.setChain n).port.bridge = s.port.bridge ∧ (s.setChain n).port.response = s.port.response
      ∧ (s.setChain n).port.boot = s.port.boot ∧ (s.setChain n).port.correctable = s.port.correctable
      ∧ (s.setChain n).port.uncorrectable = s.port.uncorrectable ∧ (s.setChain n).port.weak = s.port.weak
      ∧ (s.setChain n).port.bad = s.port.bad := by
  unfold State.setChain
  split
  · rename_i h; subst h; simp
  · refine ⟨?_, by simp⟩
    obtain ⟨q, b, w, g, l, p, h⟩ := State.issue_is { s with capture.running := n } .capture .post (fieldWrite 0x03 1 (boolByte n))
    exact h.trans (by rw [show State.liveField _ _ _ _ _ = _ from h])

theorem State.setChain_room {s : State} {k : Nat} (n : Bool)
    (h : s.roomFor (k + (fieldChange (s.capture.running = n) 0x03 1 (boolByte n)).length)) :
    (s.setChain n).ops = s.ops ++ fieldChange (s.capture.running = n) 0x03 1 (boolByte n) ∧ (s.setChain n).roomFor k := by
  unfold State.setChain fieldChange at *
  split
  · rename_i e; rw [if_pos e] at h; exact ⟨by simp [State.ops], h⟩
  · rename_i e; rw [if_neg e] at h; exact State.liveField_room (s := { s with capture.running := n }) h _ _ _ _

@[simp] theorem State.setChain_control (s : State) (n : Bool) : (s.setChain n).control = s.control := by
  rw [(s.setChain_is n).1]
@[simp] theorem State.setChain_intake (s : State) (n : Bool) : (s.setChain n).intake = s.intake := by
  rw [(s.setChain_is n).1]
@[simp] theorem State.setChain_monitor (s : State) (n : Bool) : (s.setChain n).monitor = s.monitor := by
  rw [(s.setChain_is n).1]
@[simp] theorem State.setChain_engine (s : State) (n : Bool) : (s.setChain n).engine = s.engine := by
  rw [(s.setChain_is n).1]
@[simp] theorem State.setChain_feeder (s : State) (n : Bool) : (s.setChain n).feeder = s.feeder := by
  rw [(s.setChain_is n).1]
@[simp] theorem State.setChain_capture (s : State) (n : Bool) : (s.setChain n).capture = { s.capture with running := n } := by
  rw [(s.setChain_is n).1]
@[simp] theorem State.setChain_jobs (s : State) (n : Bool) : (s.setChain n).jobs = s.jobs := by
  rw [(s.setChain_is n).1]
@[simp] theorem State.setChain_post (s : State) (n : Bool) : (s.setChain n).post = s.post := by
  rw [(s.setChain_is n).1]
@[simp] theorem State.setChain_mem (s : State) (n : Bool) : (s.setChain n).mem = s.mem := by
  rw [(s.setChain_is n).1]
@[simp] theorem State.setChain_pending (s : State) (n : Bool) : (s.setChain n).pending = s.pending := by
  rw [(s.setChain_is n).1]
@[simp] theorem State.setChain_bridge (s : State) (n : Bool) : (s.setChain n).port.bridge = s.port.bridge := (s.setChain_is n).2.1
@[simp] theorem State.setChain_response (s : State) (n : Bool) : (s.setChain n).port.response = s.port.response := (s.setChain_is n).2.2.1
@[simp] theorem State.setChain_boot (s : State) (n : Bool) : (s.setChain n).port.boot = s.port.boot := (s.setChain_is n).2.2.2.1
@[simp] theorem State.setChain_correctable (s : State) (n : Bool) :
    (s.setChain n).port.correctable = s.port.correctable := (s.setChain_is n).2.2.2.2.1
@[simp] theorem State.setChain_uncorrectable (s : State) (n : Bool) :
    (s.setChain n).port.uncorrectable = s.port.uncorrectable := (s.setChain_is n).2.2.2.2.2.1
@[simp] theorem State.setChain_weak (s : State) (n : Bool) : (s.setChain n).port.weak = s.port.weak := (s.setChain_is n).2.2.2.2.2.2.1
@[simp] theorem State.setChain_bad (s : State) (n : Bool) : (s.setChain n).port.bad = s.port.bad := (s.setChain_is n).2.2.2.2.2.2.2
@[simp] theorem State.setChain_news (s : State) (n : Bool) : (s.setChain n).news = s.news := by simp [State.news]

/-- The field changes, with its live field; nothing else does, beside the queue and the arbiter (R177). -/
theorem State.setLesson_is (s : State) (n : Bool) :
    s.setLesson n = { s with capture.lessonOpen := n, port := (s.setLesson n).port }
      ∧ (s.setLesson n).port.bridge = s.port.bridge ∧ (s.setLesson n).port.response = s.port.response
      ∧ (s.setLesson n).port.boot = s.port.boot ∧ (s.setLesson n).port.correctable = s.port.correctable
      ∧ (s.setLesson n).port.uncorrectable = s.port.uncorrectable ∧ (s.setLesson n).port.weak = s.port.weak
      ∧ (s.setLesson n).port.bad = s.port.bad := by
  unfold State.setLesson
  split
  · rename_i h; subst h; simp
  · refine ⟨?_, by simp⟩
    obtain ⟨q, b, w, g, l, p, h⟩ := State.issue_is { s with capture.lessonOpen := n } .capture .post (fieldWrite 0x01 1 (boolByte n))
    exact h.trans (by rw [show State.liveField _ _ _ _ _ = _ from h])

theorem State.setLesson_room {s : State} {k : Nat} (n : Bool)
    (h : s.roomFor (k + (fieldChange (s.capture.lessonOpen = n) 0x01 1 (boolByte n)).length)) :
    (s.setLesson n).ops = s.ops ++ fieldChange (s.capture.lessonOpen = n) 0x01 1 (boolByte n) ∧ (s.setLesson n).roomFor k := by
  unfold State.setLesson fieldChange at *
  split
  · rename_i e; rw [if_pos e] at h; exact ⟨by simp [State.ops], h⟩
  · rename_i e; rw [if_neg e] at h; exact State.liveField_room (s := { s with capture.lessonOpen := n }) h _ _ _ _

@[simp] theorem State.setLesson_control (s : State) (n : Bool) : (s.setLesson n).control = s.control := by
  rw [(s.setLesson_is n).1]
@[simp] theorem State.setLesson_intake (s : State) (n : Bool) : (s.setLesson n).intake = s.intake := by
  rw [(s.setLesson_is n).1]
@[simp] theorem State.setLesson_monitor (s : State) (n : Bool) : (s.setLesson n).monitor = s.monitor := by
  rw [(s.setLesson_is n).1]
@[simp] theorem State.setLesson_engine (s : State) (n : Bool) : (s.setLesson n).engine = s.engine := by
  rw [(s.setLesson_is n).1]
@[simp] theorem State.setLesson_feeder (s : State) (n : Bool) : (s.setLesson n).feeder = s.feeder := by
  rw [(s.setLesson_is n).1]
@[simp] theorem State.setLesson_capture (s : State) (n : Bool) : (s.setLesson n).capture = { s.capture with lessonOpen := n } := by
  rw [(s.setLesson_is n).1]
@[simp] theorem State.setLesson_jobs (s : State) (n : Bool) : (s.setLesson n).jobs = s.jobs := by
  rw [(s.setLesson_is n).1]
@[simp] theorem State.setLesson_post (s : State) (n : Bool) : (s.setLesson n).post = s.post := by
  rw [(s.setLesson_is n).1]
@[simp] theorem State.setLesson_mem (s : State) (n : Bool) : (s.setLesson n).mem = s.mem := by
  rw [(s.setLesson_is n).1]
@[simp] theorem State.setLesson_pending (s : State) (n : Bool) : (s.setLesson n).pending = s.pending := by
  rw [(s.setLesson_is n).1]
@[simp] theorem State.setLesson_bridge (s : State) (n : Bool) : (s.setLesson n).port.bridge = s.port.bridge := (s.setLesson_is n).2.1
@[simp] theorem State.setLesson_response (s : State) (n : Bool) :
    (s.setLesson n).port.response = s.port.response := (s.setLesson_is n).2.2.1
@[simp] theorem State.setLesson_boot (s : State) (n : Bool) : (s.setLesson n).port.boot = s.port.boot := (s.setLesson_is n).2.2.2.1
@[simp] theorem State.setLesson_correctable (s : State) (n : Bool) :
    (s.setLesson n).port.correctable = s.port.correctable := (s.setLesson_is n).2.2.2.2.1
@[simp] theorem State.setLesson_uncorrectable (s : State) (n : Bool) :
    (s.setLesson n).port.uncorrectable = s.port.uncorrectable := (s.setLesson_is n).2.2.2.2.2.1
@[simp] theorem State.setLesson_weak (s : State) (n : Bool) : (s.setLesson n).port.weak = s.port.weak := (s.setLesson_is n).2.2.2.2.2.2.1
@[simp] theorem State.setLesson_bad (s : State) (n : Bool) : (s.setLesson n).port.bad = s.port.bad := (s.setLesson_is n).2.2.2.2.2.2.2
@[simp] theorem State.setLesson_news (s : State) (n : Bool) : (s.setLesson n).news = s.news := by simp [State.news]

/-- The field changes, with its live field; nothing else does, beside the queue and the arbiter (R177). -/
theorem State.setCounter_is (s : State) (n : Nat) :
    s.setCounter n = { s with capture.counter := n, port := (s.setCounter n).port }
      ∧ (s.setCounter n).port.bridge = s.port.bridge ∧ (s.setCounter n).port.response = s.port.response
      ∧ (s.setCounter n).port.boot = s.port.boot ∧ (s.setCounter n).port.correctable = s.port.correctable
      ∧ (s.setCounter n).port.uncorrectable = s.port.uncorrectable ∧ (s.setCounter n).port.weak = s.port.weak
      ∧ (s.setCounter n).port.bad = s.port.bad := by
  unfold State.setCounter
  split
  · rename_i h; subst h; simp
  · refine ⟨?_, by simp⟩
    obtain ⟨q, b, w, g, l, p, h⟩ := State.issue_is { s with capture.counter := n } .capture .post (fieldWrite 0x0A 2 n)
    exact h.trans (by rw [show State.liveField _ _ _ _ _ = _ from h])

theorem State.setCounter_room {s : State} {k : Nat} (n : Nat)
    (h : s.roomFor (k + (fieldChange (s.capture.counter = n) 0x0A 2 n).length)) :
    (s.setCounter n).ops = s.ops ++ fieldChange (s.capture.counter = n) 0x0A 2 n ∧ (s.setCounter n).roomFor k := by
  unfold State.setCounter fieldChange at *
  split
  · rename_i e; rw [if_pos e] at h; exact ⟨by simp [State.ops], h⟩
  · rename_i e; rw [if_neg e] at h; exact State.liveField_room (s := { s with capture.counter := n }) h _ _ _ _

@[simp] theorem State.setCounter_control (s : State) (n : Nat) : (s.setCounter n).control = s.control := by
  rw [(s.setCounter_is n).1]
@[simp] theorem State.setCounter_intake (s : State) (n : Nat) : (s.setCounter n).intake = s.intake := by
  rw [(s.setCounter_is n).1]
@[simp] theorem State.setCounter_monitor (s : State) (n : Nat) : (s.setCounter n).monitor = s.monitor := by
  rw [(s.setCounter_is n).1]
@[simp] theorem State.setCounter_engine (s : State) (n : Nat) : (s.setCounter n).engine = s.engine := by
  rw [(s.setCounter_is n).1]
@[simp] theorem State.setCounter_feeder (s : State) (n : Nat) : (s.setCounter n).feeder = s.feeder := by
  rw [(s.setCounter_is n).1]
@[simp] theorem State.setCounter_capture (s : State) (n : Nat) : (s.setCounter n).capture = { s.capture with counter := n } := by
  rw [(s.setCounter_is n).1]
@[simp] theorem State.setCounter_jobs (s : State) (n : Nat) : (s.setCounter n).jobs = s.jobs := by
  rw [(s.setCounter_is n).1]
@[simp] theorem State.setCounter_post (s : State) (n : Nat) : (s.setCounter n).post = s.post := by
  rw [(s.setCounter_is n).1]
@[simp] theorem State.setCounter_mem (s : State) (n : Nat) : (s.setCounter n).mem = s.mem := by
  rw [(s.setCounter_is n).1]
@[simp] theorem State.setCounter_pending (s : State) (n : Nat) : (s.setCounter n).pending = s.pending := by
  rw [(s.setCounter_is n).1]
@[simp] theorem State.setCounter_bridge (s : State) (n : Nat) : (s.setCounter n).port.bridge = s.port.bridge := (s.setCounter_is n).2.1
@[simp] theorem State.setCounter_response (s : State) (n : Nat) :
    (s.setCounter n).port.response = s.port.response := (s.setCounter_is n).2.2.1
@[simp] theorem State.setCounter_boot (s : State) (n : Nat) : (s.setCounter n).port.boot = s.port.boot := (s.setCounter_is n).2.2.2.1
@[simp] theorem State.setCounter_correctable (s : State) (n : Nat) :
    (s.setCounter n).port.correctable = s.port.correctable := (s.setCounter_is n).2.2.2.2.1
@[simp] theorem State.setCounter_uncorrectable (s : State) (n : Nat) :
    (s.setCounter n).port.uncorrectable = s.port.uncorrectable := (s.setCounter_is n).2.2.2.2.2.1
@[simp] theorem State.setCounter_weak (s : State) (n : Nat) :
    (s.setCounter n).port.weak = s.port.weak := (s.setCounter_is n).2.2.2.2.2.2.1
@[simp] theorem State.setCounter_bad (s : State) (n : Nat) : (s.setCounter n).port.bad = s.port.bad := (s.setCounter_is n).2.2.2.2.2.2.2
@[simp] theorem State.setCounter_news (s : State) (n : Nat) : (s.setCounter n).news = s.news := by simp [State.news]

/-- The field changes, with its live field; nothing else does, beside the queue and the arbiter (R177). -/
theorem State.setContextState_is (s : State) (n : ContextState) :
    s.setContextState n = { s with capture.context.state := n, port := (s.setContextState n).port }
      ∧ (s.setContextState n).port.bridge = s.port.bridge ∧ (s.setContextState n).port.response = s.port.response
      ∧ (s.setContextState n).port.boot = s.port.boot ∧ (s.setContextState n).port.correctable = s.port.correctable
      ∧ (s.setContextState n).port.uncorrectable = s.port.uncorrectable ∧ (s.setContextState n).port.weak = s.port.weak
      ∧ (s.setContextState n).port.bad = s.port.bad := by
  unfold State.setContextState
  split
  · rename_i h; subst h; simp
  · refine ⟨?_, by simp⟩
    obtain ⟨q, b, w, g, l, p, h⟩ := State.issue_is { s with capture.context.state := n } .capture .post (fieldWrite 0x02 1 n.value)
    exact h.trans (by rw [show State.liveField _ _ _ _ _ = _ from h])

theorem State.setContextState_room {s : State} {k : Nat} (n : ContextState)
    (h : s.roomFor (k + (fieldChange (s.capture.context.state = n) 0x02 1 n.value).length)) :
    (s.setContextState n).ops = s.ops ++ fieldChange (s.capture.context.state = n) 0x02 1 n.value ∧ (s.setContextState n).roomFor k := by
  unfold State.setContextState fieldChange at *
  split
  · rename_i e; rw [if_pos e] at h; exact ⟨by simp [State.ops], h⟩
  · rename_i e; rw [if_neg e] at h; exact State.liveField_room (s := { s with capture.context.state := n }) h _ _ _ _

@[simp] theorem State.setContextState_control (s : State) (n : ContextState) : (s.setContextState n).control = s.control := by
  rw [(s.setContextState_is n).1]
@[simp] theorem State.setContextState_intake (s : State) (n : ContextState) : (s.setContextState n).intake = s.intake := by
  rw [(s.setContextState_is n).1]
@[simp] theorem State.setContextState_monitor (s : State) (n : ContextState) : (s.setContextState n).monitor = s.monitor := by
  rw [(s.setContextState_is n).1]
@[simp] theorem State.setContextState_engine (s : State) (n : ContextState) : (s.setContextState n).engine = s.engine := by
  rw [(s.setContextState_is n).1]
@[simp] theorem State.setContextState_feeder (s : State) (n : ContextState) : (s.setContextState n).feeder = s.feeder := by
  rw [(s.setContextState_is n).1]
@[simp] theorem State.setContextState_capture (s : State) (n : ContextState) :
    (s.setContextState n).capture = { s.capture with context.state := n } := by
  rw [(s.setContextState_is n).1]
@[simp] theorem State.setContextState_jobs (s : State) (n : ContextState) : (s.setContextState n).jobs = s.jobs := by
  rw [(s.setContextState_is n).1]
@[simp] theorem State.setContextState_post (s : State) (n : ContextState) : (s.setContextState n).post = s.post := by
  rw [(s.setContextState_is n).1]
@[simp] theorem State.setContextState_mem (s : State) (n : ContextState) : (s.setContextState n).mem = s.mem := by
  rw [(s.setContextState_is n).1]
@[simp] theorem State.setContextState_pending (s : State) (n : ContextState) : (s.setContextState n).pending = s.pending := by
  rw [(s.setContextState_is n).1]
@[simp] theorem State.setContextState_bridge (s : State) (n : ContextState) :
    (s.setContextState n).port.bridge = s.port.bridge := (s.setContextState_is n).2.1
@[simp] theorem State.setContextState_response (s : State) (n : ContextState) :
    (s.setContextState n).port.response = s.port.response := (s.setContextState_is n).2.2.1
@[simp] theorem State.setContextState_boot (s : State) (n : ContextState) :
    (s.setContextState n).port.boot = s.port.boot := (s.setContextState_is n).2.2.2.1
@[simp] theorem State.setContextState_correctable (s : State) (n : ContextState) :
    (s.setContextState n).port.correctable = s.port.correctable := (s.setContextState_is n).2.2.2.2.1
@[simp] theorem State.setContextState_uncorrectable (s : State) (n : ContextState) :
    (s.setContextState n).port.uncorrectable = s.port.uncorrectable := (s.setContextState_is n).2.2.2.2.2.1
@[simp] theorem State.setContextState_weak (s : State) (n : ContextState) :
    (s.setContextState n).port.weak = s.port.weak := (s.setContextState_is n).2.2.2.2.2.2.1
@[simp] theorem State.setContextState_bad (s : State) (n : ContextState) :
    (s.setContextState n).port.bad = s.port.bad := (s.setContextState_is n).2.2.2.2.2.2.2
@[simp] theorem State.setContextState_news (s : State) (n : ContextState) : (s.setContextState n).news = s.news := by simp [State.news]

/-- The field changes, with its live field; nothing else does, beside the queue and the arbiter (R177). -/
theorem State.setInstability_is (s : State) (n : Nat) :
    s.setInstability n = { s with intake.instability := n, port := (s.setInstability n).port }
      ∧ (s.setInstability n).port.bridge = s.port.bridge ∧ (s.setInstability n).port.response = s.port.response
      ∧ (s.setInstability n).port.boot = s.port.boot ∧ (s.setInstability n).port.correctable = s.port.correctable
      ∧ (s.setInstability n).port.uncorrectable = s.port.uncorrectable ∧ (s.setInstability n).port.weak = s.port.weak
      ∧ (s.setInstability n).port.bad = s.port.bad := by
  unfold State.setInstability
  split
  · rename_i h; subst h; simp
  · refine ⟨?_, by simp⟩
    obtain ⟨q, b, w, g, l, p, h⟩ := State.issue_is { s with intake.instability := n } .intake .post (fieldWrite 0x0D 1 n)
    exact h.trans (by rw [show State.liveField _ _ _ _ _ = _ from h])

theorem State.setInstability_room {s : State} {k : Nat} (n : Nat)
    (h : s.roomFor (k + (fieldChange (s.intake.instability = n) 0x0D 1 n).length)) :
    (s.setInstability n).ops = s.ops ++ fieldChange (s.intake.instability = n) 0x0D 1 n ∧ (s.setInstability n).roomFor k := by
  unfold State.setInstability fieldChange at *
  split
  · rename_i e; rw [if_pos e] at h; exact ⟨by simp [State.ops], h⟩
  · rename_i e; rw [if_neg e] at h; exact State.liveField_room (s := { s with intake.instability := n }) h _ _ _ _

@[simp] theorem State.setInstability_control (s : State) (n : Nat) : (s.setInstability n).control = s.control := by
  rw [(s.setInstability_is n).1]
@[simp] theorem State.setInstability_intake (s : State) (n : Nat) : (s.setInstability n).intake = { s.intake with instability := n } := by
  rw [(s.setInstability_is n).1]
@[simp] theorem State.setInstability_monitor (s : State) (n : Nat) : (s.setInstability n).monitor = s.monitor := by
  rw [(s.setInstability_is n).1]
@[simp] theorem State.setInstability_engine (s : State) (n : Nat) : (s.setInstability n).engine = s.engine := by
  rw [(s.setInstability_is n).1]
@[simp] theorem State.setInstability_feeder (s : State) (n : Nat) : (s.setInstability n).feeder = s.feeder := by
  rw [(s.setInstability_is n).1]
@[simp] theorem State.setInstability_capture (s : State) (n : Nat) : (s.setInstability n).capture = s.capture := by
  rw [(s.setInstability_is n).1]
@[simp] theorem State.setInstability_jobs (s : State) (n : Nat) : (s.setInstability n).jobs = s.jobs := by
  rw [(s.setInstability_is n).1]
@[simp] theorem State.setInstability_post (s : State) (n : Nat) : (s.setInstability n).post = s.post := by
  rw [(s.setInstability_is n).1]
@[simp] theorem State.setInstability_mem (s : State) (n : Nat) : (s.setInstability n).mem = s.mem := by
  rw [(s.setInstability_is n).1]
@[simp] theorem State.setInstability_pending (s : State) (n : Nat) : (s.setInstability n).pending = s.pending := by
  rw [(s.setInstability_is n).1]
@[simp] theorem State.setInstability_bridge (s : State) (n : Nat) :
    (s.setInstability n).port.bridge = s.port.bridge := (s.setInstability_is n).2.1
@[simp] theorem State.setInstability_response (s : State) (n : Nat) :
    (s.setInstability n).port.response = s.port.response := (s.setInstability_is n).2.2.1
@[simp] theorem State.setInstability_boot (s : State) (n : Nat) :
    (s.setInstability n).port.boot = s.port.boot := (s.setInstability_is n).2.2.2.1
@[simp] theorem State.setInstability_correctable (s : State) (n : Nat) :
    (s.setInstability n).port.correctable = s.port.correctable := (s.setInstability_is n).2.2.2.2.1
@[simp] theorem State.setInstability_uncorrectable (s : State) (n : Nat) :
    (s.setInstability n).port.uncorrectable = s.port.uncorrectable := (s.setInstability_is n).2.2.2.2.2.1
@[simp] theorem State.setInstability_weak (s : State) (n : Nat) :
    (s.setInstability n).port.weak = s.port.weak := (s.setInstability_is n).2.2.2.2.2.2.1
@[simp] theorem State.setInstability_bad (s : State) (n : Nat) :
    (s.setInstability n).port.bad = s.port.bad := (s.setInstability_is n).2.2.2.2.2.2.2
@[simp] theorem State.setInstability_news (s : State) (n : Nat) : (s.setInstability n).news = s.news := by simp [State.news]

/-- The field changes, with its live field; nothing else does, beside the queue and the arbiter (R177). -/
theorem State.setSuspended_is (s : State) (n : Bool) :
    s.setSuspended n = { s with intake.suspended := n, port := (s.setSuspended n).port }
      ∧ (s.setSuspended n).port.bridge = s.port.bridge ∧ (s.setSuspended n).port.response = s.port.response
      ∧ (s.setSuspended n).port.boot = s.port.boot ∧ (s.setSuspended n).port.correctable = s.port.correctable
      ∧ (s.setSuspended n).port.uncorrectable = s.port.uncorrectable ∧ (s.setSuspended n).port.weak = s.port.weak
      ∧ (s.setSuspended n).port.bad = s.port.bad := by
  unfold State.setSuspended
  split
  · rename_i h; subst h; simp
  · refine ⟨?_, by simp⟩
    obtain ⟨q, b, w, g, l, p, h⟩ := State.issue_is { s with intake.suspended := n } .intake .post (fieldWrite 0x0E 1 (boolByte n))
    exact h.trans (by rw [show State.liveField _ _ _ _ _ = _ from h])

theorem State.setSuspended_room {s : State} {k : Nat} (n : Bool)
    (h : s.roomFor (k + (fieldChange (s.intake.suspended = n) 0x0E 1 (boolByte n)).length)) :
    (s.setSuspended n).ops = s.ops ++ fieldChange (s.intake.suspended = n) 0x0E 1 (boolByte n) ∧ (s.setSuspended n).roomFor k := by
  unfold State.setSuspended fieldChange at *
  split
  · rename_i e; rw [if_pos e] at h; exact ⟨by simp [State.ops], h⟩
  · rename_i e; rw [if_neg e] at h; exact State.liveField_room (s := { s with intake.suspended := n }) h _ _ _ _

@[simp] theorem State.setSuspended_control (s : State) (n : Bool) : (s.setSuspended n).control = s.control := by
  rw [(s.setSuspended_is n).1]
@[simp] theorem State.setSuspended_intake (s : State) (n : Bool) : (s.setSuspended n).intake = { s.intake with suspended := n } := by
  rw [(s.setSuspended_is n).1]
@[simp] theorem State.setSuspended_monitor (s : State) (n : Bool) : (s.setSuspended n).monitor = s.monitor := by
  rw [(s.setSuspended_is n).1]
@[simp] theorem State.setSuspended_engine (s : State) (n : Bool) : (s.setSuspended n).engine = s.engine := by
  rw [(s.setSuspended_is n).1]
@[simp] theorem State.setSuspended_feeder (s : State) (n : Bool) : (s.setSuspended n).feeder = s.feeder := by
  rw [(s.setSuspended_is n).1]
@[simp] theorem State.setSuspended_capture (s : State) (n : Bool) : (s.setSuspended n).capture = s.capture := by
  rw [(s.setSuspended_is n).1]
@[simp] theorem State.setSuspended_jobs (s : State) (n : Bool) : (s.setSuspended n).jobs = s.jobs := by
  rw [(s.setSuspended_is n).1]
@[simp] theorem State.setSuspended_post (s : State) (n : Bool) : (s.setSuspended n).post = s.post := by
  rw [(s.setSuspended_is n).1]
@[simp] theorem State.setSuspended_mem (s : State) (n : Bool) : (s.setSuspended n).mem = s.mem := by
  rw [(s.setSuspended_is n).1]
@[simp] theorem State.setSuspended_pending (s : State) (n : Bool) : (s.setSuspended n).pending = s.pending := by
  rw [(s.setSuspended_is n).1]
@[simp] theorem State.setSuspended_bridge (s : State) (n : Bool) :
    (s.setSuspended n).port.bridge = s.port.bridge := (s.setSuspended_is n).2.1
@[simp] theorem State.setSuspended_response (s : State) (n : Bool) :
    (s.setSuspended n).port.response = s.port.response := (s.setSuspended_is n).2.2.1
@[simp] theorem State.setSuspended_boot (s : State) (n : Bool) :
    (s.setSuspended n).port.boot = s.port.boot := (s.setSuspended_is n).2.2.2.1
@[simp] theorem State.setSuspended_correctable (s : State) (n : Bool) :
    (s.setSuspended n).port.correctable = s.port.correctable := (s.setSuspended_is n).2.2.2.2.1
@[simp] theorem State.setSuspended_uncorrectable (s : State) (n : Bool) :
    (s.setSuspended n).port.uncorrectable = s.port.uncorrectable := (s.setSuspended_is n).2.2.2.2.2.1
@[simp] theorem State.setSuspended_weak (s : State) (n : Bool) :
    (s.setSuspended n).port.weak = s.port.weak := (s.setSuspended_is n).2.2.2.2.2.2.1
@[simp] theorem State.setSuspended_bad (s : State) (n : Bool) :
    (s.setSuspended n).port.bad = s.port.bad := (s.setSuspended_is n).2.2.2.2.2.2.2
@[simp] theorem State.setSuspended_news (s : State) (n : Bool) : (s.setSuspended n).news = s.news := by simp [State.news]

/-- The field changes, with its live field; nothing else does, beside the queue and the arbiter (R177). -/
theorem State.setPut_is (s : State) (n : Nat) :
    s.setPut n = { s with post.put := n, port := (s.setPut n).port }
      ∧ (s.setPut n).port.bridge = s.port.bridge ∧ (s.setPut n).port.response = s.port.response
      ∧ (s.setPut n).port.boot = s.port.boot ∧ (s.setPut n).port.correctable = s.port.correctable
      ∧ (s.setPut n).port.uncorrectable = s.port.uncorrectable ∧ (s.setPut n).port.weak = s.port.weak
      ∧ (s.setPut n).port.bad = s.port.bad := by
  unfold State.setPut
  split
  · rename_i h; subst h; simp
  · refine ⟨?_, by simp⟩
    obtain ⟨q, b, w, g, l, p, h⟩ := State.issue_is { s with post.put := n } .post .post (fieldWrite 0x04 2 n)
    exact h.trans (by rw [show State.liveField _ _ _ _ _ = _ from h])

theorem State.setPut_room {s : State} {k : Nat} (n : Nat)
    (h : s.roomFor (k + (fieldChange (s.post.put = n) 0x04 2 n).length)) :
    (s.setPut n).ops = s.ops ++ fieldChange (s.post.put = n) 0x04 2 n ∧ (s.setPut n).roomFor k := by
  unfold State.setPut fieldChange at *
  split
  · rename_i e; rw [if_pos e] at h; exact ⟨by simp [State.ops], h⟩
  · rename_i e; rw [if_neg e] at h; exact State.liveField_room (s := { s with post.put := n }) h _ _ _ _

@[simp] theorem State.setPut_control (s : State) (n : Nat) : (s.setPut n).control = s.control := by
  rw [(s.setPut_is n).1]
@[simp] theorem State.setPut_intake (s : State) (n : Nat) : (s.setPut n).intake = s.intake := by
  rw [(s.setPut_is n).1]
@[simp] theorem State.setPut_monitor (s : State) (n : Nat) : (s.setPut n).monitor = s.monitor := by
  rw [(s.setPut_is n).1]
@[simp] theorem State.setPut_engine (s : State) (n : Nat) : (s.setPut n).engine = s.engine := by
  rw [(s.setPut_is n).1]
@[simp] theorem State.setPut_feeder (s : State) (n : Nat) : (s.setPut n).feeder = s.feeder := by
  rw [(s.setPut_is n).1]
@[simp] theorem State.setPut_capture (s : State) (n : Nat) : (s.setPut n).capture = s.capture := by
  rw [(s.setPut_is n).1]
@[simp] theorem State.setPut_jobs (s : State) (n : Nat) : (s.setPut n).jobs = s.jobs := by
  rw [(s.setPut_is n).1]
@[simp] theorem State.setPut_post (s : State) (n : Nat) : (s.setPut n).post = { s.post with put := n } := by
  rw [(s.setPut_is n).1]
@[simp] theorem State.setPut_mem (s : State) (n : Nat) : (s.setPut n).mem = s.mem := by
  rw [(s.setPut_is n).1]
@[simp] theorem State.setPut_pending (s : State) (n : Nat) : (s.setPut n).pending = s.pending := by
  rw [(s.setPut_is n).1]
@[simp] theorem State.setPut_bridge (s : State) (n : Nat) : (s.setPut n).port.bridge = s.port.bridge := (s.setPut_is n).2.1
@[simp] theorem State.setPut_response (s : State) (n : Nat) : (s.setPut n).port.response = s.port.response := (s.setPut_is n).2.2.1
@[simp] theorem State.setPut_boot (s : State) (n : Nat) : (s.setPut n).port.boot = s.port.boot := (s.setPut_is n).2.2.2.1
@[simp] theorem State.setPut_correctable (s : State) (n : Nat) :
    (s.setPut n).port.correctable = s.port.correctable := (s.setPut_is n).2.2.2.2.1
@[simp] theorem State.setPut_uncorrectable (s : State) (n : Nat) :
    (s.setPut n).port.uncorrectable = s.port.uncorrectable := (s.setPut_is n).2.2.2.2.2.1
@[simp] theorem State.setPut_weak (s : State) (n : Nat) : (s.setPut n).port.weak = s.port.weak := (s.setPut_is n).2.2.2.2.2.2.1
@[simp] theorem State.setPut_bad (s : State) (n : Nat) : (s.setPut n).port.bad = s.port.bad := (s.setPut_is n).2.2.2.2.2.2.2
@[simp] theorem State.setPut_news (s : State) (n : Nat) : (s.setPut n).news = s.news := by simp [State.news]

/-- The field changes, with its live field; nothing else does, beside the queue and the arbiter (R177). -/
theorem State.setGet_is (s : State) (n : Nat) :
    s.setGet n = { s with post.get := n, port := (s.setGet n).port }
      ∧ (s.setGet n).port.bridge = s.port.bridge ∧ (s.setGet n).port.response = s.port.response
      ∧ (s.setGet n).port.boot = s.port.boot ∧ (s.setGet n).port.correctable = s.port.correctable
      ∧ (s.setGet n).port.uncorrectable = s.port.uncorrectable ∧ (s.setGet n).port.weak = s.port.weak
      ∧ (s.setGet n).port.bad = s.port.bad := by
  unfold State.setGet
  split
  · rename_i h; subst h; simp
  · refine ⟨?_, by simp⟩
    obtain ⟨q, b, w, g, l, p, h⟩ := State.issue_is { s with post.get := n } .post .post (fieldWrite 0x06 2 n)
    exact h.trans (by rw [show State.liveField _ _ _ _ _ = _ from h])

theorem State.setGet_room {s : State} {k : Nat} (n : Nat)
    (h : s.roomFor (k + (fieldChange (s.post.get = n) 0x06 2 n).length)) :
    (s.setGet n).ops = s.ops ++ fieldChange (s.post.get = n) 0x06 2 n ∧ (s.setGet n).roomFor k := by
  unfold State.setGet fieldChange at *
  split
  · rename_i e; rw [if_pos e] at h; exact ⟨by simp [State.ops], h⟩
  · rename_i e; rw [if_neg e] at h; exact State.liveField_room (s := { s with post.get := n }) h _ _ _ _

@[simp] theorem State.setGet_control (s : State) (n : Nat) : (s.setGet n).control = s.control := by
  rw [(s.setGet_is n).1]
@[simp] theorem State.setGet_intake (s : State) (n : Nat) : (s.setGet n).intake = s.intake := by
  rw [(s.setGet_is n).1]
@[simp] theorem State.setGet_monitor (s : State) (n : Nat) : (s.setGet n).monitor = s.monitor := by
  rw [(s.setGet_is n).1]
@[simp] theorem State.setGet_engine (s : State) (n : Nat) : (s.setGet n).engine = s.engine := by
  rw [(s.setGet_is n).1]
@[simp] theorem State.setGet_feeder (s : State) (n : Nat) : (s.setGet n).feeder = s.feeder := by
  rw [(s.setGet_is n).1]
@[simp] theorem State.setGet_capture (s : State) (n : Nat) : (s.setGet n).capture = s.capture := by
  rw [(s.setGet_is n).1]
@[simp] theorem State.setGet_jobs (s : State) (n : Nat) : (s.setGet n).jobs = s.jobs := by
  rw [(s.setGet_is n).1]
@[simp] theorem State.setGet_post (s : State) (n : Nat) : (s.setGet n).post = { s.post with get := n } := by
  rw [(s.setGet_is n).1]
@[simp] theorem State.setGet_mem (s : State) (n : Nat) : (s.setGet n).mem = s.mem := by
  rw [(s.setGet_is n).1]
@[simp] theorem State.setGet_pending (s : State) (n : Nat) : (s.setGet n).pending = s.pending := by
  rw [(s.setGet_is n).1]
@[simp] theorem State.setGet_bridge (s : State) (n : Nat) : (s.setGet n).port.bridge = s.port.bridge := (s.setGet_is n).2.1
@[simp] theorem State.setGet_response (s : State) (n : Nat) : (s.setGet n).port.response = s.port.response := (s.setGet_is n).2.2.1
@[simp] theorem State.setGet_boot (s : State) (n : Nat) : (s.setGet n).port.boot = s.port.boot := (s.setGet_is n).2.2.2.1
@[simp] theorem State.setGet_correctable (s : State) (n : Nat) :
    (s.setGet n).port.correctable = s.port.correctable := (s.setGet_is n).2.2.2.2.1
@[simp] theorem State.setGet_uncorrectable (s : State) (n : Nat) :
    (s.setGet n).port.uncorrectable = s.port.uncorrectable := (s.setGet_is n).2.2.2.2.2.1
@[simp] theorem State.setGet_weak (s : State) (n : Nat) : (s.setGet n).port.weak = s.port.weak := (s.setGet_is n).2.2.2.2.2.2.1
@[simp] theorem State.setGet_bad (s : State) (n : Nat) : (s.setGet n).port.bad = s.port.bad := (s.setGet_is n).2.2.2.2.2.2.2
@[simp] theorem State.setGet_news (s : State) (n : Nat) : (s.setGet n).news = s.news := by simp [State.news]

/-- The field changes, with its live field; nothing else does, beside the queue and the arbiter (R177). -/
theorem State.setLost_is (s : State) (n : Nat) :
    s.setLost n = { s with post.lost := n, port := (s.setLost n).port }
      ∧ (s.setLost n).port.bridge = s.port.bridge ∧ (s.setLost n).port.response = s.port.response
      ∧ (s.setLost n).port.boot = s.port.boot ∧ (s.setLost n).port.correctable = s.port.correctable
      ∧ (s.setLost n).port.uncorrectable = s.port.uncorrectable ∧ (s.setLost n).port.weak = s.port.weak
      ∧ (s.setLost n).port.bad = s.port.bad := by
  unfold State.setLost
  split
  · rename_i h; subst h; simp
  · refine ⟨?_, by simp⟩
    obtain ⟨q, b, w, g, l, p, h⟩ := State.issue_is { s with post.lost := n } .post .post (fieldWrite 0x08 2 n)
    exact h.trans (by rw [show State.liveField _ _ _ _ _ = _ from h])

theorem State.setLost_room {s : State} {k : Nat} (n : Nat)
    (h : s.roomFor (k + (fieldChange (s.post.lost = n) 0x08 2 n).length)) :
    (s.setLost n).ops = s.ops ++ fieldChange (s.post.lost = n) 0x08 2 n ∧ (s.setLost n).roomFor k := by
  unfold State.setLost fieldChange at *
  split
  · rename_i e; rw [if_pos e] at h; exact ⟨by simp [State.ops], h⟩
  · rename_i e; rw [if_neg e] at h; exact State.liveField_room (s := { s with post.lost := n }) h _ _ _ _

@[simp] theorem State.setLost_control (s : State) (n : Nat) : (s.setLost n).control = s.control := by
  rw [(s.setLost_is n).1]
@[simp] theorem State.setLost_intake (s : State) (n : Nat) : (s.setLost n).intake = s.intake := by
  rw [(s.setLost_is n).1]
@[simp] theorem State.setLost_monitor (s : State) (n : Nat) : (s.setLost n).monitor = s.monitor := by
  rw [(s.setLost_is n).1]
@[simp] theorem State.setLost_engine (s : State) (n : Nat) : (s.setLost n).engine = s.engine := by
  rw [(s.setLost_is n).1]
@[simp] theorem State.setLost_feeder (s : State) (n : Nat) : (s.setLost n).feeder = s.feeder := by
  rw [(s.setLost_is n).1]
@[simp] theorem State.setLost_capture (s : State) (n : Nat) : (s.setLost n).capture = s.capture := by
  rw [(s.setLost_is n).1]
@[simp] theorem State.setLost_jobs (s : State) (n : Nat) : (s.setLost n).jobs = s.jobs := by
  rw [(s.setLost_is n).1]
@[simp] theorem State.setLost_post (s : State) (n : Nat) : (s.setLost n).post = { s.post with lost := n } := by
  rw [(s.setLost_is n).1]
@[simp] theorem State.setLost_mem (s : State) (n : Nat) : (s.setLost n).mem = s.mem := by
  rw [(s.setLost_is n).1]
@[simp] theorem State.setLost_pending (s : State) (n : Nat) : (s.setLost n).pending = s.pending := by
  rw [(s.setLost_is n).1]
@[simp] theorem State.setLost_bridge (s : State) (n : Nat) : (s.setLost n).port.bridge = s.port.bridge := (s.setLost_is n).2.1
@[simp] theorem State.setLost_response (s : State) (n : Nat) : (s.setLost n).port.response = s.port.response := (s.setLost_is n).2.2.1
@[simp] theorem State.setLost_boot (s : State) (n : Nat) : (s.setLost n).port.boot = s.port.boot := (s.setLost_is n).2.2.2.1
@[simp] theorem State.setLost_correctable (s : State) (n : Nat) :
    (s.setLost n).port.correctable = s.port.correctable := (s.setLost_is n).2.2.2.2.1
@[simp] theorem State.setLost_uncorrectable (s : State) (n : Nat) :
    (s.setLost n).port.uncorrectable = s.port.uncorrectable := (s.setLost_is n).2.2.2.2.2.1
@[simp] theorem State.setLost_weak (s : State) (n : Nat) : (s.setLost n).port.weak = s.port.weak := (s.setLost_is n).2.2.2.2.2.2.1
@[simp] theorem State.setLost_bad (s : State) (n : Nat) : (s.setLost n).port.bad = s.port.bad := (s.setLost_is n).2.2.2.2.2.2.2
@[simp] theorem State.setLost_news (s : State) (n : Nat) : (s.setLost n).news = s.news := by simp [State.news]

/-- The degraded flag changes, with its live field; where it is set, a scan in progress is void (R137). -/
theorem State.setDegraded_is (s : State) (n : Bool) :
    s.setDegraded n =
      { s with
        feeder.degraded := n
        jobs := if n = true ∧ s.feeder.degraded = false then s.voidScan.jobs else s.jobs
        port := (s.setDegraded n).port } := by
  unfold State.setDegraded
  split
  · rename_i h; subst h; rw [if_neg (fun e => by rw [e.1] at e; exact absurd e.2 (by simp))]
  · rename_i h
    cases n with
    | true =>
      have hd : s.feeder.degraded = false := by simpa using h
      obtain ⟨q, b, w, g, l, p, e⟩ :=
        State.issue_is { s with feeder.degraded := true }.voidScan .feeder .post (fieldWrite 0x0F 1 (boolByte true))
      simp only [if_true, hd, and_self]
      exact (show State.liveField _ _ _ _ _ = _ from e).trans (by rw [show State.liveField _ _ _ _ _ = _ from e]; rfl)
    | false =>
      obtain ⟨q, b, w, g, l, p, e⟩ :=
        State.issue_is { s with feeder.degraded := false } .feeder .post (fieldWrite 0x0F 1 (boolByte false))
      simp only [Bool.false_eq_true, if_false, false_and]
      exact (show State.liveField _ _ _ _ _ = _ from e).trans (by rw [show State.liveField _ _ _ _ _ = _ from e])

theorem State.setDegraded_room {s : State} {k : Nat} (n : Bool)
    (h : s.roomFor (k + (fieldChange (s.feeder.degraded = n) 0x0F 1 (boolByte n)).length)) :
    (s.setDegraded n).ops = s.ops ++ fieldChange (s.feeder.degraded = n) 0x0F 1 (boolByte n) ∧ (s.setDegraded n).roomFor k := by
  unfold State.setDegraded fieldChange at *
  split
  · rename_i e; rw [if_pos e] at h; exact ⟨by simp [State.ops], h⟩
  · rename_i e
    rw [if_neg e] at h
    cases n with
    | true => exact State.liveField_room (s := { s with feeder.degraded := true }.voidScan) h _ _ _ _
    | false => exact State.liveField_room (s := { s with feeder.degraded := false }) h _ _ _ _

@[simp] theorem State.setDegraded_control (s : State) (n : Bool) : (s.setDegraded n).control = s.control := by
  rw [s.setDegraded_is n]
@[simp] theorem State.setDegraded_intake (s : State) (n : Bool) : (s.setDegraded n).intake = s.intake := by
  rw [s.setDegraded_is n]
@[simp] theorem State.setDegraded_monitor (s : State) (n : Bool) : (s.setDegraded n).monitor = s.monitor := by
  rw [s.setDegraded_is n]
@[simp] theorem State.setDegraded_engine (s : State) (n : Bool) : (s.setDegraded n).engine = s.engine := by
  rw [s.setDegraded_is n]
@[simp] theorem State.setDegraded_feeder (s : State) (n : Bool) : (s.setDegraded n).feeder = { s.feeder with degraded := n } := by
  rw [s.setDegraded_is n]
@[simp] theorem State.setDegraded_capture (s : State) (n : Bool) : (s.setDegraded n).capture = s.capture := by
  rw [s.setDegraded_is n]
@[simp] theorem State.setDegraded_post (s : State) (n : Bool) : (s.setDegraded n).post = s.post := by
  rw [s.setDegraded_is n]
@[simp] theorem State.setDegraded_mem (s : State) (n : Bool) : (s.setDegraded n).mem = s.mem := by
  rw [s.setDegraded_is n]
@[simp] theorem State.setDegraded_pending (s : State) (n : Bool) : (s.setDegraded n).pending = s.pending := by
  rw [s.setDegraded_is n]
@[simp] theorem State.setDegraded_news (s : State) (n : Bool) : (s.setDegraded n).news = s.news := by simp [State.news]

/-! ## Events -/

/-- An event raised changes the events waiting, or what waits for room with its block, and nothing else (R155, R174). -/
theorem State.raise_is (s : State) (o : Block) (k : EventKind) (n a b : Nat) :
    ∃ r w, s.raise o k n a b = { s with post.raised := r, port.later := w } := by
  unfold State.raise State.emit
  split
  · exact ⟨s.post.raised, _, rfl⟩
  · exact ⟨_, s.port.later, rfl⟩

@[simp] theorem State.raise_control (s : State) (o : Block) (k : EventKind) (n a b : Nat) : (s.raise o k n a b).control = s.control := by
  obtain ⟨_, _, h⟩ := s.raise_is o k n a b; rw [h]
@[simp] theorem State.raise_intake (s : State) (o : Block) (k : EventKind) (n a b : Nat) : (s.raise o k n a b).intake = s.intake := by
  obtain ⟨_, _, h⟩ := s.raise_is o k n a b; rw [h]
@[simp] theorem State.raise_monitor (s : State) (o : Block) (k : EventKind) (n a b : Nat) : (s.raise o k n a b).monitor = s.monitor := by
  obtain ⟨_, _, h⟩ := s.raise_is o k n a b; rw [h]
@[simp] theorem State.raise_engine (s : State) (o : Block) (k : EventKind) (n a b : Nat) : (s.raise o k n a b).engine = s.engine := by
  obtain ⟨_, _, h⟩ := s.raise_is o k n a b; rw [h]
@[simp] theorem State.raise_feeder (s : State) (o : Block) (k : EventKind) (n a b : Nat) : (s.raise o k n a b).feeder = s.feeder := by
  obtain ⟨_, _, h⟩ := s.raise_is o k n a b; rw [h]
@[simp] theorem State.raise_capture (s : State) (o : Block) (k : EventKind) (n a b : Nat) : (s.raise o k n a b).capture = s.capture := by
  obtain ⟨_, _, h⟩ := s.raise_is o k n a b; rw [h]
@[simp] theorem State.raise_jobs (s : State) (o : Block) (k : EventKind) (n a b : Nat) : (s.raise o k n a b).jobs = s.jobs := by
  obtain ⟨_, _, h⟩ := s.raise_is o k n a b; rw [h]
@[simp] theorem State.raise_mem (s : State) (o : Block) (k : EventKind) (n a b : Nat) : (s.raise o k n a b).mem = s.mem := by
  obtain ⟨_, _, h⟩ := s.raise_is o k n a b; rw [h]
@[simp] theorem State.raise_pending (s : State) (o : Block) (k : EventKind) (n a b : Nat) : (s.raise o k n a b).pending = s.pending := by
  obtain ⟨_, _, h⟩ := s.raise_is o k n a b; rw [h]
@[simp] theorem State.raise_queue (s : State) (o : Block) (k : EventKind) (n a b : Nat) :
    (s.raise o k n a b).port.queue = s.port.queue := by
  obtain ⟨_, _, h⟩ := s.raise_is o k n a b; rw [h]
@[simp] theorem State.raise_grant (s : State) (o : Block) (k : EventKind) (n a b : Nat) :
    (s.raise o k n a b).port.grant = s.port.grant := by
  obtain ⟨_, _, h⟩ := s.raise_is o k n a b; rw [h]
@[simp] theorem State.raise_last (s : State) (o : Block) (k : EventKind) (n a b : Nat) :
    (s.raise o k n a b).port.last = s.port.last := by
  obtain ⟨_, _, h⟩ := s.raise_is o k n a b; rw [h]
@[simp] theorem State.raise_pass (s : State) (o : Block) (k : EventKind) (n a b : Nat) :
    (s.raise o k n a b).port.pass = s.port.pass := by
  obtain ⟨_, _, h⟩ := s.raise_is o k n a b; rw [h]
@[simp] theorem State.raise_bridge (s : State) (o : Block) (k : EventKind) (n a b : Nat) :
    (s.raise o k n a b).port.bridge = s.port.bridge := by
  obtain ⟨_, _, h⟩ := s.raise_is o k n a b; rw [h]
@[simp] theorem State.raise_response (s : State) (o : Block) (k : EventKind) (n a b : Nat) :
    (s.raise o k n a b).port.response = s.port.response := by
  obtain ⟨_, _, h⟩ := s.raise_is o k n a b; rw [h]
@[simp] theorem State.raise_boot (s : State) (o : Block) (k : EventKind) (n a b : Nat) :
    (s.raise o k n a b).port.boot = s.port.boot := by
  obtain ⟨_, _, h⟩ := s.raise_is o k n a b; rw [h]
@[simp] theorem State.raise_correctable (s : State) (o : Block) (k : EventKind) (n a b : Nat) :
    (s.raise o k n a b).port.correctable = s.port.correctable := by
  obtain ⟨_, _, h⟩ := s.raise_is o k n a b; rw [h]
@[simp] theorem State.raise_uncorrectable (s : State) (o : Block) (k : EventKind) (n a b : Nat) :
    (s.raise o k n a b).port.uncorrectable = s.port.uncorrectable := by
  obtain ⟨_, _, h⟩ := s.raise_is o k n a b; rw [h]
@[simp] theorem State.raise_weak (s : State) (o : Block) (k : EventKind) (n a b : Nat) :
    (s.raise o k n a b).port.weak = s.port.weak := by
  obtain ⟨_, _, h⟩ := s.raise_is o k n a b; rw [h]
@[simp] theorem State.raise_bad (s : State) (o : Block) (k : EventKind) (n a b : Nat) :
    (s.raise o k n a b).port.bad = s.port.bad := by
  obtain ⟨_, _, h⟩ := s.raise_is o k n a b; rw [h]
@[simp] theorem State.raise_cause (s : State) (o : Block) (k : EventKind) (n a b : Nat) :
    (s.raise o k n a b).post.cause = s.post.cause := by
  obtain ⟨_, _, h⟩ := s.raise_is o k n a b; rw [h]

/-- With nobody waiting for room, an event raised leaves the record operations. -/
theorem State.raise_ops {s : State} (h : s.noneWait) (o : Block) (k : EventKind) (n a b : Nat) :
    (s.raise o k n a b).ops = s.ops := by rw [State.raise_room h]; rfl

/-- With nobody waiting for room, the events waiting stay stamped with the input frame number (R13). -/
theorem Stamped.raise {s t : State} (hs : Stamped s t) (hl : s.post.raised.length ≤ t.post.raised.length)
    (h : t.noneWait) (o : Block) (k : EventKind) (n a b : Nat) : Stamped s (t.raise o k n a b) := by
  rw [State.raise_room h]
  intro e he
  simp only [List.drop_append_of_le_length hl, List.mem_append, List.mem_singleton] at he
  rcases he with he | he
  · exact hs e he
  · rw [he]

@[simp] theorem State.setCause_ops (s : State) (c : Cause) : (s.setCause c).ops = s.ops := rfl
@[simp] theorem State.setCause_news (s : State) (c : Cause) : (s.setCause c).news = s.news := rfl

/-! ## Mode changes -/

@[simp] theorem State.enterMode_control (s : State) (m : Mode) : (s.enterMode m).control = { s.control with
      mode := m
      announcements := s.control.announcements ++ announcedBlocks.map (Announcement.mk · m)
      timerOn := s.control.timerOn && decide (m ≠ .shutting)
      shuttingFrames := if m = .shutting then 0 else s.control.shuttingFrames } := by
  simp [State.enterMode]
@[simp] theorem State.enterMode_intake (s : State) (m : Mode) : (s.enterMode m).intake = s.intake := by
  simp [State.enterMode]
@[simp] theorem State.enterMode_monitor (s : State) (m : Mode) : (s.enterMode m).monitor = s.monitor := by
  simp [State.enterMode]
@[simp] theorem State.enterMode_engine (s : State) (m : Mode) : (s.enterMode m).engine = s.engine := by
  simp [State.enterMode]
@[simp] theorem State.enterMode_feeder (s : State) (m : Mode) : (s.enterMode m).feeder = s.feeder := by
  simp [State.enterMode]
@[simp] theorem State.enterMode_capture (s : State) (m : Mode) : (s.enterMode m).capture = s.capture := by
  simp [State.enterMode]
@[simp] theorem State.enterMode_jobs (s : State) (m : Mode) : (s.enterMode m).jobs = s.jobs := by
  simp [State.enterMode]
@[simp] theorem State.enterMode_mem (s : State) (m : Mode) : (s.enterMode m).mem = s.mem := by
  simp [State.enterMode]
@[simp] theorem State.enterMode_pending (s : State) (m : Mode) : (s.enterMode m).pending = s.pending := by
  simp [State.enterMode]
@[simp] theorem State.enterMode_bridge (s : State) (m : Mode) : (s.enterMode m).port.bridge = s.port.bridge := by
  simp [State.enterMode]
@[simp] theorem State.enterMode_response (s : State) (m : Mode) : (s.enterMode m).port.response = s.port.response := by
  simp [State.enterMode]
@[simp] theorem State.enterMode_boot (s : State) (m : Mode) : (s.enterMode m).port.boot = s.port.boot := by
  simp [State.enterMode]
@[simp] theorem State.enterMode_correctable (s : State) (m : Mode) :
    (s.enterMode m).port.correctable = s.port.correctable := by
  simp [State.enterMode]
@[simp] theorem State.enterMode_uncorrectable (s : State) (m : Mode) :
    (s.enterMode m).port.uncorrectable = s.port.uncorrectable := by
  simp [State.enterMode]
@[simp] theorem State.enterMode_weak (s : State) (m : Mode) : (s.enterMode m).port.weak = s.port.weak := by
  simp [State.enterMode]
@[simp] theorem State.enterMode_bad (s : State) (m : Mode) : (s.enterMode m).port.bad = s.port.bad := by
  simp [State.enterMode]
@[simp] theorem State.enterMode_cause (s : State) (m : Mode) : (s.enterMode m).post.cause = s.post.cause := by
  simp [State.enterMode]

@[simp] theorem State.enterMode_raised (s : State) (m : Mode) : (s.enterMode m).post.raised = s.post.raised := by
  simp [State.enterMode]
@[simp] theorem State.changeMode_control (s : State) (m : Mode) (c : Nat) : (s.changeMode m c).control = { s.control with
      mode := m
      announcements := s.control.announcements ++ announcedBlocks.map (Announcement.mk · m)
      timerOn := s.control.timerOn && decide (m ≠ .shutting)
      shuttingFrames := if m = .shutting then 0 else s.control.shuttingFrames } := by
  simp [State.changeMode]
@[simp] theorem State.changeMode_intake (s : State) (m : Mode) (c : Nat) : (s.changeMode m c).intake = s.intake := by
  simp [State.changeMode]
@[simp] theorem State.changeMode_monitor (s : State) (m : Mode) (c : Nat) : (s.changeMode m c).monitor = s.monitor := by
  simp [State.changeMode]
@[simp] theorem State.changeMode_engine (s : State) (m : Mode) (c : Nat) : (s.changeMode m c).engine = s.engine := by
  simp [State.changeMode]
@[simp] theorem State.changeMode_feeder (s : State) (m : Mode) (c : Nat) : (s.changeMode m c).feeder = s.feeder := by
  simp [State.changeMode]
@[simp] theorem State.changeMode_capture (s : State) (m : Mode) (c : Nat) : (s.changeMode m c).capture = s.capture := by
  simp [State.changeMode]
@[simp] theorem State.changeMode_jobs (s : State) (m : Mode) (c : Nat) : (s.changeMode m c).jobs = s.jobs := by
  simp [State.changeMode]
@[simp] theorem State.changeMode_mem (s : State) (m : Mode) (c : Nat) : (s.changeMode m c).mem = s.mem := by
  simp [State.changeMode]
@[simp] theorem State.changeMode_pending (s : State) (m : Mode) (c : Nat) : (s.changeMode m c).pending = s.pending := by
  simp [State.changeMode]
@[simp] theorem State.changeMode_bridge (s : State) (m : Mode) (c : Nat) : (s.changeMode m c).port.bridge = s.port.bridge := by
  simp [State.changeMode]
@[simp] theorem State.changeMode_response (s : State) (m : Mode) (c : Nat) : (s.changeMode m c).port.response = s.port.response := by
  simp [State.changeMode]
@[simp] theorem State.changeMode_boot (s : State) (m : Mode) (c : Nat) : (s.changeMode m c).port.boot = s.port.boot := by
  simp [State.changeMode]
@[simp] theorem State.changeMode_correctable (s : State) (m : Mode) (c : Nat) :
    (s.changeMode m c).port.correctable = s.port.correctable := by
  simp [State.changeMode]
@[simp] theorem State.changeMode_uncorrectable (s : State) (m : Mode) (c : Nat) :
    (s.changeMode m c).port.uncorrectable = s.port.uncorrectable := by
  simp [State.changeMode]
@[simp] theorem State.changeMode_weak (s : State) (m : Mode) (c : Nat) : (s.changeMode m c).port.weak = s.port.weak := by
  simp [State.changeMode]
@[simp] theorem State.changeMode_bad (s : State) (m : Mode) (c : Nat) : (s.changeMode m c).port.bad = s.port.bad := by
  simp [State.changeMode]
@[simp] theorem State.changeMode_cause (s : State) (m : Mode) (c : Nat) : (s.changeMode m c).post.cause = s.post.cause := by
  simp [State.changeMode]

/-- With room for it, the entry of a mode issues the write of the mode field (R182). -/
theorem State.enterMode_room {s : State} {n : Nat} (h : s.roomFor (n + 1)) (m : Mode) :
    (s.enterMode m).ops = s.ops ++ [fieldWrite 0 1 m.value] ∧ (s.enterMode m).news = s.news ∧ (s.enterMode m).roomFor n
      ∧ Stamped s (s.enterMode m) := by
  unfold State.enterMode
  simp only []
  generalize hc : ({ s.control with
      mode := m
      announcements := s.control.announcements ++ announcedBlocks.map (Announcement.mk · m)
      timerOn := s.control.timerOn && decide (m ≠ .shutting)
      shuttingFrames := if m = .shutting then 0 else s.control.shuttingFrames } : ModeControl) = control
  obtain ⟨ho, hr⟩ := State.liveField_room (s := { s with control := control }) h .mode 0x00 1 m.value
  exact ⟨ho, State.liveField_news _ _ _ _ _, hr, .of_raised (by simp)⟩

/-- With room for it, a change of mode issues the write of the mode field and raises MODE_CHANGED (R182). -/
theorem State.changeMode_room {s : State} {n : Nat} (h : s.roomFor (n + 1)) (m : Mode) (c : Nat) :
    (s.changeMode m c).ops = s.ops ++ [fieldWrite 0 1 m.value]
      ∧ (s.changeMode m c).news = s.news ++ [(.mode, .modeChanged, m.value, s.control.mode.value, c)]
      ∧ (s.changeMode m c).roomFor n ∧ Stamped s (s.changeMode m c) := by
  obtain ⟨ho, hn, hr, hs⟩ := State.enterMode_room h m
  unfold State.changeMode
  refine ⟨?_, ?_, ?_, hs.raise (by simp) hr.1 _ _ _ _ _⟩
  · rw [State.raise_ops hr.1, ho]
  · rw [State.raise_news _ _ _ _ _ _ (State.not_waiting hr.1 _), hn]
  · rw [State.raise_room hr.1]; exact hr

/-- Away from SHUTTING, a change of mode leaves the timer and what the shutdown counts. -/
theorem State.changeMode_kept (s : State) (m : Mode) (c : Nat) (h : m ≠ .shutting) :
    Unchanged [.mode, .announcements, .records, .raised, .arbiter] s (s.changeMode m c) := by
  unfold State.changeMode State.enterMode
  refine .comp (.comp (a := [.mode, .announcements]) (fun p hp => ?_) (State.liveField_unchanged _ _ _ _ _)
    (c := [.mode, .announcements, .records, .arbiter])) (State.raise_unchanged _ _ _ _ _ _)
  cases p <;> simp_all [same]

/-! ## A read that has been performed already -/

/-- A drain that has nothing to do settles the arbiter alone. -/
theorem State.drain_done {s : State} {p : State → Bool} (h : p s = true) : s.drain p = s.settle := by
  unfold State.drain
  cases hn : s.drainFuel with
  | zero => rfl
  | succ n => simp [State.drainUntil, h]

@[simp] theorem State.settle_control (s : State) : s.settle.control = s.control := by
  obtain ⟨_, _, _, h⟩ := s.settle_is; rw [h]
@[simp] theorem State.settle_intake (s : State) : s.settle.intake = s.intake := by
  obtain ⟨_, _, _, h⟩ := s.settle_is; rw [h]
@[simp] theorem State.settle_monitor (s : State) : s.settle.monitor = s.monitor := by
  obtain ⟨_, _, _, h⟩ := s.settle_is; rw [h]
@[simp] theorem State.settle_engine (s : State) : s.settle.engine = s.engine := by
  obtain ⟨_, _, _, h⟩ := s.settle_is; rw [h]
@[simp] theorem State.settle_feeder (s : State) : s.settle.feeder = s.feeder := by
  obtain ⟨_, _, _, h⟩ := s.settle_is; rw [h]
@[simp] theorem State.settle_capture (s : State) : s.settle.capture = s.capture := by
  obtain ⟨_, _, _, h⟩ := s.settle_is; rw [h]
@[simp] theorem State.settle_jobs (s : State) : s.settle.jobs = s.jobs := by
  obtain ⟨_, _, _, h⟩ := s.settle_is; rw [h]
@[simp] theorem State.settle_post (s : State) : s.settle.post = s.post := by
  obtain ⟨_, _, _, h⟩ := s.settle_is; rw [h]
@[simp] theorem State.settle_mem (s : State) : s.settle.mem = s.mem := by
  obtain ⟨_, _, _, h⟩ := s.settle_is; rw [h]
@[simp] theorem State.settle_pending (s : State) : s.settle.pending = s.pending := by
  obtain ⟨_, _, _, h⟩ := s.settle_is; rw [h]
@[simp] theorem State.settle_queue (s : State) : s.settle.port.queue = s.port.queue := by
  obtain ⟨_, _, _, h⟩ := s.settle_is; rw [h]
@[simp] theorem State.settle_blocked (s : State) : s.settle.port.blocked = s.port.blocked := by
  obtain ⟨_, _, _, h⟩ := s.settle_is; rw [h]
@[simp] theorem State.settle_later (s : State) : s.settle.port.later = s.port.later := by
  obtain ⟨_, _, _, h⟩ := s.settle_is; rw [h]
@[simp] theorem State.settle_bridge (s : State) : s.settle.port.bridge = s.port.bridge := by
  obtain ⟨_, _, _, h⟩ := s.settle_is; rw [h]
@[simp] theorem State.settle_response (s : State) : s.settle.port.response = s.port.response := by
  obtain ⟨_, _, _, h⟩ := s.settle_is; rw [h]
@[simp] theorem State.settle_boot (s : State) : s.settle.port.boot = s.port.boot := by
  obtain ⟨_, _, _, h⟩ := s.settle_is; rw [h]
@[simp] theorem State.settle_correctable (s : State) : s.settle.port.correctable = s.port.correctable := by
  obtain ⟨_, _, _, h⟩ := s.settle_is; rw [h]
@[simp] theorem State.settle_uncorrectable (s : State) : s.settle.port.uncorrectable = s.port.uncorrectable := by
  obtain ⟨_, _, _, h⟩ := s.settle_is; rw [h]
@[simp] theorem State.settle_weak (s : State) : s.settle.port.weak = s.port.weak := by
  obtain ⟨_, _, _, h⟩ := s.settle_is; rw [h]
@[simp] theorem State.settle_bad (s : State) : s.settle.port.bad = s.port.bad := by
  obtain ⟨_, _, _, h⟩ := s.settle_is; rw [h]
@[simp] theorem State.settle_ops (s : State) : s.settle.ops = s.ops := by simp [State.ops]
@[simp] theorem State.settle_news (s : State) : s.settle.news = s.news := by simp [State.news]

end Sys2Proof.Machine
end

