-- ==== Sys2Proof/Laws/Memory.lean ====
section
/-! SUPPORT. Shared memory: every operation keeps the canonical form, a read after a write gives the byte written, and a write
leaves every other byte alone. -/

namespace Sys2Proof.Machine

set_option Elab.async false

/-- An address is above a lower bound, when there is one. -/
def aboveBound : Option Nat → Nat → Prop
  | none, _ => True
  | some k, a => k < a

theorem Memory.sortedFrom_cons {lo : Option Nat} {k : Nat} {v : Byte} {m : Memory} :
    Memory.sortedFrom lo ((k, v) :: m) = true ↔
      aboveBound lo k ∧ v ≠ Config.unwrittenByte ∧ Memory.sortedFrom (some k) m = true := by
  cases lo <;> simp [Memory.sortedFrom, aboveBound, and_assoc]

theorem aboveBound.trans {lo : Option Nat} {k a : Nat} (h : aboveBound lo k) (ka : k < a) : aboveBound lo a := by
  cases lo with
  | none => trivial
  | some l => exact Nat.lt_trans (m := k) h ka

theorem Memory.sortedFrom.weaken {lo : Option Nat} {k : Nat} {m : Memory} (h : Memory.sortedFrom (some k) m = true)
    (hk : aboveBound lo k) : Memory.sortedFrom lo m = true := by
  cases m with
  | nil => simp [Memory.sortedFrom]
  | cons c m =>
    obtain ⟨h1, h2, h3⟩ := Memory.sortedFrom_cons.mp h
    exact Memory.sortedFrom_cons.mpr ⟨hk.trans h1, h2, h3⟩

theorem Memory.sortedFrom_put {lo : Option Nat} {m : Memory} {a : Nat} {b : Byte} (h : Memory.sortedFrom lo m = true)
    (ha : aboveBound lo a) : Memory.sortedFrom lo (m.put a b) = true := by
  induction m generalizing lo with
  | nil =>
    unfold Memory.put
    split
    · simp [Memory.sortedFrom]
    · exact Memory.sortedFrom_cons.mpr ⟨ha, ‹_›, by simp [Memory.sortedFrom]⟩
  | cons c m ih =>
    obtain ⟨k, v⟩ := c
    obtain ⟨h1, h2, h3⟩ := Memory.sortedFrom_cons.mp h
    unfold Memory.put
    split
    · split
      · exact h
      · exact Memory.sortedFrom_cons.mpr ⟨ha, ‹_›, Memory.sortedFrom_cons.mpr ⟨‹a < k›, h2, h3⟩⟩
    · split
      · subst a
        split
        · exact Memory.sortedFrom.weaken h3 h1
        · exact Memory.sortedFrom_cons.mpr ⟨h1, ‹_›, h3⟩
      · exact Memory.sortedFrom_cons.mpr ⟨h1, h2, ih h3 (by simp only [aboveBound]; omega)⟩

theorem Memory.read_below {k a : Nat} {m : Memory} (h : Memory.sortedFrom (some k) m = true) (ha : a ≤ k) :
    m.read a = Config.unwrittenByte := by
  induction m generalizing k with
  | nil => rfl
  | cons c m ih =>
    obtain ⟨l, v⟩ := c
    obtain ⟨h1, _, h3⟩ := Memory.sortedFrom_cons.mp h
    simp only [aboveBound] at h1
    have : l ≠ a := by omega
    simp only [Memory.read, this, if_false]
    exact ih h3 (by omega)

/-- A read after a put. -/
theorem Memory.read_put {lo : Option Nat} {m : Memory} (h : Memory.sortedFrom lo m = true) (a x : Nat) (b : Byte) :
    (m.put a b).read x = if x = a then b else m.read x := by
  induction m generalizing lo with
  | nil =>
    unfold Memory.put
    split
    · split <;> simp_all [Memory.read]
    · simp only [Memory.read, eq_comm]
  | cons c m ih =>
    obtain ⟨k, v⟩ := c
    obtain ⟨h1, h2, h3⟩ := Memory.sortedFrom_cons.mp h
    unfold Memory.put
    split
    · split
      · by_cases hx : x = a
        · subst hx
          have : k ≠ x := by omega
          simp only [Memory.read, this, if_false, if_true]
          rw [Memory.read_below h3 (by omega)]
          exact (‹b = Config.unwrittenByte›).symm
        · simp [hx]
      · by_cases hx : x = a
        · simp [Memory.read, hx]
        · have : a ≠ x := fun e => hx e.symm
          simp [Memory.read, hx, this]
    · split
      · subst a
        split
        · by_cases hx : x = k
          · subst hx
            simp only [if_true]
            rw [Memory.read_below h3 (Nat.le_refl _)]
            exact (‹b = Config.unwrittenByte›).symm
          · have : k ≠ x := fun e => hx e.symm
            simp [Memory.read, hx, this]
        · by_cases hx : x = k
          · simp [Memory.read, hx]
          · have : k ≠ x := fun e => hx e.symm
            simp [Memory.read, hx, this]
      · by_cases hk : k = x
        · subst hk
          have : k ≠ a := by omega
          simp [Memory.read, this]
        · simp only [Memory.read, hk, if_false]
          exact ih h3

theorem Memory.wf_iff {m : Memory} :
    m.wf = true ↔ Memory.sortedFrom none m = true ∧ ∀ c ∈ m, c.1 < Config.memTop := by simp [Memory.wf]

theorem Memory.mem_put {m : Memory} {a : Nat} {b : Byte} {c : Nat × Byte} (h : c ∈ m.put a b) : c ∈ m ∨ c = (a, b) := by
  induction m with
  | nil => unfold Memory.put at h; split at h <;> simp_all
  | cons d m ih =>
    obtain ⟨k, v⟩ := d
    unfold Memory.put at h
    split at h
    · split at h <;> (simp_all; try tauto)
    · split at h
      · split at h <;> (simp_all; try tauto)
      · simp only [List.mem_cons] at h ⊢
        rcases h with h | h
        · exact .inl (.inl h)
        · rcases ih h with h | h
          · exact .inl (.inr h)
          · exact .inr h

theorem Memory.wf_write {m : Memory} (h : m.wf = true) (a : Nat) (b : Byte) : (m.write a b).wf = true := by
  unfold Memory.write
  split
  · rw [Memory.wf_iff] at h ⊢
    refine ⟨Memory.sortedFrom_put h.1 trivial, fun c hc => ?_⟩
    rcases Memory.mem_put hc with hc | hc
    · exact h.2 c hc
    · rw [hc]; assumption
  · exact h

/-- A write of a byte in shared memory. -/
theorem Memory.read_write {m : Memory} (h : m.wf = true) (a x : Nat) (b : Byte) :
    (m.write a b).read x = if x = a ∧ a < Config.memTop then b else m.read x := by
  unfold Memory.write
  split
  · rw [Memory.read_put (Memory.wf_iff.mp h).1]; simp_all
  · simp_all

theorem Memory.wf_writeBytes {m : Memory} (h : m.wf = true) (a : Nat) (bs : List Byte) : (m.writeBytes a bs).wf = true := by
  induction bs generalizing m a with
  | nil => exact h
  | cons b bs ih => exact ih (Memory.wf_write h a b) (a + 1)

/-- A write of bytes leaves every other address alone. -/
theorem Memory.read_writeBytes_other {m : Memory} (h : m.wf = true) {a x : Nat} {bs : List Byte}
    (hx : x < a ∨ a + bs.length ≤ x) : (m.writeBytes a bs).read x = m.read x := by
  induction bs generalizing m a with
  | nil => rfl
  | cons b bs ih =>
    simp only [List.length_cons] at hx
    have hax : ¬ (x = a ∧ a < Config.memTop) := by omega
    show ((m.write a b).writeBytes (a + 1) bs).read x = m.read x
    rw [ih (Memory.wf_write h a b) (by omega), Memory.read_write h, if_neg hax]

/-- A write of bytes in shared memory puts each of them in its place. -/
theorem Memory.read_writeBytes {m : Memory} (h : m.wf = true) {a i : Nat} {bs : List Byte} (hi : i < bs.length)
    (ha : a + bs.length ≤ Config.memTop) : (m.writeBytes a bs).read (a + i) = bs[i] := by
  induction bs generalizing m a i with
  | nil => simp at hi
  | cons b bs ih =>
    simp only [List.length_cons] at hi ha
    show ((m.write a b).writeBytes (a + 1) bs).read (a + i) = _
    cases i with
    | zero =>
      rw [Memory.read_writeBytes_other (Memory.wf_write h a b) (by omega), Memory.read_write h, if_pos (by omega)]
      rfl
    | succ i =>
      have := ih (Memory.wf_write h a b) (a := a + 1) (i := i) (by omega) (by omega)
      rw [show a + (i + 1) = a + 1 + i by omega, this]
      rfl

theorem Memory.wf_writeEnabled {m : Memory} (h : m.wf = true) (a : Nat) (d : Word) (e : BitVec 4) :
    (m.writeEnabled a d e).wf = true := by
  unfold Memory.writeEnabled
  generalize List.range 4 = l
  induction l generalizing m with
  | nil => exact h
  | cons n l ih =>
    simp only [List.foldl_cons]
    apply ih
    split
    · exact Memory.wf_write h _ _
    · exact h

/-- A host write changes the enabled bytes of its word and no other byte (R152). -/
theorem Memory.read_writeEnabled {m : Memory} (h : m.wf = true) {a : Nat} (ha : a + 4 ≤ Config.memTop) (d : Word)
    (e : BitVec 4) (x : Nat) :
    (m.writeEnabled a d e).read x =
      if a ≤ x ∧ x < a + 4 ∧ e.getLsbD (x - a) = true then d.extractLsb' (8 * (x - a)) 8 else m.read x := by
  have step (m : Memory) (hm : m.wf = true) (n : Nat) :
      (if e.getLsbD n then m.write (a + n) (d.extractLsb' (8 * n) 8) else m).wf = true := by
    split
    · exact Memory.wf_write hm _ _
    · exact hm
  have rd (m : Memory) (hm : m.wf = true) (n : Nat) (hn : n < 4) (x : Nat) :
      (if e.getLsbD n then m.write (a + n) (d.extractLsb' (8 * n) 8) else m).read x =
        if x = a + n ∧ e.getLsbD n = true then d.extractLsb' (8 * n) 8 else m.read x := by
    split
    · rw [Memory.read_write hm]
      have : a + n < Config.memTop := by omega
      simp_all
    · simp_all
  have h0 := step m h 0
  have h1 := step _ h0 1
  have h2 := step _ h1 2
  unfold Memory.writeEnabled
  simp only [List.range, List.range.loop, List.foldl_cons, List.foldl_nil]
  rw [rd _ h2 3 (by omega), rd _ h1 2 (by omega), rd _ h0 1 (by omega), rd _ h 0 (by omega)]
  by_cases c : a ≤ x ∧ x < a + 4
  · obtain ⟨n, rfl⟩ : ∃ n, x = a + n := ⟨x - a, by omega⟩
    have hn : n < 4 := by omega
    interval_cases n <;> simp
  · have c1 : ¬ x = a + 0 := by omega
    have c2 : ¬ x = a + 1 := by omega
    have c3 : ¬ x = a + 2 := by omega
    have c4 : ¬ x = a + 3 := by omega
    have c5 : ¬ (a ≤ x ∧ x < a + 4 ∧ e.getLsbD (x - a) = true) := fun z => c ⟨z.1, z.2.1⟩
    rw [if_neg (fun z => c4 z.1), if_neg (fun z => c3 z.1), if_neg (fun z => c2 z.1), if_neg (fun z => c1 z.1), if_neg c5]

theorem Memory.sortedFrom_filter {lo : Option Nat} {m : Memory} (p : Nat × Byte → Bool) (h : Memory.sortedFrom lo m = true) :
    Memory.sortedFrom lo (m.filter p) = true := by
  induction m generalizing lo with
  | nil => exact h
  | cons c m ih =>
    obtain ⟨k, v⟩ := c
    obtain ⟨h1, h2, h3⟩ := Memory.sortedFrom_cons.mp h
    rw [List.filter_cons]
    split
    · exact Memory.sortedFrom_cons.mpr ⟨h1, h2, ih h3⟩
    · exact Memory.sortedFrom.weaken (ih h3) h1

theorem Memory.wf_clearBelow {m : Memory} (h : m.wf = true) (top : Nat) : (m.clearBelow top).wf = true := by
  rw [Memory.wf_iff] at h ⊢
  exact ⟨Memory.sortedFrom_filter _ h.1, fun c hc => h.2 c (List.mem_of_mem_filter hc)⟩

/-- The zeros of BOOT stand below the top, and nothing above it has changed (R154). -/
theorem Memory.read_clearBelow (m : Memory) (top x : Nat) :
    (m.clearBelow top).read x = if x < top then Config.unwrittenByte else m.read x := by
  unfold Memory.clearBelow
  induction m with
  | nil => simp [Memory.read]
  | cons c m ih =>
    obtain ⟨k, v⟩ := c
    rw [List.filter_cons]
    by_cases hk : top ≤ k
    · simp only [hk, decide_true, if_true]
      by_cases hx : k = x
      · subst hx
        have : ¬ k < top := by omega
        simp [Memory.read, this]
      · simp only [Memory.read, hx, if_false]
        exact ih
    · simp only [hk, decide_false]
      by_cases hx : k = x
      · subst hx
        have : k < top := by omega
        simp only [this, if_true] at ih ⊢
        exact ih
      · simp only [Memory.read, hx, if_false]
        exact ih

theorem State.reset_mem_wf : State.reset.mem.wf = true := by decide

end Sys2Proof.Machine
end

