-- ==== Sys2Proof/Laws/PerInstr.lean ====
section
/-! SUPPORT. What the checks of WellFormed leave to the machine, command by command. -/

namespace Sys2Proof.Laws.Sendable

set_option Elab.async false

/-- From 1 byte to the rest of a 64-byte block of shared memory (R157). -/
def InOneBlock (addr len : Nat) : Prop := 1 ≤ len ∧ addr / 64 = (addr + len - 1) / 64 ∧ addr + len ≤ 0x10000000

/-- A command that passes the checks names no byte outside shared memory and no burst across a 64-byte boundary (R157, R161), no
strip past the last but one of the widest mode (R68, R70), no register whose write acts (R165), and no announcement to mode
control itself (R182). -/
def Statement (i : Instr) : Prop :=
  i.wellFormed = true →
    match i with
    | .memoryBurstComplete us b =>
      (∀ u ∈ us,
        match u with
        | .correctable w => 4 * w + 4 ≤ 0x10000000
        | .uncorrectable w _ => 4 * w + 4 ≤ 0x10000000
        | .cutOff a n => InOneBlock a n)
        ∧ InOneBlock b.addr b.len
    | .stripScanoutStart k => k + 1 < 150
    | .registerWriteOther r v => r = .id ∨ (r = .sysctl ∧ v.getLsbD 31 = false ∧ v.getLsbD 8 = v.getLsbD 9)
    | .modeEntry b => b ≠ .mode
    | _ => True

theorem frameStart : Statement .frameStart := fun _ => trivial
theorem frameEnd : Statement .frameEnd := fun _ => trivial
theorem lineStart : Statement .lineStart := fun _ => trivial
theorem lineEnd : Statement .lineEnd := fun _ => trivial
theorem component (v : Byte) : Statement (.component v) := fun _ => trivial
theorem acceptance : Statement .acceptance := fun _ => trivial
theorem tileMeansArrival : Statement .tileMeansArrival := fun _ => trivial
theorem patternTimeout : Statement .patternTimeout := fun _ => trivial
theorem captureDecision : Statement .captureDecision := fun _ => trivial
theorem slotWaitExpiry : Statement .slotWaitExpiry := fun _ => trivial
theorem descriptorReadDone : Statement .descriptorReadDone := fun _ => trivial
theorem layoutReadDone : Statement .layoutReadDone := fun _ => trivial
theorem stripComplete : Statement .stripComplete := fun _ => trivial
theorem capturePieceComplete : Statement .capturePieceComplete := fun _ => trivial
theorem jobPieceComplete : Statement .jobPieceComplete := fun _ => trivial
theorem signaturePieceComplete : Statement .signaturePieceComplete := fun _ => trivial
theorem jobScanDone : Statement .jobScanDone := fun _ => trivial
theorem hostMemoryRead (a : Word) : Statement (.hostMemoryRead a) := fun _ => trivial
theorem hostMemoryWrite (a d : Word) (e : BitVec 4) : Statement (.hostMemoryWrite a d e) := fun _ => trivial
theorem recordQueueAdmit : Statement .recordQueueAdmit := fun _ => trivial
theorem postWrite (w : Word) : Statement (.postWrite w) := fun _ => trivial
theorem postUnknownKind : Statement .postUnknownKind := fun _ => trivial
theorem applySetup : Statement .applySetup := fun _ => trivial
theorem setupReadDone : Statement .setupReadDone := fun _ => trivial
theorem takeLayout : Statement .takeLayout := fun _ => trivial
theorem captureCredit : Statement .captureCredit := fun _ => trivial
theorem captureRestart : Statement .captureRestart := fun _ => trivial
theorem controlWordsReadDone : Statement .controlWordsReadDone := fun _ => trivial
theorem captureNow : Statement .captureNow := fun _ => trivial
theorem lessonBegin : Statement .lessonBegin := fun _ => trivial
theorem lessonEnd : Statement .lessonEnd := fun _ => trivial
theorem jobAdd : Statement .jobAdd := fun _ => trivial
theorem jobCancel : Statement .jobCancel := fun _ => trivial
theorem eventAck : Statement .eventAck := fun _ => trivial
theorem pageForget : Statement .pageForget := fun _ => trivial
theorem clearInstability : Statement .clearInstability := fun _ => trivial
theorem eventArrival (p : Nat) : Statement (.eventArrival p) := fun _ => trivial
theorem holdoffExpiry : Statement .holdoffExpiry := fun _ => trivial
theorem causeWrite (v : Word) : Statement (.causeWrite v) := fun _ => trivial
theorem maskWrite (v : Word) : Statement (.maskWrite v) := fun _ => trivial
theorem softReset : Statement .softReset := fun _ => trivial
theorem modeRequestStandby : Statement .modeRequestStandby := fun _ => trivial
theorem modeRequestLive : Statement .modeRequestLive := fun _ => trivial
theorem reactionTimerExpiry : Statement .reactionTimerExpiry := fun _ => trivial
theorem powerWarn : Statement .powerWarn := fun _ => trivial
theorem safeAssert : Statement .safeAssert := fun _ => trivial
theorem resetPin : Statement .resetPin := fun _ => trivial
theorem supplyGoodLoss : Statement .supplyGoodLoss := fun _ => trivial
theorem resetRelease : Statement .resetRelease := fun _ => trivial
theorem bootClearDone : Statement .bootClearDone := fun _ => trivial
theorem bootEnd : Statement .bootEnd := fun _ => trivial
theorem powerWarnInactive : Statement .powerWarnInactive := fun _ => trivial

theorem frameTurn : Statement .frameTurn := fun _ => trivial

theorem stripScanoutStart (k : Nat) : Statement (.stripScanoutStart k) := fun h => by
  simp only [Instr.wellFormed, stripInRange, decide_eq_true_eq] at h
  omega

theorem modeEntry (b : Block) : Statement (.modeEntry b) := fun h => of_decide_eq_true h

/-- The two low bits of a field agree when it reads 0 or 3. -/
theorem request_none (v : Word) (h : (v >>> 8) &&& 3#32 = 0#32 ∨ (v >>> 8) &&& 3#32 = 3#32) : v.getLsbD 8 = v.getLsbD 9 := by
  have e : ∀ i, i < 2 → ((v >>> 8) &&& 3#32).getLsbD i = v.getLsbD (8 + i) := by
    intro i hi
    have : i = 0 ∨ i = 1 := by omega
    rcases this with rfl | rfl <;> simp
  have e0 := e 0 (by decide)
  have e1 := e 1 (by decide)
  rcases h with h | h <;> rw [h] at e0 e1 <;> exact e0.symm.trans e1

theorem registerWriteOther (r : Register) (v : Word) : Statement (.registerWriteOther r v) := by
  intro h
  cases r <;> simp only [Instr.wellFormed, writesNothing, Bool.and_eq_true, Bool.or_eq_true, Bool.not_eq_true', decide_eq_true_eq,
    Bool.false_eq_true] at h
  · exact .inl rfl
  · exact .inr ⟨rfl, h.1, request_none v h.2⟩

theorem inOneBlock {b : EngineBurst} (h : b.wellFormed = true) : InOneBlock b.addr b.len := by
  simp only [EngineBurst.wellFormed, Bool.and_eq_true, decide_eq_true_eq, Config.memTop] at h
  obtain ⟨⟨h1, h2⟩, h3⟩ := h
  exact ⟨h1, by omega, h3⟩

theorem memoryBurstComplete (us : List Upset) (b : EngineBurst) : Statement (.memoryBurstComplete us b) := by
  intro h
  simp only [Instr.wellFormed, Bool.and_eq_true, List.all_eq_true] at h
  refine ⟨fun u m => ?_, inOneBlock h.2⟩
  have hm := h.1 u m
  cases u with
  | cutOff a n => exact inOneBlock hm
  | _ => simp only [Upset.wellFormed, decide_eq_true_eq, Config.memTop] at hm ⊢; omega

end Sys2Proof.Laws.Sendable
end

