-- ==== Sys2Proof/Laws/Work.lean ====
section
/-! SUPPORT. What the engine's taking of work can do (R94, R95): an idle engine takes the unit that stands first, and a unit in
progress is kept; and with it what a step did as a whole. -/

namespace Sys2Proof.Machine

/-! ## Units -/

theorem Render.stretch_eq (r : Render) (l : Levels) : r.stretch l = stretchAt r l := by
  unfold Render.stretch stretchAt
  cases r.mode <;> cases r.copy <;> simp

theorem pieceCount_eq (w h : Nat) : pieceCount w h = piecesOf w h := by
  simp [pieceCount, piecesOf, piecesAcross, ceilDiv]

theorem pieceOf_eq (r : Render) (l : Levels) (n : Nat) : pieceOf r l n = pieceAt r (stretchAt r l) r.wp r.hp n := by
  simp [pieceOf, pieceAt, pieceArea, piecesAcross, ceilDiv, Render.stretch_eq]

theorem signaturePieceOf_eq (r : Render) (n : Nat) : signaturePieceOf r n = pieceAt r none r.ws r.hs n := by
  simp [signaturePieceOf, pieceAt, pieceArea, piecesAcross, ceilDiv]

theorem stripParts_eq (s : State) (k : Nat) :
    ((s.feeder.latched.filter fun p => p.crosses k).map fun p => p.part s.monitor.levels k) = s.stripParts k := by
  simp [State.stripParts, LatchedPane.crosses, LatchedPane.part, Render.stretch_eq, Bool.decide_and]

theorem State.startUnit_unit (s : State) (w : Work) (parts : List Part) :
    (s.startUnit w parts).engine.unit = some (freshUnit w parts) := by
  obtain ⟨g, l, p, h⟩ := (s.setUnit { work := w, parts := parts }).makeGrant_is
  rw [State.startUnit, h]
  rfl

/-! ## Offers -/

theorem offeredStrip_some {s : State} {q : StripRequest} :
    s.offeredStrip = some q ↔ s.control.mode = .live ∧ s.feeder.request = some q := by
  unfold State.offeredStrip; split <;> simp_all

theorem offeredStrip_none {s : State} : s.offeredStrip = none ↔ ¬ s.stripStands := by
  unfold State.offeredStrip State.stripStands; split <;> simp_all

theorem offeredCapture_some {s : State} {r : Render} (h : s.offeredCapture = some r) :
    s.capture.context.state = .rendering ∧ s.capture.context.render = some r ∧ s.capture.context.next < piecesOf r.wp r.hp := by
  unfold State.offeredCapture at h
  split at h
  · split at h
    · cases h; simp_all [pieceCount_eq]
    · cases h
  · cases h

theorem offeredCapture_none {s : State} (h : s.offeredCapture = none) : ¬ s.captureStands := by
  rintro ⟨hs, hf, r, hr, hn⟩
  simp [State.offeredCapture, hr, hs, hf, pieceCount_eq, hn] at h

theorem offeredJob_some {s : State} {j : RunningJob} (h : s.offeredJob = some j) :
    s.jobs.running = some j ∧ j.next < j.total ∧ j.stop = none ∧ s.control.mode = .live ∧ s.feeder.degraded = false := by
  unfold State.offeredJob at h
  split at h
  · split at h
    · cases h; simp_all
    · cases h
  · cases h

theorem offeredJob_none {s : State} (h : s.offeredJob = none) : ¬ s.jobStands := by
  rintro ⟨hm, hd, hf, j, hj, hn, hp⟩
  simp [State.offeredJob, hj, hn, hp, hm, hd, hf] at h

/-- Issuing an operation frees no block that waits for room (R155). -/
theorem free_of_issue {s : State} {actor issuer b : Block} {op : RecordOp} (h : (s.issue actor issuer op).free b = true) :
    s.free b = true := by
  have hold (o : Output) (k : (s.hold o).free b = true) : s.free b = true := by
    simp only [State.free, State.waiting, State.hold, List.any_append, Bool.not_eq_true', Bool.or_eq_false_iff] at k ⊢
    exact ⟨k.1, k.2.1⟩
  unfold State.issue at h
  rcases s.emit_is actor (.op issuer op) with ⟨_, e⟩ | ⟨_, ⟨i, o, _, _, e⟩ | ⟨i, o, _, _, e⟩ | ⟨n, _⟩⟩
  · exact hold _ (e ▸ h)
  · exact hold _ (e ▸ h)
  · rw [e] at h
    unfold State.join at h
    split at h
    · obtain ⟨g, l, p, m⟩ := State.makeGrant_is { s with port.queue := s.port.queue ++ [o] }
      rw [m] at h
      exact h
    · simp only [State.free, State.waiting, List.any_append, Bool.not_eq_true', Bool.or_eq_false_iff] at h ⊢
      exact ⟨h.1.1, h.2⟩
  · exact absurd rfl (n issuer op)

theorem free_of_scanFrom {s : State} {x : Scan} {n : Nat} {b : Block} (h : (s.scanFrom x n).free b = true) : s.free b = true := by
  unfold State.scanFrom at h
  split at h
  · exact (free_of_issue h :)
  · exact h

/-! ## Taking work -/

/-- A unit in progress is kept (R97). -/
theorem takeWork_kept {s : State} {u : EngineUnit} (h : s.engine.unit = some u) : s.takeWork = s := by
  simp [State.takeWork, h]

/-- A unit begun on a state leaves what is offered as it stands there. -/
theorem State.startUnit_stands (s : State) (w : Work) (parts : List Part) :
    ((s.startUnit w parts).stripStands ↔ s.stripStands) ∧ ((s.startUnit w parts).captureStands ↔ s.captureStands) := by
  obtain ⟨e, g, l, p, h⟩ := s.startUnit_is w parts
  simp [h, State.stripStands, State.captureStands, State.free, State.waiting]

theorem startStrip_tookNext {s : State} {q : StripRequest} (h : s.offeredStrip = some q) : (s.startStrip q).tookNext := by
  obtain ⟨hm, hq⟩ := offeredStrip_some.1 h
  have hu := s.startUnit_unit (.strip q.strip q.buffer) (s.stripParts q.strip)
  obtain ⟨e, g, l, p, hs⟩ := s.startUnit_is (.strip q.strip q.buffer) (s.stripParts q.strip)
  unfold State.startStrip
  rw [stripParts_eq]
  refine ⟨fun u k => ?_, fun k => by simp [hu] at k⟩
  rw [hu] at k
  cases k
  rw [hs]
  exact ⟨⟨hm, hq, rfl⟩, trivial⟩

theorem startCapturePiece_tookNext {s : State} {r : Render} (h0 : s.offeredStrip = none) (h : s.offeredCapture = some r) :
    (s.startCapturePiece r).tookNext := by
  obtain ⟨hs, hr, hn⟩ := offeredCapture_some h
  unfold State.startCapturePiece
  simp only [pieceOf_eq]
  generalize hx : ({ s with capture.context.next := s.capture.context.next + 1 } : State) = x
  have hu := x.startUnit_unit (.capturePiece s.capture.context.next)
    [pieceAt r (stretchAt r s.monitor.levels) r.wp r.hp s.capture.context.next]
  have hk := (x.startUnit_stands (.capturePiece s.capture.context.next)
    [pieceAt r (stretchAt r s.monitor.levels) r.wp r.hp s.capture.context.next]).1
  obtain ⟨e, g, l, p, hq⟩ := x.startUnit_is (.capturePiece s.capture.context.next)
    [pieceAt r (stretchAt r s.monitor.levels) r.wp r.hp s.capture.context.next]
  refine ⟨fun u k => ?_, fun k => by simp [hu] at k⟩
  rw [hu] at k
  cases k
  refine ⟨?_, ?_⟩
  · rw [hq, ← hx]
    exact ⟨hs, rfl, r, hr, hn, rfl⟩
  · show ¬ (x.startUnit _ _).stripStands
    rw [hk, ← hx]
    exact offeredStrip_none.1 h0

theorem startJobPiece_tookNext {s : State} {j : RunningJob} (h0 : s.offeredStrip = none) (h1 : s.offeredCapture = none)
    (h : s.offeredJob = some j) : (s.startJobPiece j).tookNext := by
  obtain ⟨hj, hn, hp, hm, hd⟩ := offeredJob_some h
  have taken (w : Work) (part : Part) (kind : w = .jobPiece j.next ∨ w = .signaturePiece j.next)
      (e : s.jobWork j = (w, part)) :
      ({ s with jobs.running := some { j with next := j.next + 1 } }.startUnit w [part]).tookNext := by
    generalize hx : ({ s with jobs.running := some { j with next := j.next + 1 } } : State) = x
    have hu := x.startUnit_unit w [part]
    obtain ⟨hk, hc⟩ := x.startUnit_stands w [part]
    have hk' : ¬ (x.startUnit w [part]).stripStands := by rw [hk, ← hx]; exact offeredStrip_none.1 h0
    have hc' : ¬ (x.startUnit w [part]).captureStands := by rw [hc, ← hx]; exact offeredCapture_none h1
    obtain ⟨e', g, l, p, hq⟩ := x.startUnit_is w [part]
    have hw : (x.startUnit w [part]).jobWork { { j with next := j.next + 1 } with next := j.next } = (w, part) := by
      rw [hq, ← hx]; exact e
    have hb : (x.startUnit w [part]).control.mode = .live ∧ (x.startUnit w [part]).feeder.degraded = false
        ∧ (x.startUnit w [part]).jobs.running = some { j with next := j.next + 1 } := by
      rw [hq, ← hx]; exact ⟨hm, hd, rfl⟩
    refine ⟨fun u k => ?_, fun k => by simp [hu] at k⟩
    rw [hu] at k
    cases k
    rcases kind with rfl | rfl
    all_goals
      refine ⟨⟨hb.1, _, hb.2.2, rfl, hn, hp, ?_, ?_⟩, hk', hc', hb.2.1⟩ <;> rw [hw] <;> rfl
  unfold State.startJobPiece
  simp only []
  rw [pieceOf_eq, signaturePieceOf_eq]
  split
  next hk => exact taken _ _ (.inr rfl) (by rw [State.jobWork, if_pos hk])
  next hk => exact taken _ _ (.inl rfl) (by rw [State.jobWork, if_neg hk])

/-- An idle engine takes the unit that R94 puts first, or nothing where nothing is offered. -/
theorem takeWork_tookNext {s : State} (h : s.engine.unit = none) : s.takeWork.tookNext := by
  unfold State.takeWork
  rw [if_neg (by simp [h])]
  split
  · exact startStrip_tookNext ‹_›
  split
  · exact startCapturePiece_tookNext ‹_› ‹_›
  split
  · exact startJobPiece_tookNext ‹_› ‹_› ‹_›
  rename_i h0 _ h1 _ h2
  replace h0 := offeredStrip_none.1 h0
  replace h1 := offeredCapture_none h1
  replace h2 := offeredJob_none h2
  split
  · obtain ⟨hc, -, -, hf, -, -, -, hp, he, hr, -, -⟩ := s.scanFrom_spec ⟨none, [], false, []⟩ 0
    refine ⟨fun u k => by simp [he, h] at k, fun _ => ⟨?_, ?_, ?_⟩⟩
    · simpa [State.stripStands, hc, hf] using h0
    · rintro ⟨hs, hb, r⟩
      exact h1 ⟨by rwa [hp] at hs, free_of_scanFrom hb, by simpa [hp] using r⟩
    · rintro ⟨hm, hd, hb, j⟩
      exact h2 ⟨by rwa [hc] at hm, by rwa [hf] at hd, free_of_scanFrom hb, by simpa [hr] using j⟩
  · exact ⟨fun u k => by simp [h] at k, fun _ => ⟨h0, h1, h2⟩⟩

theorem State.closeWork_kept (s0 : State) {s : State} {u : EngineUnit} (h : s.engine.unit = some u) :
    (s0.closeWork s).engine.unit = some u := by
  simp [State.closeWork, takeWork_kept h, h]

/-- What is offered, and what the engine has begun, go by the state that closing a step leaves alone. -/
theorem State.tookNext_close (s0 : State) {s : State} (h : s.tookNext) : (s0.close s).tookNext := by
  obtain ⟨hq, hb, -⟩ := s0.close_port s
  have hl : (s0.close s).port.later = s.port.later := (s0.close_unchanged s .records (by simp)).2.2
  have hf (b : Block) : (s0.close s).free b = s.free b := by simp [State.free, State.waiting, hb, hl]
  have hs : (s0.close s).stripStands ↔ s.stripStands := by simp [State.stripStands]
  have hc : (s0.close s).captureStands ↔ s.captureStands := by simp [State.captureStands, hf]
  have hj : (s0.close s).jobStands ↔ s.jobStands := by simp [State.jobStands, hf]
  refine ⟨fun u k => ?_, fun k => ?_⟩
  · obtain ⟨hb, hg⟩ := h.1 u (by simpa using k)
    refine ⟨?_, ?_⟩
    · unfold State.justBegun at hb ⊢
      simpa [State.stripParts, State.jobWork] using hb
    · unfold State.stoodFirst at hg ⊢
      simpa [hs, hc] using hg
  · simpa [hs, hc, hj] using h.2 (by simpa using k)

/-- After a step in which the engine may take work, an engine that was idle has taken the unit that R94 puts first. -/
theorem State.closeWork_tookNext (s0 : State) {s : State} (h : s.engine.unit = none) : (s0.closeWork s).tookNext :=
  s0.tookNext_close (takeWork_tookNext h)

/-! ## What a step did -/

/-- A step that closes with the arbiter alone did what its own effect did. -/
theorem DidOnly.close {changed : List Piece} {new : List RecordOp} {events : List (Block × EventKind × Nat × Nat × Nat)}
    {s u : State} (h : Unchanged (changed ++ .records :: closing) s u)
    (k : s.roomFor new.length → u.ops = s.ops ++ new ∧ u.news = s.news ++ events ∧ Stamped s u) :
    DidOnly changed new events s (s.close u) := by
  refine ⟨?_, fun r => ?_⟩
  · refine h.comp (s.close_unchanged u) (List.Subset.refl _) ?_
    intro p hp
    simp only [List.mem_append, List.mem_cons]
    exact .inr (.inr (by simpa using hp))
  · obtain ⟨ho, hn, hs⟩ := k r
    exact ⟨by simpa using ho, by simpa using hn, hs.close⟩

/-- A step at whose end the engine may take work did what its own effect did, and at most took work. -/
theorem Did.closeWork {changed : List Piece} {new : List RecordOp} {events : List (Block × EventKind × Nat × Nat × Nat)}
    {s u : State} (h : Unchanged (changed ++ .records :: closing) s u)
    (k : s.roomFor new.length → u.ops = s.ops ++ new ∧ u.news = s.news ++ events ∧ Stamped s u) :
    Did changed new events s (s.closeWork u) := by
  refine ⟨?_, fun hu => ?_, fun hc => ?_, fun hj => ?_, fun r => ?_⟩
  · refine h.comp (s.closeWork_unchanged u) ?_ (fun p hp => List.mem_append.2 (.inr hp))
    intro p hp
    simp only [List.mem_append, List.mem_cons, List.not_mem_nil, or_false] at hp ⊢
    rcases hp with hp | hp | hp | hp <;> simp [hp]
  · have he : u.engine = s.engine := h .unit (by simp [hu])
    rw [← he]
    exact ⟨fun _ hk => s.closeWork_kept hk, fun hn => (s.closeWork_tookNext hn).1⟩
  · have hu : u.capture.context = s.capture.context := h .context (by simp [hc])
    rw [State.closeWork_capture]
    simp only [hu]
  · have hu : u.jobs.running = s.jobs.running := h .runningJob (by simp [hj])
    rw [State.closeWork_running, hu]
  · obtain ⟨ho, hn, hs⟩ := k r
    refine ⟨?_, by simpa using hn, hs.closeWork⟩
    rcases s.closeWork_ops u with e | ⟨k, hk, e⟩
    · exact ⟨[], .inl rfl, by rw [e, ho, List.append_nil]⟩
    · exact ⟨_, .inr ⟨k, hk, rfl⟩, by rw [e, ho]⟩

/-! ## Post words (R168) -/

theorem headWord_some {s : State} {kind : Nat} {w : Word} {rest : List Word} (h : s.offersWord kind w rest)
    (hm : s.control.mode ≠ .reset) (hb : s.control.mode ≠ .boot) : s.headWord kind = some (w, rest) := by
  obtain ⟨hf, hk, hi, hp⟩ := h
  simp [State.headWord, State.portFree, hf, hk, hi, hp, hm, hb]

theorem headWord_none {s : State} (kind : Nat) (h : s.post.inHand ≠ none ∨ s.free .post = false) : s.headWord kind = none := by
  unfold State.headWord
  split
  · rcases h with h | h <;> simp [State.portFree, h]
  · rfl

theorem handWord_some {s : State} {kind : Nat} {w : Word} (h : s.keepsWord w) (hk : postKind w = kind) :
    s.handWord kind = if s.ownersFree kind = true then some w else none := by
  obtain ⟨hi, h1, h2⟩ := h
  simp [State.handWord, State.dispatched, hi, h1, h2, hk]

/-- What the command of a kind of post word can do: nothing, or the port takes the word at the head of the FIFO, or the owner acts on
the word in hand. -/
theorem State.takeWord_cases {s t : State} {kind : Nat} {allowed : Mode → Bool} {legal : Nat → Bool} {act : Word → State → State}
    (h : s.takeWord kind allowed legal act = .next t) :
    t = s
      ∨ (∃ w rest, s.headWord kind = some (w, rest)
          ∧ t = s.closeWork ((s.wordTaken rest).dispatch kind allowed legal act w))
      ∨ ∃ w, s.headWord kind = none ∧ s.handWord kind = some w ∧ t = s.closeWork (act w s.leaveHand) := by
  unfold State.takeWord at h
  split at h <;> cases h
  · exact .inr (.inl ⟨_, _, ‹_›, rfl⟩)
  · exact .inr (.inr ⟨_, ‹_›, ‹_›, rfl⟩)
  · exact .inl rfl

end Sys2Proof.Machine
end

