-- ==== Sys2Proof/Tests/Slice0.lean ====
section
/-! SUPPORT. The model's own tests: the refusals of WellFormed, the worked examples of the manual, and for every statement with
hypotheses a state and operands that meet them. -/

namespace Sys2Proof.Machine.Tests

set_option Elab.async false

/-! ## Small states -/

/-- The part in a mode, with every block in it, and nothing in hand. -/
def part (m : Mode) (i : IntakeState) : State :=
  { control := { mode := m, pinActive := false }
    intake := { view := m, state := i }
    monitor := { view := m }
    feeder := { view := m, rasterOn := true }
    capture := { view := m }
    jobs := { view := m } }

def standby : State := part .standby .waiting
def live : State := part .live .waiting
def shutting : State := part .shutting .stopped
def booting : State := { control := { mode := .boot, pinActive := false } }

/-- A post word at the head of the FIFO. -/
def State.posted (s : State) (kind argument : Nat) : State :=
  { s with post.fifo := [BitVec.ofNat 32 (16777216 * kind + argument)] }

/-- What a command answers, as a state. -/
def after (c : Instr) (s : State) : State :=
  match exec c s with
  | .next t => t
  | _ => s

/-- A command answers the state it finds. -/
def leaves (c : Instr) (s : State) : Bool :=
  match exec c s with
  | .next t => decide (t = s)
  | _ => false

/-- A frame of 640 × 480 being received, its geometry in the working setup. -/
def receiving (s : State) : State :=
  { s with
    post.setup := { s.post.setup with width := 640, height := 480 }
    intake.state := .receiving, intake.geometry := some ⟨640, 480⟩, intake.sums := List.replicate 192 0 }

/-- Five slots of which `n` is newest, with the geometry of the default input. -/
def withNewest (s : State) (n : Nat) : State :=
  { s with
    intake.slots := List.replicate 5 { fill := .complete, geometry := some ⟨3264, 2448⟩ }
    intake.newest := some n, intake.frameNumber := 7
    intake.held := some ⟨List.replicate 192 100, 7, ⟨3264, 2448⟩⟩ }

/-- Every tile at one mean. -/
def flat (m : Nat) : List Nat := List.replicate 192 m

/-- Half the tiles at one mean, half at another. -/
def halves (a b : Nat) : List Nat := List.replicate 96 a ++ List.replicate 96 b

/-- Means on their way to the monitor, with previous means of 100 everywhere. -/
def arriving (s : State) (means : List Nat) : State :=
  { s with
    intake.meansOut := [⟨means, 8, ⟨3264, 2448⟩⟩]
    monitor.previous := some (flat 100, ⟨3264, 2448⟩) }

/-- The monitor one QUIET frame before a STILL frame. -/
def settling (s : State) : State :=
  { s with monitor.pageState := .settling, monitor.motionRun := 3, monitor.stillRun := 9, monitor.patternAge := 12 }

/-- A capture in WAITING_SLOT for page 1, entry 0, with its pin on slot 2. -/
def waitingSlot (s : State) : State :=
  let s := withNewest s 2
  { s with
    intake.slots := s.intake.slots.modify 2 fun x => { x with pinCapture := true }
    monitor.index := s.monitor.index.set 0 { state := .provisional, page := 1, captureFrame := 7, lastSeen := 7 }
    capture.lessonOpen := true, capture.counter := 1, capture.running := true, capture.credit := 2, capture.head := 0x100000
    capture.context := { state := .waitingSlot, page := 1, entry := some 0, levels := ⟨20, 200, true⟩, pinned := some 2, frame := 7 } }

/-- A slot descriptor as read: owner, buffer, capacity, next. -/
def descriptorBytes (owner buffer capacity next : Nat) : List Byte :=
  leBytes 4 owner ++ leBytes 4 buffer ++ leBytes 4 capacity ++ leBytes 4 next ++ zeros 16

/-- A small render: a 16 × 16 source to a 16 × 8 target. -/
def smallRender (destination : Nat) : Render :=
  { source := 0x200000, ws := 16, hs := 16, wp := 16, hp := 8, zoom := 256, cx := 128, cy := 128, gain := 0, coring := 0
    mode := .none, black := 0, white := 0, copy := none, background := blankColour, destination := destination }

/-- A capture RENDERING its one piece, which the engine works on. -/
def rendering (s : State) (done : Nat) (r : Render) : State :=
  let s := waitingSlot s
  { s with
    capture.context := { s.capture.context with
      state := .rendering, descriptor := some ⟨0x100000, 0x300000, 1000000, 0x100020⟩, render := some r, next := done + 1, done := done }
    engine.unit := some { work := .capturePiece done, parts := [pieceOf r {} done] } }

/-- A STORED job of one entry RUNNING with the engine on its piece. -/
def jobRunning (s : State) (kind : JobKind) (work : Work) (total : Nat) (pin : Option Nat) : State :=
  let r := smallRender 0x300000
  { s with
    jobs.entries := s.jobs.entries.set 3 { state := .running, reason := 0, pieces := 0, index := 255 }
    jobs.running := some
      { entry := 3, kind := kind, render := r, indexOption := true, page := 5, total := total, next := 1, done := 0, stop := none
        pin := pin, sums := noSums }
    engine.unit := some { work := work, parts := [match work with | .signaturePiece n => signaturePieceOf r n | _ => pieceOf r {} 0] } }

/-- A request that passes every test of R138. -/
def request (kind : Nat) : Request :=
  { kind := kind, priority := 4, profile := 1, mode := 0, black := 0, white := 0, indexOption := false, page := 0, source := 0x200000
    ws := 640, hs := 480, destination := 0x9000000, capacity := 1000000, wd := 320, hd := 240, zoom := 256, cx := 5120, cy := 3840 }

/-- A scan that has read one request, of entry 3. -/
def scanned (s : State) (r : Request) : State :=
  { s with
    jobs.entries := s.jobs.entries.set 3 { state := .pending, reason := 0, pieces := 0, index := 255 }
    jobs.scan := some { reading := none, got := [(3, r)] } }

/-- A layout record of one pane. -/
def layoutBytes (count kind x w : Nat) : List Byte :=
  leBytes 4 7 ++ [16#8, 128#8, 128#8] ++ leBytes 1 count ++ zeros 8
    ++ (List.range 4).flatMap fun i =>
      leBytes 2 x ++ leBytes 2 (if i = 0 then 0 else 200 * i) ++ leBytes 2 w ++ leBytes 2 200 ++ leBytes 1 kind ++ zeros 3
        ++ leBytes 4 0x200000 ++ leBytes 2 640 ++ leBytes 2 480 ++ leBytes 2 512 ++ zeros 10

/-- A setup record with the default values, of this generation and watermark. -/
def setupBytes (generation width queue watermark : Nat) : List Byte :=
  leBytes 4 generation ++ leBytes 2 width ++ leBytes 2 2448 ++ leBytes 1 1 ++ leBytes 1 12 ++ leBytes 1 8 ++ leBytes 1 2
    ++ leBytes 1 3 ++ leBytes 1 10 ++ leBytes 1 12 ++ leBytes 1 60 ++ leBytes 2 300 ++ leBytes 2 0 ++ leBytes 1 0 ++ leBytes 1 1
    ++ leBytes 1 2 ++ leBytes 1 1 ++ leBytes 2 0 ++ leBytes 2 0 ++ leBytes 2 queue ++ leBytes 2 watermark ++ leBytes 1 0 ++ zeros 479

/-- A full index, its last entry the one not seen for longest. -/
def oneOlder : List IndexEntry :=
  (List.replicate 64 { state := .valid, lastSeen := 5 }).set 63 { state := .valid, lastSeen := 4, page := 9 }

/-- A full index, from which an insertion evicts. -/
def fullIndex (s : State) : State :=
  { s with monitor.index := oneOlder }

/-! ## WellFormed refuses what no sender can send -/

theorem test_refuses_empty_burst : (Instr.memoryBurstComplete [] ⟨false, 0, 0⟩).wellFormed = false := by decide
theorem test_refuses_burst_across_64 : (Instr.memoryBurstComplete [] ⟨false, 60, 5⟩).wellFormed = false := by decide
theorem test_refuses_burst_above_memory :
    (Instr.memoryBurstComplete [] ⟨true, 0x0FFFFFFF, 2⟩).wellFormed = false := by decide
theorem test_refuses_upset_outside_memory :
    (Instr.memoryBurstComplete [.correctable 0x4000000] ⟨false, 0, 64⟩).wellFormed = false
      ∧ (Instr.memoryBurstComplete [.uncorrectable 0x4000000 5#32] ⟨false, 0, 64⟩).wellFormed = false := by decide
theorem test_takes_whole_burst :
    (Instr.memoryBurstComplete [.correctable 0x3FFFFFF] ⟨false, 0x0FFFFFC0, 64⟩).wellFormed = true := by decide
theorem test_refuses_last_strip :
    (Instr.stripScanoutStart 149).wellFormed = false ∧ (Instr.stripScanoutStart 148).wellFormed = true := by decide
theorem test_refuses_cut_off_read_across_blocks :
    (Instr.memoryBurstComplete [.cutOff 60 5] ⟨false, 0, 64⟩).wellFormed = false
      ∧ (Instr.memoryBurstComplete [.cutOff 60 4] ⟨false, 0, 64⟩).wellFormed = true := by decide
theorem test_refuses_acting_register_writes :
    (Instr.registerWriteOther .sysctl 0x80000000#32).wellFormed = false
      ∧ (Instr.registerWriteOther .sysctl 0x100#32).wellFormed = false
      ∧ (Instr.registerWriteOther .sysctl 0x200#32).wellFormed = false
      ∧ (Instr.registerWriteOther .cause 0#32).wellFormed = false
      ∧ (Instr.registerWriteOther .sysctl 0x300#32).wellFormed = true ∧ (Instr.registerWriteOther .id 1#32).wellFormed = true := by
  decide
theorem test_refuses_entry_of_mode_control : (Instr.modeEntry .mode).wellFormed = false := by decide

/-! ## The worked examples of the manual -/

/-- The pane of "One Pixel From Start to Interpolation". -/
def examplePane (zoom cx cy : Nat) : Render :=
  { source := 0x1000000, ws := 3264, hs := 2448, wp := 1920, hp := 1080, zoom := zoom, cx := cx, cy := cy, gain := 0, coring := 0
    mode := .none, black := 0, white := 0, copy := none, background := blankColour, destination := 0 }

theorem test_example_window :
    (examplePane 512 26112 19584).fitStep = 148549 ∧ (examplePane 512 26112 19584).step = 74274
      ∧ (examplePane 512 26112 19584).originX = 35651712 ∧ (examplePane 512 26112 19584).originY = 40108104
      ∧ (examplePane 512 26112 19584).centreX = 26112 ∧ (examplePane 512 26112 19584).centreY = 19584 := by decide

theorem test_example_samples :
    (examplePane 512 26112 19584).lumaColumn 0 = (544, 17) ∧ (examplePane 512 26112 19584).lumaRow 0 = (612, 17)
      ∧ (examplePane 512 26112 19584).chromaColumn 0 = (272, 8) := by decide

theorem test_example_blends :
    blend 200 40 180 60 17 17 = 188 ∧ blend 110 118 112 120 8 17 = 110 ∧ blend 150 150 150 150 8 17 = 150 := by decide

theorem test_example_clamped_centre :
    (examplePane 512 0 0).originX = 0 ∧ (examplePane 512 0 0).centreX = 17407 ∧ (examplePane 512 0 0).centreY = 9791
      ∧ (examplePane 512 0 0).lumaColumn 0 = (0, 17) := by decide

theorem test_example_letterbox :
    (examplePane 256 0 0).originX = -35652288 ∧ (examplePane 256 0 0).originY = -396
      ∧ (examplePane 256 0 0).columnInside 239 = false ∧ (examplePane 256 0 0).columnInside 240 = true
      ∧ (examplePane 256 0 0).columnInside 1679 = true ∧ (examplePane 256 0 0).columnInside 1680 = false
      ∧ (examplePane 256 0 0).rowInside 0 = true ∧ (examplePane 256 0 0).rowInside 1079 = true
      ∧ (examplePane 256 0 0).centreX = 26112 ∧ (examplePane 256 0 0).centreY = 19584
      ∧ (examplePane 256 0 0).lumaColumn 240 = (0, 160) := by decide

theorem test_example_sharpening :
    sharpenValue 188 182 40 2 = 198 ∧ sharpenValue 188 182 40 3 = 196 ∧ sharpenValue 100 110 24 2 = 88 := by decide

theorem test_example_stretching :
    stretchValue (some (30, 220)) 198 = 225 ∧ stretchValue (some (22, 231)) 198 = 215 ∧ stretchValue (some (22, 231)) 15 = 0
      ∧ stretchValue none 198 = 198 := by decide

/-- "A Zoom Ramp Toward a Corner": the centres used at frame turns 1, 4 and 8, and the ramp's last step. -/
theorem test_example_ramp :
    (examplePane 356 4000 3200).step = 106821 ∧ (examplePane 356 4000 3200).centreX = 25036
      ∧ (examplePane 356 4000 3200).centreY = 14082 ∧ (examplePane 656 4000 3200).centreX = 13586
      ∧ (examplePane 1024 4000 3200).centreX = 8703 ∧ (examplePane 1024 4000 3200).centreY = 4895
      ∧ rampStep 256 1024 100 = 356 ∧ rampStep 956 1024 100 = 1024 := by decide

/-- "Quantising a Page". -/
theorem test_example_quantising :
    (codeOf ⟨22, 231, true⟩ 74, codeOf ⟨22, 231, true⟩ 75, codeOf ⟨22, 231, true⟩ 126, codeOf ⟨22, 231, true⟩ 127,
        codeOf ⟨22, 231, true⟩ 179, codeOf ⟨22, 231, true⟩ 180, codeOf ⟨22, 231, true⟩ 130)
      = (0, 1, 1, 2, 2, 3, 2)
      ∧ codeOf ⟨120, 130, false⟩ 120 = 1 ∧ codeOf ⟨120, 130, false⟩ 130 = 2 := by decide

/-- "Choosing an Entry to Evict": the age across the wrap of the frame number, and the choice among three entries. -/
theorem test_example_eviction :
    entryAge 100 { lastSeen := 4294967200 } = 196
      ∧ evictionChoice 50000 [{ state := .provisional, lastSeen := 30000 }, { state := .valid, lastSeen := 41001 },
          { state := .valid, lastSeen := 41000 }, { state := .valid, lastSeen := 41000 }] = some 2 := by decide

/-- "A Page Turn in Frames": frames 101 to 105 from N of the table. -/
theorem test_example_page_turn :
    let u : Setup := {}
    let p1 := settledPattern.step u (frameClass u 40)
    let p2 := p1.step u (frameClass u 55)
    let p3 := p2.step u (frameClass u 5)
    let p4 := p3.step u (frameClass u 1)
    (p1 = ⟨.moving, 1, 0, 1⟩ ∧ p2 = ⟨.moving, 2, 0, 2⟩) ∧ p3 = ⟨.moving, 3, 0, 3⟩ ∧ p4 = ⟨.settling, 3, 1, 4⟩
      ∧ p4.step u (frameClass u 0) = ⟨.settling, 3, 2, 5⟩ := by decide

/-- "A Small Queue Under Load", steps 7 and 8: EVENT_ACK 2 gives back 7, 0, 1 and 2; the second one is refused. -/
def smallQueue : State :=
  { standby with post := { standby.post with setup.queueSize := 8, setup.watermark := 3, put := 7, get := 7, fill := 8 } }

theorem test_example_queue_ack :
    (after .eventAck (State.posted smallQueue 10 2)).post.get = 3 ∧ (after .eventAck (State.posted smallQueue 10 2)).post.fill = 4
      ∧ ((after .eventAck { State.posted smallQueue 10 2 with post.get := 3, post.fill := 4 }).post.raised.map fun e => (e.small, e.a, e.b))
        = [(4, 10, 2)] := by decide

/-- "Eight Grants", grant 4: the urgent intake is granted ahead of the engine's turn in the ring. -/
theorem test_example_urgent_intake :
    let s := { live with
      intake.buffer := List.replicate 4096 ⟨false, false, 0, 0#8⟩
      port := { live.port with last := some .intake } }
    s.urgent .intake = true ∧ ringOrder (some .intake) = [.engine, .record, .host, .intake] := by
  refine ⟨?_, rfl⟩
  simp only [State.urgent, List.length_replicate]
  decide

/-- "Counting Pieces" and the corrections of the setup record (R170). -/
theorem test_pieces_and_corrections :
    pieceCount 3264 2448 = 1224 ∧ pieceCount 640 484 = 61 ∧ pieceArea 640 484 60 = (0, 640, 480, 4) ∧ correctCaptureWidth 3 = 16
        ∧ correctCaptureWidth 4097 = 4096 ∧ correctCaptureWidth 1 = 0
      ∧ correctCaptureHeight 7 = 8 ∧ correctWatermark 64 0 = 0 := by decide

/-! ## The queue of commands -/

theorem test_word_spells_no_command : decodeTableWord 0 0 = none ∧ decodeTableWord 8 255 = none := by decide
theorem test_first_step_releases_reset :
    (match step { State.reset with pending := [.resetRelease, .bootClearDone] } with
      | .next t => (t.control.mode, t.port.boot, t.pending)
      | _ => (.reset, .none, [])) = (.boot, .clearing, [.bootClearDone]) := by decide

/-! ## Witnesses: states and operands that meet the hypotheses of the statements, clause by clause -/

/-- With this word posted, the port holds a word of the kind. -/
def Asks (s : State) (k a : Nat) : Prop := (State.posted s k a).holdsWord k (BitVec.ofNat 32 (16777216 * k + a)) []

theorem free_of {s : State} (h : s.noneWait) (b : Block) : s.free b = true := by
  simp [State.free, State.waiting, h.1, h.2]

theorem holds (s : State) (k a : Nat) (h : s.post.inHand = none) (hk : postKind (BitVec.ofNat 32 (16777216 * k + a)) = k)
    (hb : s.noneWait := by exact ⟨rfl, rfl⟩) : Asks s k a :=
  ⟨⟨rfl, hk, h, free_of hb _⟩, List.all_eq_true.2 fun _ _ => free_of hb _⟩

theorem ready_of {s : State} {b : Block} (h : s.post.inHand = none) (hb : s.free b = true) : s.readyForEntry b :=
  ⟨hb, fun w hw => by simp [State.keepsWord, h] at hw⟩

theorem noRead_of {s : State} (h : s.ops = []) : s.noDescriptorRead := by
  intro a g hm
  rw [h] at hm
  cases hm

theorem cleanUnit_of {s : State} {u : EngineUnit} (hb : s.port.bad = []) (hw : s.port.weak = []) : s.cleanUnit u := by
  intro w h
  rw [hb, hw] at h
  simp at h

theorem cleanWords_of {s : State} {a n : Nat} (hb : s.port.bad = []) (hw : s.port.weak = []) : s.cleanWords a n := by
  intro w _ _
  rw [hb, hw]
  simp

theorem clean_of {s : State} {u : EngineUnit} (hb : s.port.bad = []) (hw : s.port.weak = []) :
    ∀ w, w ∈ s.port.bad ∨ w ∈ s.port.weak → u.needsWord w = false := by
  intro w h
  rw [hb, hw] at h
  simp at h

theorem witness_StepRunsTheFrontCommand : live.pending = [] := rfl

theorem witness_ResetsGiveTheTablesValues :
    (Instr.softReset = .softReset ∧ live.control.mode ≠ .reset) ∧ State.reset.control.mode = .reset := by decide

theorem witness_BootClearsTheControlBlock :
    State.reset.control.mode = .reset
      ∧ ({ booting with port.boot := .clearing } : State).control.mode = .boot
      ∧ ({ booting with port.boot := .clearing } : State).port.boot = .clearing := by decide

/-- BOOT at its end, with a host access held: a good one, one above memory. -/
def bootDone (h : Option HostAccess) (warned : Bool) : State :=
  { booting with port.boot := .status, port.bridge := h, control.warned := warned }

theorem witness_BootEndsInStandbyOrShutsDown :
    (bootDone none false).control.mode = .boot ∧ (bootDone none false).port.boot = .status ∧ (bootDone none false).port.queue = []
      ∧ (bootDone none false).noneWait ∧ (bootDone none false).post.holdoffDue = false
      ∧ (bootDone none false).post.fill < (bootDone none false).post.setup.queueSize ∧ (bootDone none false).port.bridge = none
      ∧ (bootDone (some (.read 0xFFFFFFC)) false).port.bridge = some (.read 0xFFFFFFC)
      ∧ (HostAccess.read 0xFFFFFFC).ending = none ∧ (HostAccess.read 0x10000000).ending = some .error
      ∧ (HostAccess.write 0x1FC 0#32 15#4).ending = some .done
      ∧ (bootDone none false).control.warned = false ∧ (bootDone none false).control.warnLevel = false
      ∧ (bootDone none true).control.warned = true ∧ (bootDone none true).capture.context.state = .idle
      ∧ (bootDone none true).jobs.running = none ∧ (bootDone none true).feeder.deferred = [] := by decide

/-- R181, R182: the first record after a reset is MODE_CHANGED, at position 0 with sequence number 0, also where the next step raises
an event of its own. -/
theorem test_mode_changed_is_the_first_record :
    let t := after .bootEnd (bootDone none false)
    t.port.queue.drop 1 = [.write [(0x2000, eventBytes 1 2 0 0 1 0)], .write [(4, [1#8, 0#8])]]
      ∧ t.post.raised = [] ∧ (t.post.put, t.post.fill, t.post.sequence) = (1, 1, 1) := by decide +kernel

theorem witness_ModeRequestsFollowTheTable :
    live.control.mode = .live ∧ standby.control.mode = .standby ∧ shutting.control.mode ≠ .standby ∧ shutting.control.mode ≠ .live := by
  decide

/-- An announcement on its way to a block. -/
def announced (s : State) (b : Block) (m : Mode) : State := { s with control.announcements := [⟨b, m⟩] }

/-- The same, with another on its way to the post port, and the mode that both announce. -/
def announcedTwo (s : State) (b : Block) (m : Mode) : State :=
  { s with control.mode := m, control.announcements := [⟨b, m⟩, ⟨.post, m⟩] }

/-- An entry to SHUTTING with another one still on its way does not end the shutdown. -/
theorem staysUp_two (s : State) (b : Block) (m : Mode) :
    ((announcedTwo s b m).dropAnnouncement ⟨b, m⟩).upAfterCapture ∧ ((announcedTwo s b m).dropAnnouncement ⟨b, m⟩).upAfterJob := by
  have h : ((announcedTwo s b m).dropAnnouncement ⟨b, m⟩).entriesDone = false := by
    simp [announcedTwo, State.dropAnnouncement, State.entriesDone]
  exact ⟨.inr (.inl h), .inr (.inl h)⟩

/-- A frame being received into slot 4, with another one pending. -/
def fillingLast : State :=
  { receiving live with
    intake.target := .slot 4, intake.slots := List.replicate 5 { fill := .filling }
    intake.pendingFrame := some ⟨3, ⟨640, 480⟩, [], false⟩ }

theorem witness_EntriesReachIntakeAndMonitor :
    let s := announcedTwo fillingLast .intake .shutting
    s.control.announced .intake = some ⟨.intake, .shutting⟩ ∧ s.readyForEntry .intake
      ∧ (s.dropAnnouncement ⟨.intake, .shutting⟩).staysUp
      ∧ s.intake.state = .receiving ∧ s.intake.target = .slot 4 ∧ 4 < s.intake.slots.length
      ∧ s.intake.pendingFrame = some ⟨3, ⟨640, 480⟩, [], false⟩
      ∧ (announcedTwo fillingLast .intake .standby).control.announced .intake = some ⟨.intake, .standby⟩
      ∧ (announcedTwo shutting .monitor .shutting).control.announced .monitor = some ⟨.monitor, .shutting⟩
      ∧ (announcedTwo shutting .monitor .shutting).readyForEntry .monitor
      ∧ ((announcedTwo shutting .monitor .shutting).dropAnnouncement ⟨.monitor, .shutting⟩).staysUp
      ∧ { shutting with monitor.timeoutDue := true }.monitor.timeoutDue = true
      ∧ (let d := announcedTwo { fillingLast with intake.target := .deferred } .intake .standby
        d.control.announced .intake = some ⟨.intake, .standby⟩ ∧ (d.dropAnnouncement ⟨.intake, .standby⟩).staysUp
          ∧ d.intake.state = .receiving ∧ d.intake.target = .deferred)
      ∧ (announcedTwo live .intake .standby).intake.state ≠ .receiving
      ∧ { receiving live with intake.target := .standby }.intake.state = .receiving
      ∧ (announcedTwo shutting .intake .standby).intake.state = .stopped ∧ s.intake.slot 3 = { fill := .filling } :=
  ⟨by decide, ready_of rfl (by decide), .inl (staysUp_two _ _ _).1, rfl, rfl, by decide, rfl, by decide, by decide,
    ready_of rfl (by decide), .inl (staysUp_two _ _ _).1, rfl, ⟨by decide, .inl (staysUp_two _ _ _).1, rfl, rfl⟩, by decide, rfl, rfl, by decide⟩

theorem witness_EntriesReachCaptureAndJobs :
    let s := announcedTwo (waitingSlot live) .capture .shutting
    let j := announcedTwo (jobRunning live .stored (.jobPiece 0) 1 none) .jobs .shutting
    s.control.announced .capture = some ⟨.capture, .shutting⟩ ∧ s.readyForEntry .capture ∧ s.capture.context.state = .waitingSlot
      ∧ (s.dropAnnouncement ⟨.capture, .shutting⟩).upAfterCapture ∧ s.capture.context.entry = some 0
      ∧ (announcedTwo live .capture .live).control.announced .capture = some ⟨.capture, .live⟩
      ∧ live.capture.context.state = .idle ∧ (rendering live 0 (smallRender 0)).capture.context.state = .rendering
      ∧ j.control.announced .jobs = some ⟨.jobs, .shutting⟩ ∧ j.readyForEntry .jobs ∧ j.jobs.entries.length = 16
      ∧ (j.dropAnnouncement ⟨.jobs, .shutting⟩).upAfterJob
      ∧ j.jobPieceInProgress = true ∧ (j.jobs.entry 3).state = .running
      ∧ j.jobs.running.all (fun r => decide (r.stop = none ∧ r.pin = none ∧ r.entry = 3)) = true
      ∧ { j with engine.unit := none }.jobPieceInProgress = false
      ∧ (announcedTwo live .jobs .standby).jobs.running = none
      ∧ (announcedTwo live .jobs .live).control.announced .jobs = some ⟨.jobs, .live⟩ :=
  ⟨by decide, ready_of rfl (by decide), rfl, (staysUp_two _ _ _).1, rfl, by decide, rfl, rfl, by decide, ready_of rfl (by decide),
    by decide, (staysUp_two _ _ _).2, by decide, by decide, by decide, by decide, rfl, by decide⟩

theorem witness_EntriesReachTheFeeder :
    let s : State := { announcedTwo standby .feeder .shutting with
      feeder.request := some ⟨3, true⟩, engine.unit := some { work := .strip 3 true, parts := [] } }
    s.control.announced .feeder = some ⟨.feeder, .shutting⟩ ∧ s.feeder.layoutRead = .idle
      ∧ (s.dropAnnouncement ⟨.feeder, .shutting⟩).staysUp
      ∧ s.intake.slots.length = 5 ∧ s.capture.context.state ≠ .waitingPin ∧ s.feeder.request.isSome = true
      ∧ s.engine.unit.any (fun u => decide (u.work = .strip 3 true))
      ∧ { s with intake.slots := s.intake.slots.modify 4 fun x => { x with pinFreeze := true } }.intake.freezeSlot = some 4
      ∧ (announcedTwo standby .feeder .shutting).feeder.request = none ∧ (announcedTwo standby .feeder .shutting).engine.unit = none
      ∧ (announcedTwo standby .feeder .live).control.announced .feeder = some ⟨.feeder, .live⟩ :=
  ⟨by decide, rfl, .inl (.inr (.inl (by decide))), by decide, by decide, rfl, by decide, by decide, rfl, rfl, by decide⟩

theorem witness_PowerWarningsAndUnansweredWakesChangeTheMode :
    let s : State := { live with control.timerOn := true, control.timerWait := 5, control.timerCount := 5 }
    standby.control.mode = .standby ∧ booting.control.mode = .boot ∧ shutting.control.mode = .shutting
      ∧ s.control.mode = .live ∧ s.control.timerOn = true ∧ s.control.timerWait ≤ s.control.timerCount := by decide

theorem witness_ShutdownEndsInPowerdownAndSafe :
    let s := announced shutting .feeder .shutting
    let d : State := { shutting with
      feeder := { shutting.feeder with view := .standby, layoutRead := .error [], deferred := [.entry .shutting] } }
    s.control.mode = .shutting ∧ s.control.announcements = [⟨.feeder, .shutting⟩] ∧ s.capture.context.state = .idle
      ∧ s.jobs.running = none ∧ s.free .capture = true ∧ s.free .jobs = true ∧ s.feeder.layoutRead = .idle ∧ s.feeder.deferred = []
      ∧ (announced shutting .jobs .shutting).control.announcements = [⟨.jobs, .shutting⟩]
      ∧ (announced shutting .jobs .shutting).readyForEntry .jobs ∧ (announced shutting .jobs .shutting).roomFor 16
      ∧ d.control.mode = .shutting ∧ d.control.announcements = [] ∧ d.feeder.deferred = [.entry .shutting]
      ∧ d.feeder.layoutRead = .error [] ∧ d.capture.context.state = .idle ∧ d.jobs.running = none ∧ d.free .capture = true
      ∧ d.free .jobs = true ∧ d.roomFor 3
      ∧ { shutting with control.safeAfter := some 0 }.control.safeAfter = some 0 :=
  ⟨rfl, rfl, rfl, rfl, by decide, by decide, rfl, rfl, rfl, ready_of rfl (by decide), ⟨⟨rfl, rfl⟩, by decide⟩, rfl, rfl, rfl, rfl, rfl, rfl, by decide,
    by decide, ⟨⟨rfl, rfl⟩, by decide⟩, rfl⟩

theorem witness_RegistersReadAndWrite :
    (Instr.registerWriteOther .id 5#32).wellFormed = true ∧ State.reset.control.mode = .reset ∧ live.control.mode ≠ .reset
      ∧ booting.control.mode = .boot ∧ live.control.mode ≠ .boot
      ∧ { live with post.fifo := List.replicate 7 0#32 }.post.fifo.length < 8
      ∧ 8 ≤ { live with post.fifo := List.replicate 8 0#32 }.post.fifo.length := by decide

/-- The record queue full, or a wait before others. -/
def full (s : State) : State := { s with port.queue := List.replicate 32 (.write []) }
def waited (s : State) (n : Nat) (b : Block) (later : List Output) : State :=
  { s with
    engine.unit := some { work := .strip 0 false, parts := [] }
    port.queue := List.replicate n (.write []), port.blocked := [⟨[b], .read .setup 0x200 []⟩], port.later := later }

theorem witness_ThePostPortRefusesWords :
    Asks live 13 5 ∧ Asks live 0 5
      ∧ Asks standby 5 0 ∧ (5, Instr.captureNow) ∈ knownWords
      ∧ Asks shutting 12 0 ∧ (12, Instr.clearInstability) ∈ knownWords
      ∧ Asks live 3 256
      ∧ 255 < postArgument (BitVec.ofNat 32 (16777216 * 3 + 256)) ∧ Asks live 11 64
      ∧ 63 < postArgument (BitVec.ofNat 32 (16777216 * 11 + 64))
      ∧ (State.posted (waited live 0 .capture []) 3 256).offersWord 3 (BitVec.ofNat 32 (16777216 * 3 + 256)) []
      ∧ (waited live 0 .capture []).ownersFree 3 = false :=
  ⟨holds live 13 5 rfl (by decide), holds live 0 5 rfl (by decide), holds standby 5 0 rfl (by decide), by decide,
    holds shutting 12 0 rfl (by decide), by decide, holds live 3 256 rfl (by decide), by decide, holds live 11 64 rfl (by decide),
    by decide, ⟨rfl, by decide, rfl, by decide⟩, by decide⟩

theorem witness_SetupAndLayoutWordsAreTaken :
    (standby.control.mode = .standby ∨ standby.control.mode = .live) ∧ Asks standby 1 0
      ∧ Asks live 2 0 ∧ (State.posted live 2 0).feeder.layoutRead = .idle
      ∧ { State.posted live 2 0 with feeder.layoutRead := .waiting }.feeder.layoutRead ≠ .idle :=
  ⟨.inl rfl, holds standby 1 0 rfl (by decide), holds live 2 0 rfl (by decide), rfl, by decide⟩

/-- The setup record has been read. -/
def setupGot (s : State) (bytes : List Byte) : State :=
  { s with post.setupRead := .got bytes, post.handMode := s.control.mode }

theorem witness_ASetupIsTakenOrRefused :
    let s := setupGot live (setupBytes 9 3264 64 1)
    s.post.setupRead = .got (setupBytes 9 3264 64 1) ∧ s.post.holdoffDue = false ∧ s.free .post = true
      ∧ { s with post.holdoffDue := true }.post.holdoffDue = true ∧ { s with post.setupRead := .error [] }.post.setupRead = .error []
      ∧ s.post.fill < s.post.setup.queueSize ∧ s.post.setup.queueSize ≤ { s with post.fill := 64 }.post.fill ∧ s.roomFor 2
      ∧ s.setupFailure (parseSetup (setupBytes 9 3264 64 1)) = none
      ∧ s.setupFailure (parseSetup (setupBytes 9 3265 64 1)) = some 1
      ∧ s.setupFailure (parseSetup (setupBytes 9 3264 64 0)) = some 4
      ∧ s.setupFailure (parseSetup (setupBytes 9 3264 32 1)) = some 5
      ∧ (setupGot standby []).setupFailure (parseSetup (setupBytes 9 3264 32 1)) = none
      ∧ { setupGot standby [] with post.fill := 1 }.setupFailure (parseSetup (setupBytes 9 3264 32 1)) = some 6
      ∧ s.roomFor 3 ∧ (parseSetup (setupBytes 9 3264 64 1)).watermark ≤ s.post.fill + 1
      ∧ ¬ (parseSetup (setupBytes 9 3264 64 8)).watermark ≤ s.post.fill + 1
      ∧ (parseSetup (setupBytes 9 3264 64 8)).watermark ≤ { s with post.fill := 64, post.unsignalled := 64 }.post.fill
      ∧ { s with post.fill := 64, post.unsignalled := 64 }.post.unsignalled ≠ 0
      ∧ (parseSetup ((setupBytes 9 3264 64 8).set 0x20 63#8)).holdoff = 63 ∧ (parseSetup (setupBytes 9 3264 64 8)).holdoff = 0 :=
  ⟨rfl, rfl, by decide, rfl, rfl, by decide, by decide, ⟨⟨rfl, rfl⟩, by decide⟩, by decide, by decide, by decide, by decide, by decide, by decide,
    ⟨⟨rfl, rfl⟩, by decide⟩, by decide, by decide, by decide, by decide, by decide, by decide⟩

/-- An event waits, and behind it one that another block raised in the same step, with this fill level. -/
def raisedAt (kind : EventKind) (fill : Nat) : State :=
  { live with post := { live.post with
      raised := [⟨.feeder, .displayDegraded, 0, 1, 2, 6, false⟩, ⟨.mode, kind, 0, 1, 2, 6, true⟩], fill := fill } }

theorem witness_AnEventIsWrittenOrLost :
    let s := raisedAt .powerSafe 63
    s.post.raised[1]? = some ⟨.mode, .powerSafe, 0, 1, 2, 6, true⟩ ∧ eligible s.post.raised 1 = true ∧ eligible s.post.raised 0 = true
      ∧ s.free .post = true ∧ s.post.holdoffDue = false ∧ { s with post.holdoffDue := true }.post.holdoffDue = true
      ∧ s.post.fill < s.post.setup.queueSize ∧ s.roomFor 2 ∧ (raisedAt .modeChanged 64).post.setup.queueSize ≤ (raisedAt .modeChanged 64).post.fill :=
  ⟨rfl, by decide, by decide, by decide, rfl, rfl, by decide, ⟨⟨rfl, rfl⟩, by decide⟩, by decide⟩

/-- Four events wait from position 62 of a ring of 64. -/
def acked (argument : Nat) : State :=
  { State.posted standby 10 argument with post.get := 62, post.fill := 4, post.put := 2 }

theorem acked_queueOk (a : Nat) : (acked a).queueOk :=
  ⟨(by decide : 0 < 64), (by decide : 62 < 64), (by decide : 4 ≤ 64), (by decide : 2 = (62 + 4) % 64)⟩

theorem witness_AcknowledgementsAndHoldoffExpiries :
    (acked 1).control.mode = .standby ∧ postArgument (BitVec.ofNat 32 (16777216 * 10 + 1)) ≤ 255 ∧ (acked 1).queueOk
      ∧ (acked 1).post.holdoffDue = false
      ∧ 3 < (acked 1).post.fill
      ∧ postArgument (BitVec.ofNat 32 (16777216 * 10 + 1)) = ((acked 1).post.get + 3) % (acked 1).post.setup.queueSize
      ∧ (∀ i, i < (acked 2).post.fill →
          postArgument (BitVec.ofNat 32 (16777216 * 10 + 2)) ≠ ((acked 2).post.get + i) % (acked 2).post.setup.queueSize)
      ∧ { live with post.holdoffDue := true }.post.holdoffDue = true ∧ live.free .post = true := by
  refine ⟨rfl, by decide, acked_queueOk 1, rfl, by decide, by decide, ?_, rfl, by decide⟩
  decide

theorem witness_HostAccessesReachTheBridge :
    live.port.bridge = none ∧ booting.control.mode = .boot ∧ live.control.mode ≠ .reset ∧ live.control.mode ≠ .boot
      ∧ 0x10000000 ≤ (0x10000003#32).toNat - (0x10000003#32).toNat % 4
      ∧ (0x0FFFFFFF#32).toNat - (0x0FFFFFFF#32).toNat % 4 < 0x10000000
      ∧ (0x1FF#32).toNat - (0x1FF#32).toNat % 4 < 0x200 ∧ ¬ (0x200#32).toNat - (0x200#32).toNat % 4 < 0x200 := by decide

/-- A grant in progress, with what its requester has to move. -/
def granted (s : State) (q : Requester) : State := { s with port.grant := some ⟨q, 0, 8⟩, port.last := some q }

theorem witness_HostTransfersAreMade :
    let r := { granted live .host with port.bridge := some (.read 0x20000) }
    let bad := { granted live .host with port.bridge := some (.read 0x20000), port.bad := [0x8000] }
    let w := { granted live .host with port.bridge := some (.write 0x0FFFFFFC 0x11223344#32 5#4) }
    r.port.grant = some ⟨.host, 0, 8⟩ ∧ r.port.bridge = some (.read 0x20000) ∧ 0x20000 % 4 = 0 ∧ r.cleanWords 0x20000 4
      ∧ 0x20000 / 4 ∈ bad.port.bad ∧ bad.port.bridge = some (.read 0x20000)
      ∧ w.port.bridge = some (.write 0x0FFFFFFC 0x11223344#32 5#4) ∧ 0x0FFFFFFC + 4 ≤ 0x10000000 ∧ w.memoryOk
      ∧ w.cleanWords 0x0FFFFFFC 4 :=
  ⟨rfl, rfl, rfl, cleanWords_of rfl rfl, by decide, rfl, rfl, by decide, rfl, cleanWords_of rfl rfl⟩

theorem witness_RecordsArePerformedInOrder :
    let w := { granted live .record with port.queue := [.write [(4096, [1#8, 2#8]), (4098, [3#8])]] }
    let r := { granted live .record with port.queue := [.read .control 0x600 []] }
    w.port.grant = some ⟨.record, 0, 8⟩ ∧ w.port.queue = .write ((4096, [1#8, 2#8]) :: [(4098, [3#8])]) :: []
      ∧ 4096 + [1#8, 2#8].length ≤ 0x10000000 ∧ w.memoryOk ∧ w.cleanWords 4096 2
      ∧ r.port.queue = .read .control 0x600 [] :: [] ∧ 0x600 % 4 = 0 ∧ r.cleanWords 0x600 4
      ∧ live.port.grant = none ∧ (∀ q, live.waits q = false) ∧ live.noneWait ∧ live.port.boot ≠ .clearing :=
  ⟨rfl, rfl, by decide, rfl, cleanWords_of rfl rfl, rfl, rfl, cleanWords_of rfl rfl, rfl, by intro q; cases q <;> rfl, ⟨rfl, rfl⟩,
    by decide⟩

/-- The first burst of a setup record, the last of it, a layout record of one pane and of none, and a descriptor at the top of shared
memory; then the first with the second of its words bad. -/
theorem witness_RecordsArePerformedInOrder_reads :
    let reading (reader : Reader) (addr : Nat) (got : List Byte) : State :=
      { granted live .record with port.queue := [.read reader addr got] }
    (reading .setup 0x200 []).port.queue = .read .setup 0x200 [] :: [] ∧ (reading .setup 0x200 []).cleanWords 0x200 64
      ∧ (zeros 448).length < 512 ∧ (zeros 448).length + min (64 - (0x200 + 448) % 64) (512 - 448) = 512
      ∧ ([] : List Byte).length < 16 ∧ (layoutBytes 1 0 0 640).length < 16 + 32 * 5 ∧ (zeros 16).length = 16 + 32 * min 4 0
      ∧ (reading .descriptor 0xFFFFFE0 []).cleanWords 0xFFFFFE0 32 ∧ min (64 - 0xFFFFFE0 % 64) 32 = 32
      ∧ 0x81 ∈ { reading .setup 0x200 [] with port.bad := [0x81] }.port.bad ∧ 0x200 / 4 ≤ 0x81 ∧ 4 * 0x81 < 0x200 + 64
      ∧ ∀ x, 0x200 / 4 ≤ x → x < 0x81 → x ∉ [0x81] :=
  ⟨rfl, cleanWords_of rfl rfl, by decide +kernel, by decide +kernel, by decide, by decide +kernel, by decide, cleanWords_of rfl rfl,
    by decide, by decide, by decide, by decide, fun x _ h => by simp; omega⟩

theorem witness_BlocksWaitForRoom :
    let f := { full live with monitor.index := live.monitor.index.set 63 { state := .valid } }
    let e := full (raisedAt .modeChanged 63)
    let w := waited live 31 .monitor [⟨.monitor, .op .monitor (.write [])⟩]
    Asks f 11 63 ∧ (f.monitor.entry 63).state = .valid ∧ 32 ≤ f.port.queue.length
      ∧ e.post.raised.length = 2 ∧ e.free .post = true ∧ e.post.holdoffDue = false ∧ e.post.fill < e.post.setup.queueSize
      ∧ 32 ≤ e.port.queue.length ∧ w.free .monitor = false ∧ (waited live 0 .capture []).free .capture = false
      ∧ (waited live 0 .jobs []).free .jobs = false ∧ (waited live 0 .intake []).free .intake = false
      ∧ (waited live 0 .post []).free .post = false
      ∧ w.port.blocked.length = 1 ∧ w.port.queue.length < 32 ∧ w.engine.unit.isSome = true ∧ w.control.mode ≠ .shutting :=
  ⟨holds _ 11 63 rfl (by decide), by decide, by decide, rfl, by decide, rfl, by decide, by decide, by decide, by decide, by decide,
      by decide,
    by decide, rfl, by decide, rfl, by decide⟩

/-- A word that its owner has not acted on, in hand; the owner that waits, and the owner that waits no longer. -/
theorem witness_BlocksWaitForRoom_inHand :
    let w := waited live 0 .capture []
    let word := BitVec.ofNat 32 (16777216 * 3 + 255)
    let h (s : State) : State := { s with post.inHand := some word, capture.running := true }
    (3, Instr.captureCredit) ∈ knownWords ∧ (State.posted w 3 255).offersWord 3 word [] ∧ w.free .capture = false
      ∧ wordPasses 3 w.control.mode (postArgument word) ∧ wordPasses 3 .standby 1 ∧ wordPasses 5 .live 0
      ∧ (h w).keepsWord word ∧ postKind word = 3 ∧ (h w).free .capture = false
      ∧ (h live).keepsWord word ∧ (h live).free .capture = true ∧ (h live).free .post = true ∧ (h live).control.timerOn = false
      ∧ (h live).capture.running = true ∧ (h live).capture.slotWaiting = false
      ∧ { h live with post.setupRead := .waiting }.post.inHand ≠ none
      ∧ ∀ x, ¬ { h live with post.setupRead := .waiting }.keepsWord x :=
  ⟨by decide, ⟨rfl, by decide, rfl, by decide⟩, by decide, by unfold wordPasses; decide, by unfold wordPasses; decide,
    by unfold wordPasses; decide, ⟨rfl, rfl, rfl⟩, by decide, by decide, ⟨rfl, rfl, rfl⟩, by decide, by decide, rfl, rfl, rfl,
    by decide, fun x hx => by cases hx.2.1⟩

/-- What waits behind a waiting block: nothing that can go on, an event, a cause, an operation; and a second waiting block. A full index,
whose eviction a waiting job runner asks for. -/
theorem witness_BlocksWaitForRoom_later :
    let one (l : List Output) := waited live 31 .jobs l
    let two (l : List Output) : State :=
      { one l with port.blocked := [⟨[.jobs], .read .setup 0x200 []⟩, ⟨[.monitor], .write []⟩] }
    let i := fullIndex { one [] with intake.frameNumber := 7 }
    (one []).port.later = [] ∧ (one []).port.blocked = ⟨[.jobs], .read .setup 0x200 []⟩ :: []
      ∧ (∀ o ∈ [(⟨.monitor, .cause .eventsReady⟩ : Output)], ∃ x ∈ [(⟨[.monitor], .write []⟩ : Wait)], o.actor ∈ x.blocks)
      ∧ (two []).port.blocked = ⟨[.jobs], .read .setup 0x200 []⟩ :: [⟨[.monitor], .write []⟩]
      ∧ (∀ x ∈ [(⟨[.monitor], .write []⟩ : Wait)], Block.jobs ∉ x.blocks)
      ∧ (one [⟨.jobs, .event .jobEnd 1 2 3⟩]).port.later = [⟨.jobs, .event .jobEnd 1 2 3⟩]
      ∧ (one [⟨.post, .cause .eventsReady⟩]).port.later = [⟨.post, .cause .eventsReady⟩]
      ∧ (two [⟨.jobs, .op .jobs (.write [])⟩]).port.later = [⟨.jobs, .op .jobs (.write [])⟩]
      ∧ (waited live 30 .jobs []).port.queue.length + 2 ≤ 32 ∧ (one []).port.queue.length = 31
      ∧ i.free .jobs = false ∧ i.free .monitor = true ∧ (∀ x ∈ i.monitor.index, x.state ≠ .empty)
      ∧ evictionChoice i.intake.frameNumber i.monitor.index = some 63 := by decide +kernel

/-- R34: a signature is the last output that finds room in the queue; the index entry of a waiting job runner then has to wait, the
monitor with it, so that a PAGE_FORGET of that entry stays in hand and cannot reach memory first; INDEX_EVICT comes behind the
overwrite (R36). -/
theorem test_an_entry_written_for_a_waiting_job_keeps_its_place :
    let s := waited { fullIndex live with capture.lessonOpen := true, capture.counter := 5, intake.frameNumber := 7 } 32 .jobs []
    let t := (s.signatureInsert 5 0#384 0x300000).1
    let f := after .pageForget (State.posted t 11 63)
    t.port.later.map (fun o => (o.actor, match o.sent with | .event k .. => some k | _ => none))
        = [(.jobs, none), (.monitor, some .indexEvict)]
      ∧ t.post.raised = [] ∧ t.free .monitor = false ∧ (t.monitor.entry 63).page = 5
      ∧ f.post.fifo = [] ∧ f.post.inHand = some 0x0B00003F#32 ∧ f.monitor.index = t.monitor.index := by decide +kernel

/-- "Blocks That Wait" by the rule itself (R155): an index entry's state waits at a full queue, and the admission brings it to the
queue. -/
theorem test_waiting_block_is_admitted :
    let f := { full live with monitor.index := live.monitor.index.set 63 { state := .valid } }
    let t := after .pageForget (State.posted f 11 63)
    t.free .monitor = false ∧ t.port.queue.length = 32
      ∧ (after .recordQueueAdmit { t with port.queue := t.port.queue.tail }).free .monitor = true := by decide +kernel

/-- R168, by its own words: a word that passes is in hand until its owner has answered, with mode control told of it; one that fails a check
is refused at once. -/
theorem test_a_word_waits_in_hand_for_its_owner :
    let s := { waited live 31 .capture [] with capture.running := true, control.timerOn := true }
    let t := after .captureCredit (State.posted s 3 7)
    t.post.fifo = [] ∧ t.post.inHand = some 0x03000007#32 ∧ t.control.timerOn = false ∧ t.capture.credit = 0
      ∧ leaves .captureCredit t = true ∧ leaves .lessonBegin { t with post.fifo := [0x06000000#32] } = true
      ∧ (after .captureCredit (State.posted s 3 0)).post.raised.map (fun e => (e.kind, e.small)) = [(.postRefused, 3)]
      ∧ (after .captureCredit (State.posted { s with control.mode := .shutting } 3 7)).post.raised.map (fun e => (e.kind, e.small))
          = [(.postRefused, 2)] := by decide +kernel

/-- R168: a word taken before the entry to SHUTTING acts under the old mode. -/
theorem test_a_word_in_hand_acts_ahead_of_the_entry :
    let t := after .captureCredit (State.posted { waited live 0 .capture [] with capture.running := true } 3 7)
    let u := after .recordQueueAdmit (after .powerWarn t)
    let v := after .captureCredit u
    u.control.mode = .shutting ∧ u.free .capture = true ∧ leaves (.modeEntry .capture) u = true
      ∧ v.capture.credit = 7 ∧ v.post.inHand = none ∧ v.post.raised = u.post.raised
      ∧ (after (.modeEntry .capture) v).capture.view = .shutting := by decide +kernel

theorem witness_GrantsFollowTheArbiter :
    let s := { live with port.queue := [.write []], port.pass := { live.port.pass with record := 4 } }
    let g : Grant := ⟨.record, 7, 8⟩
    s.port.grant = none ∧ s.arbitrate = some .record ∧ s.waits .record = true ∧ s.urgent .record = true
      ∧ s.control.mode ≠ .reset ∧ s.port.boot ≠ .clearing
      ∧ { live with port.queue := [.write []] }.urgent .record = false
      ∧ { s with port.grant := some g }.port.grant = some g ∧ g.bursts < g.limit ∧ g.limit = 8
      ∧ (⟨.record, 15, 16⟩ : Grant).bursts < (⟨.record, 15, 16⟩ : Grant).limit := by decide

/-- A read burst of a strip's unit, with the bytes in place; a word of it bad. -/
def stripUnit : EngineUnit := { work := .strip 0 false, parts := [(⟨0, 0, 16, 8, smallRender 0⟩ : LatchedPane).part {} 0] }
def readBurst : EngineBurst := ⟨false, 0x200000, 4⟩
def engineState : State := { granted live .engine with engine.unit := some stripUnit }

/-- A slot's first 64 luma bytes in the buffer. -/
def buffered : State :=
  { granted (receiving live) .intake with
    intake.target := .slot 4, intake.buffer := (List.range 64).map fun i => ⟨false, false, i, 7#8⟩ }

theorem witness_EngineAndIntakeBurstsAreMade :
    let q : EngineUnit := { work := .jobPiece 0, parts := [pieceOf (smallRender 0x300000) {} 0] }
    let p : EngineUnit := { q with fetched := (List.range 512).map fun i => (0x200000 + i, 0#8) }
    let w := { granted live .engine with engine.unit := some p }
    engineState.port.grant = some ⟨.engine, 0, 8⟩ ∧ engineState.engine.unit = some stripUnit ∧ readBurst.write = false
      ∧ stripUnit.moves readBurst = true ∧ engineState.cleanWords readBurst.addr readBurst.len
      ∧ 0x80000 ∈ { engineState with port.bad := [0x80000] }.port.bad ∧ readBurst.addr / 4 ≤ 0x80000
      ∧ 4 * 0x80000 < readBurst.addr + readBurst.len ∧ engineState.control.mode ≠ .shutting
      ∧ w.port.grant = some ⟨.engine, 0, 8⟩ ∧ p.moves ⟨true, 0x300000, 16⟩ = true ∧ w.memoryOk ∧ w.cleanWords 0x300000 16
      ∧ (smallRender 0x300000).inside 4 0 = true ∧ 0x200000 ∈ (smallRender 0x300000).lumaReads 4 0
      ∧ 0x200100 ∈ (smallRender 0x300000).chromaReads 4 0 ∧ (∀ c ∈ q.fetched, c.1 ≠ 0x200000)
      ∧ ({ smallRender 0x300000 with gain := 1 }.inside 5 1 = true ∧ { smallRender 0x300000 with gain := 1 }.gain ≠ 0)
      ∧ buffered.port.grant = some ⟨.intake, 0, 8⟩
      ∧ buffered.intake.nextBurst = some (slotAddr 4, buffered.intake.buffer)
      ∧ slotAddr 4 + buffered.intake.buffer.length ≤ 0x10000000 ∧ buffered.memoryOk
      ∧ buffered.cleanWords (slotAddr 4) buffered.intake.buffer.length :=
  ⟨rfl, rfl, rfl, by decide, cleanWords_of rfl rfl, by decide, by decide, by decide, by decide, rfl, by decide +kernel, rfl,
    cleanWords_of rfl rfl, by decide, by decide, by decide, fun _ h => absurd h List.not_mem_nil, by decide, rfl, by decide, by decide,
    rfl, cleanWords_of rfl rfl⟩

/-- R65: a piece's bytes are not written before the source bytes they are computed from have been read. -/
theorem test_no_write_burst_ahead_of_its_reads :
    let u : EngineUnit := { work := .jobPiece 0, parts := [pieceOf (smallRender 0x300000) {} 0] }
    leaves (.memoryBurstComplete [] ⟨true, 0x300000, 16⟩) { granted live .engine with engine.unit := some u } = true := by decide +kernel

/-- A strip's unit reads under the grant, its request outstanding in a frame of LIVE; its first word is bad. -/
def cutOffDue : State :=
  { engineState with
    feeder := { live.feeder with liveFrame := true, request := some ⟨0, false⟩ }, port.bad := [0x80000], port.weak := [0x80001] }

theorem witness_MemoryErrorsAreCountedAndReported :
    let h := { granted live .host with port.bridge := some (.write 0x0FFFFFFC 0x11223344#32 5#4), port.bad := [0x3FFFFFF] }
    let k := { granted live .record with port.queue := [.write [(0x0FFFFFFF, [1#8])]], port.bad := [0x3FFFFFF] }
    let c := { granted live .record with port.queue := [.read .control 0x600 []], port.weak := [0x180] }
    let f := cutOffDue
    let o := { granted live .host with
      port.bridge := some (.read 0x600), engine := { cutOff := some stripUnit }, port.bad := [0x80000] }
    h.port.grant = some ⟨.host, 0, 8⟩ ∧ 0x0FFFFFFC % 4 = 0 ∧ 0x0FFFFFFC + 4 ≤ 0x10000000 ∧ h.memoryOk ∧ (5#4 : BitVec 4) ≠ 0#4
      ∧ (5#4 : BitVec 4) ≠ 15#4 ∧ 0x0FFFFFFC / 4 ∈ h.port.bad ∧ { h with port.bad := [], port.weak := [0x3FFFFFF] }.port.weak = [0x3FFFFFF]
      ∧ k.port.grant = some ⟨.record, 0, 8⟩ ∧ 0x0FFFFFFF < 0x10000000 ∧ 0x0FFFFFFF / 4 ∈ k.port.bad ∧ k.memoryOk
      ∧ c.port.queue = .read .control 0x600 [] :: [] ∧ 0x600 / 4 ∈ c.port.weak ∧ 0x600 / 4 ∉ c.port.bad
      ∧ { c with port.bad := [0x180] }.port.bad = [0x180]
      ∧ { granted live .host with port.bridge := some (.read 0x600), port.weak := [0x180] }.port.bridge = some (.read 0x600)
      ∧ f.feeder.rasterOn = true ∧ f.feeder.layoutRead = .idle ∧ f.feeder.view = .live ∧ f.feeder.liveFrame = true
      ∧ f.feeder.request = some ⟨0, false⟩ ∧ f.engine.unit = some stripUnit ∧ stripUnit.work = .strip 0 false
      ∧ f.port.grant = some ⟨.engine, 0, 8⟩ ∧ f.feeder.nextStrip = 0 ∧ 0 + 1 < 135
      ∧ { f with feeder.nextStrip := 134 }.feeder.nextStrip + 1 = 135 ∧ k.noneWait
      ∧ o.engine.cutOff = some stripUnit ∧ stripUnit.moves ⟨false, 0x200000, 16⟩ = true ∧ 0x80000 ∈ o.port.bad
      ∧ 0x200000 / 4 ≤ 0x80000 ∧ 4 * 0x80000 < 0x200000 + 16 ∧ o.port.grant = some ⟨.host, 0, 8⟩
      ∧ o.port.bridge = some (.read 0x600) ∧ o.cleanWords 0x600 4 ∧ { o with port.grant := none }.port.grant = none :=
  ⟨rfl, rfl, by decide, rfl, by decide, by decide, by decide, rfl, rfl, by decide, by decide, rfl, rfl, by decide, by decide, rfl,
      rfl, rfl, rfl,
    rfl, rfl, rfl, rfl, rfl, rfl, rfl, by decide, rfl, ⟨rfl, rfl⟩, rfl, by decide, by decide, by decide, by decide, rfl, rfl,
    fun w h1 h2 => by
      have : w = 0x180 := by omega
      subst this; decide, rfl⟩

/-- R99, R102: the strip underruns while the engine reads for it: no error is counted, and its read stays at the DRAM. -/
theorem test_underrun_leaves_the_read :
    let t := after (.stripScanoutStart 0) cutOffDue
    (t.feeder.underruns, t.feeder.faults, t.port.uncorrectable, t.engine.cutOff) = (1, 0, 0, some stripUnit) := by decide +kernel

/-- R102: that read meets a bad word: the memory port reports it, and no strip is faulted. -/
theorem test_late_read_is_reported :
    let t := after (.memoryBurstComplete [.cutOff 0x200000 16] ⟨false, 0, 64⟩)
      { cutOffDue with engine := { cutOff := some stripUnit }, port.grant := none }
    (t.feeder.faults, t.port.uncorrectable, t.port.correctable, t.post.cause, t.engine.cutOff) = (0, 1, 0, 32#6, none) := by
  decide +kernel

theorem witness_FrameStartsBeginFrames :
    shutting.intake.state = .stopped ∧ standby.intake.state = .waiting ∧ standby.intake.view = .standby
      ∧ live.intake.view = .live ∧ fillingLast.intake.pendingFrame = some ⟨3, ⟨640, 480⟩, [], false⟩
      ∧ { fillingLast with intake.state := .discarding }.intake.state = .discarding
      ∧ (withNewest live 0).intake.pendingFrame = none ∧ (withNewest live 0).intake.slots.length = 5
      ∧ (withNewest live 0).intake.fillable 1 = true ∧ (∀ m, m < 1 → (withNewest live 0).intake.fillable m = false) := by decide

/-- Newest, held and two pinned: slot 4 alone is left. -/
def crowded : Intake :=
  { live.intake with
    newest := some 0, hold := some 1
    slots := [{}, {}, { pinFreeze := true }, { pinJob := true }, {}] }

theorem witness_FrameStartsBeginFrames_fillable :
    crowded.slots.length = 5 ∧ (∀ n, n < 5 → (crowded.slot n).fill ≠ .filling)
      ∧ (crowded.slots.filter fun x => x.pinFreeze || x.pinCapture || x.pinJob).length ≤ 2 ∧ crowded.choice = some 4 := by decide +kernel

theorem witness_LinesAndComponentsAreTaken :
    let s := receiving live
    let o : State := { s with intake.lineOpen := true, intake.lineCount := 1279, intake.linesDone := 479, intake.target := .slot 4 }
    s.intake.geometry = some ⟨640, 480⟩ ∧ live.intake.state ≠ .receiving ∧ s.intake.state = .receiving ∧ s.intake.lineOpen = false
      ∧ 479 < 480 ∧ o.intake.state = .receiving ∧ o.intake.lineOpen = true ∧ o.intake.lineCount < 2 * 640
      ∧ o.intake.sums.length = 192 ∧ o.intake.buffer.length < 8192
      ∧ { o with intake.lineCount := 1280 }.intake.lineCount = 2 * 640 := by decide +kernel

theorem witness_BadFramesAreCountedAndDiscarded :
    let s := { receiving live with intake.linesDone := 480, intake.lineOpen := true, intake.lineCount := 1280, intake.instability := 31 }
    let f := { s with intake.target := .slot 4, intake.lineCount := 0, intake.buffer := List.replicate 8192 ⟨false, false, 0, 0#8⟩ }
    s.intake.geometry = some ⟨640, 480⟩ ∧ s.intake.state = .receiving ∧ s.intake.linesDone = 480 ∧ s.intake.lineOpen = true
      ∧ s.intake.lineCount = 2 * 640 ∧ f.intake.lineCount ≠ 2 * 640 ∧ f.intake.lineCount < 2 * 640 ∧ f.intake.target ≠ .standby
      ∧ 8192 ≤ f.intake.buffer.length ∧ { s with intake.linesDone := 479 }.intake.linesDone ≠ 480
      ∧ { s with intake.view := .standby }.intake.view = .standby ∧ s.intake.view = .live
      ∧ fillingLast.intake.pendingFrame = some ⟨3, ⟨640, 480⟩, [], false⟩ ∧ fillingLast.intake.view = .live
      ∧ (let n := { withNewest (receiving live) 0 with intake.target := .slot 1 }
        n.intake.pendingFrame = none ∧ n.intake.slots.length = 5 ∧ n.intake.newest = some 0 ∧ n.intake.target = .slot 1
          ∧ (n.intake.slot 1).pinned = false)
      ∧ Asks live 12 0 := by
  refine ⟨rfl, rfl, rfl, rfl, rfl, by decide, by decide, by decide, ?_, by decide, rfl, rfl, rfl, rfl, by decide,
    holds live 12 0 rfl (by decide)⟩
  exact Nat.le_of_eq List.length_replicate.symm

/-- A frame pending from slot 3, while another waits for its slot; slot 0 is newest until the acceptance. -/
def deferring : State :=
  { withNewest (receiving live) 0 with
    intake.pendingFrame := some ⟨3, ⟨640, 480⟩, flat 5, false⟩, intake.target := .deferred, intake.hold := some 1 }

theorem witness_CompleteFramesAreAccepted :
    let s := { receiving live with intake.linesDone := 480 }
    s.intake.geometry = some ⟨640, 480⟩ ∧ s.intake.state = .receiving ∧ s.intake.linesDone = 480 ∧ s.intake.lineOpen = false
      ∧ s.intake.target = .standby ∧ { s with intake.target := .slot 4 }.intake.target = .slot 4
      ∧ { s with intake.state := .discarding }.intake.state = .discarding
      ∧ deferring.intake.geometry = some ⟨640, 480⟩ ∧ deferring.intake.pendingFrame = some ⟨3, ⟨640, 480⟩, flat 5, false⟩
      ∧ (∀ b ∈ deferring.intake.buffer, b.ofPending = false) ∧ 3 < deferring.intake.slots.length
      ∧ { deferring with intake.target := .standby }.intake.target ≠ .deferred ∧ deferring.intake.target = .deferred
      ∧ deferring.intake.view = .live ∧ deferring.intake.slots.length = 5 ∧ deferring.intake.newest = some 0
      ∧ (let x := (deferring.intake.slots.modify 3 fun x => { x with fill := .complete }).getD 0 {}
        x.fill ≠ .filling ∧ some 3 ≠ some 0 ∧ deferring.intake.hold ≠ some 0 ∧ x.pinFreeze = false ∧ x.pinCapture = false
          ∧ x.pinJob = false)
      ∧ { deferring with intake.pendingFrame := some ⟨3, ⟨640, 480⟩, flat 5, true⟩ }.intake.hold = some 1 := by decide +kernel

/-- R7: as the deferred choice is made the predecessor has lost the newest mark: its slot, the lowest, is fillable. -/
theorem test_deferred_choice_takes_the_predecessor :
    let t := after .acceptance deferring
    (t.intake.newest, t.intake.target, (t.intake.slot 0).fill) = (some 3, .slot 0, .filling) := by decide +kernel

theorem witness_MeansLoadOrClassify :
    let f : TileStats := ⟨flat 100, 8, ⟨3264, 2448⟩⟩
    let s := arriving live (flat 100)
    s.intake.meansOut = f :: [] ∧ s.monitor.timeoutDue = false ∧ { s with monitor.previous := none }.monitor.previous = none
      ∧ (⟨640, 480⟩ : Geometry) ≠ f.geometry ∧ (arriving shutting (flat 100)).monitor.view = .shutting
      ∧ s.monitor.previous = some (flat 100, f.geometry) ∧ s.monitor.view ≠ .shutting ∧ s.monitor.view ≠ .powerdown
      ∧ s.free .monitor = true ∧ s.capture.context.state ≠ .waitingPin
      ∧ activeTiles s.post.setup (flat 100) (flat 112) = 192 ∧ activeTiles s.post.setup (flat 100) (flat 111) = 0
      ∧ ¬ (s.monitor.pageState = .settling ∧ s.post.setup.settleFrames ≤ s.monitor.stillRun) := by decide +kernel

/-- The frame that is STILL next, in LIVE with a lesson open: its means differ from the previous ones by less than the threshold. -/
def stillNext : State := { settling (arriving live (halves 95 105)) with capture.lessonOpen := true }

theorem still_at (s : State) (means : List Nat) (f : TileStats) (later : List TileStats) (hm : s.intake.meansOut = f :: later)
    (hd : s.monitor.timeoutDue = false) (hp : s.monitor.previous = some (means, f.geometry)) (hs : s.monitor.pageState = .settling)
    (hr : s.post.setup.settleFrames ≤ s.monitor.stillRun + 1)
    (hn : ((List.range 192).filter fun i => !s.post.setup.mask.getLsbD i && decide (s.post.setup.threshold ≤
      (f.means.getD i 0 - means.getD i 0) + (means.getD i 0 - f.means.getD i 0))).length = 0)
    (hq : 0 < s.post.setup.motionTiles) (hb : s.noneWait := by exact ⟨rfl, rfl⟩) : s.StillAt f later means := by
  refine ⟨hm, free_of hb _, hd, hp, ?_, ?_, .inl ⟨hs, hr⟩⟩
  · rw [hn]; exact hq
  · rw [hn]; exact Nat.zero_le _

theorem witness_AStillFrameInLiveSeesOrDecides :
    stillNext.StillAt ⟨halves 95 105, 8, ⟨3264, 2448⟩⟩ [] (flat 100) ∧ stillNext.monitor.view = .live ∧ (halves 95 105).length = 192
      ∧ stillNext.capture.lessonOpen = true ∧ stillNext.post.setup.autoCapture = true ∧ stillNext.intake.suspended = false
      ∧ lookup stillNext.post.setup 0#384 stillNext.monitor.index = none
      ∧ lookup stillNext.post.setup 0#384 [{}, { state := .valid }] = some (1, 0)
      ∧ stillNext.post.setup.mask.getLsbD 191 = false := by
  refine ⟨still_at _ _ _ _ rfl rfl rfl rfl (by decide) (by decide +kernel) (by decide), rfl, by decide +kernel, rfl, rfl, rfl,
      by decide +kernel,
    by decide +kernel, by decide⟩

theorem witness_PresenceWakesAndPatternsTimeOut :
    let s := settling (arriving standby (flat 100))
    s.StillAt ⟨flat 100, 8, ⟨3264, 2448⟩⟩ [] (flat 100) ∧ s.monitor.view = .standby ∧ s.control.mode = .standby
      ∧ { s with post.setup := { s.post.setup with autoWake := true } }.post.setup.autoWake = true ∧ s.post.setup.autoWake = false
      ∧ { s with monitor.timeoutDue := true }.monitor.timeoutDue = true ∧ s.free .monitor = true := by
  refine ⟨still_at _ _ _ _ rfl rfl rfl rfl (by decide) (by decide) (by decide), rfl, rfl, rfl, rfl, rfl, by decide⟩

theorem witness_PageForgetEmptiesAValidEntry :
    Asks live 11 63 ∧ postArgument (BitVec.ofNat 32 (16777216 * 11 + 63)) = 63 ∧ (live.monitor.entry 63).state ≠ .valid
      ∧ ({ live.monitor with index := live.monitor.index.set 63 { state := .valid } }.entry 63).state = .valid
      ∧ Asks live 11 64 ∧ 63 < postArgument (BitVec.ofNat 32 (16777216 * 11 + 64)) :=
  ⟨holds live 11 63 rfl (by decide), by decide, by decide, by decide, holds live 11 64 rfl (by decide), by decide⟩

theorem witness_SignaturesLookupsAndEvictions :
    (flat 255).length = 192 ∧ (∀ m ∈ flat 255, m ≤ 255) ∧ (⟨22, 231, true⟩ : Levels).black ≤ (⟨22, 231, true⟩ : Levels).white
      ∧ 191 < 192 ∧ lookup {} 0#384 [{ state := .provisional }] = some (0, 0) ∧ lookup {} 0#384 [] = none
      ∧ evictionChoice 0 [{ state := .valid }, { state := .valid }] = some 0 := by decide +kernel

/-- An AUTO decision on its way. -/
def deciding (s : State) (d : Decision) : State := { s with capture.decisions := [d], capture.lessonOpen := true }
def aDecision : Decision := { frame := 7, signature := 0#384, levels := {} }

/-- What DecisionTaken asks of the state, in its cases: the lowest EMPTY entry, a newest slot the pool grants, or none, and the chain. -/
theorem decision_witness (s : State) (hi : s.monitor.index = List.replicate 64 {}) :
    s.placeIs 0 ∧ headReadable 0x10000 ∧ headReadable 0xFFFFFE0 ∧ headReadable 0xFFFFE0 := by
  refine ⟨⟨?_, .inl ⟨?_, fun j h => absurd h (Nat.not_lt_zero j)⟩⟩, ?_, ?_, ?_⟩
  · rw [hi]; decide
  · unfold Monitor.entry; rw [hi]; decide
  all_goals unfold headReadable; decide

theorem eviction_witness (s : State) (hf : s.intake.frameNumber = 7) : (fullIndex s).placeIs 63 := by
  have hl : 63 < oneOlder.length := by decide +kernel
  have he : ∀ e ∈ oneOlder, e.state ≠ .empty := by decide +kernel
  have hc : evictionChoice 7 oneOlder = some 63 := by decide +kernel
  exact ⟨hl, .inr ⟨he, (congrArg (evictionChoice · oneOlder) hf).trans hc⟩⟩

theorem witness_CaptureDecisionsAreTakenOrMissed :
    let s := deciding (withNewest live 2) aDecision
    s.capture.decisions = aDecision :: [] ∧ s.free .capture = true
      ∧ aDecision.sawShutting = false ∧ aDecision.sawStandby = false ∧ aDecision.sawLesson = false ∧ s.capture.view = .live
      ∧ { aDecision with sawShutting := true }.sawShutting = true ∧ { aDecision with sawStandby := true }.sawStandby = true
      ∧ { aDecision with sawLesson := true }.sawLesson = true ∧ (deciding standby aDecision).capture.view = .standby
      ∧ (deciding shutting aDecision).capture.view = .shutting
      ∧ (deciding (waitingSlot live) aDecision).capture.context.state ≠ .idle ∧ s.capture.context.state = .idle
      ∧ (deciding standby aDecision).control.mode ≠ .live ∧ { s with capture.view := .standby }.control.mode = .live
      ∧ { s with capture.counter := 65535 }.capture.counter = 65535 ∧ s.capture.counter ≠ 65535
      ∧ s.intake.newest = some 2 ∧ s.intake.poolGrants 2 = true ∧ s.capture.running = false ∧ s.ops = []
      ∧ (deciding live aDecision).intake.newest = none ∧ { s with capture.running := true }.capture.credit = 0
      ∧ s.monitor.index = List.replicate 64 {} := by decide +kernel

/-- R110: with the part in LIVE and no entry taken since the means, a decision is taken also where the capture unit's own entry to LIVE is
still on its way. -/
theorem test_decision_ahead_of_the_entry_is_taken :
    (after .captureDecision { deciding (withNewest live 2) aDecision with capture.view := .standby, capture.running := true }).capture.context.state
      = .waitingSlot := by decide +kernel

/-- R115, R116: a decision whose head descriptor may not be read stops the chain, and the capture is missed. -/
theorem test_decision_with_an_unreadable_head :
    let t := after .captureDecision
      { deciding (withNewest live 2) aDecision with capture.running := true, capture.credit := 1, capture.head := 0x100021 }
    (t.capture.running, t.capture.credit, t.capture.context.state) = (false, 0, .idle)
      ∧ t.news = [(.capture, .chainFault, 1, 0x100021, 1), (.capture, .captureMissed, 6, 1, 0)]
      ∧ ¬ headReadable 0x100021 := by
  refine ⟨by decide +kernel, by decide +kernel, by unfold headReadable; decide⟩

theorem witness_CaptureNowDecides :
    let s := { withNewest live 2 with capture.lessonOpen := true }
    Asks live 5 0 ∧ live.capture.lessonOpen = false ∧ s.capture.lessonOpen = true ∧ s.intake.newest ≠ none
      ∧ { live with capture.lessonOpen := true }.intake.newest = none ∧ (waitingSlot live).capture.context.state ≠ .idle
      ∧ s.capture.context.state = .idle ∧ { s with capture.counter := 65535 }.capture.counter = 65535 ∧ s.capture.counter ≠ 65535
      ∧ s.intake.held = some ⟨flat 100, 7, ⟨3264, 2448⟩⟩ :=
  ⟨holds live 5 0 rfl (by decide), rfl, rfl, by decide, rfl, by decide, rfl, rfl, by decide, rfl⟩

theorem witness_CapturesThatWaitAreServedOrMissed :
    let s := { waitingSlot live with capture.slotWaiting := true, capture.slotExpired := true }
    let m := { arriving (waitingSlot live) (flat 112) with
      capture.context := { (waitingSlot live).capture.context with state := .waitingPin, pinned := none } }
    let u : EngineUnit := { work := .jobPiece 0, parts := [pieceOf (smallRender 0x300000) {} 0] }
    let j := { jobRunning m .live (.jobPiece 0) 1 (some 4) with
      intake.slots := [{}, { pinFreeze := true }, { fill := .complete }, {}, { pinJob := true }] }
    s.capture.slotWaiting = true ∧ s.capture.slotExpired = true ∧ s.capture.context.state = .waitingSlot
      ∧ s.capture.context.entry = some 0 ∧ s.noDescriptorRead ∧ s.free .capture = true
      ∧ m.intake.meansOut = [⟨flat 112, 8, ⟨3264, 2448⟩⟩] ∧ m.free .monitor = true ∧ m.monitor.timeoutDue = false
      ∧ m.monitor.previous = some (flat 100, ⟨3264, 2448⟩) ∧ m.monitor.view = .live ∧ m.capture.context.state = .waitingPin
      ∧ m.capture.context.entry = some 0 ∧ m.noDescriptorRead ∧ activeTiles m.post.setup (flat 100) (flat 112) = 192
      ∧ j.engine.unit = some u ∧ u.work = .jobPiece 0 ∧ j.cleanUnit u ∧ 3 < j.jobs.entries.length
      ∧ j.jobs.running.all (fun r => decide (r.entry = 3 ∧ r.stop = none ∧ r.total ≤ r.done + 1 ∧ r.pin = some 4)) = true
      ∧ (j.intake.slot 4).pinFreeze = false ∧ (j.intake.slot 4).pinCapture = false ∧ j.capture.context.state = .waitingPin
      ∧ j.intake.newest = some 2 ∧ j.capture.running = true ∧ 1 ≤ j.capture.credit ∧ headReadable j.capture.head
      ∧ ¬ headReadable 0x100021 ∧ j.noDescriptorRead ∧ j.capture.context.entry = some 0
      ∧ { j with capture.running := false }.noDescriptorRead ∧ j.upBesidesJobs :=
  ⟨rfl, rfl, rfl, rfl, noRead_of rfl, by decide, rfl, by decide, rfl, rfl, rfl, rfl, rfl, noRead_of rfl, by decide +kernel, rfl, rfl,
    cleanUnit_of rfl rfl, by decide, by decide, by decide, by decide, rfl, rfl, rfl, by decide, by unfold headReadable; decide,
        by unfold headReadable; decide, noRead_of rfl, rfl, noRead_of rfl,
    .inl (by decide)⟩

/-- The head descriptor has been read. -/
def descriptorGot (bytes : List Byte) (credit : Nat) : State :=
  { waitingSlot live with capture.read := .got bytes, capture.credit := credit }

theorem witness_DescriptorsAreTakenReturnedOrFaulted :
    let area := 2 * 3264 * 2448
    let s := descriptorGot (descriptorBytes 1 0x9000000 area 0x100020) 1
    s.capture.read = .got (descriptorBytes 1 0x9000000 area 0x100020) ∧ s.capture.context.state = .waitingSlot
      ∧ s.capture.context.entry = some 0 ∧ s.capture.context.pinned = some 2 ∧ (s.intake.slot 2).geometry = some ⟨3264, 2448⟩
      ∧ 1 ≤ s.capture.credit ∧ s.capture.running = true ∧ s.noDescriptorRead
      ∧ ofLe ((descriptorBytes 1 0 0 0).take 1) = 1 ∧ ofLe ((descriptorBytes 0 0 0 0).take 1) ≠ 1
      ∧ ofLe (((descriptorBytes 1 0x9000000 area 0x100020).drop 8).take 4) = area
      ∧ 0x9000000 + area ≤ 0x10000000 ∧ ¬ 0x700000 + area ≤ 0x1000000 ∧ ¬ 0x8800000 ≤ 0x700000
      ∧ ofLe (((descriptorBytes 1 0x9000000 (area - 1) 0x100020).drop 8).take 4) < area
      ∧ (descriptorGot (descriptorBytes 1 0 0 0) 2).capture.credit = 2 ∧ s.post.setup.captureW = 0
      ∧ { s with capture.read := .error [] }.capture.read = .error [] ∧ s.post.controlRead = .idle
      ∧ { s with post.controlRead := .got [] }.post.controlRead ≠ .idle ∧ ¬ headReadable 0x100021 :=
  ⟨rfl, rfl, rfl, rfl, by decide, by decide, rfl, noRead_of rfl, by decide, by decide, by decide, by decide, by decide, by decide,
    by decide, rfl, rfl, rfl, rfl, by decide, by unfold headReadable; decide⟩

/-- R155, R125: the control words stand in the queue ahead of the descriptor read, and their return has still to act: the descriptor is not
taken first. -/
theorem test_descriptor_waits_for_the_control_words :
    let s := { descriptorGot (descriptorBytes 1 0x9000000 1000 0x100020) 1 with post.controlRead := .got [0, 0, 16, 0] }
    leaves .descriptorReadDone s = true := by decide +kernel

theorem witness_CapturePiecesComplete :
    let r := smallRender 0x300000
    let r2 := { r with hp := 16 }
    let s := rendering live 0 r
    let u : EngineUnit := { work := .capturePiece 0, parts := [pieceOf r {} 0] }
    s.engine.unit = some u ∧ u.work = .capturePiece 0 ∧ s.cleanUnit u ∧ s.capture.context.render = some r
      ∧ s.capture.context.descriptor = some ⟨0x100000, 0x300000, 1000000, 0x100020⟩ ∧ s.capture.context.entry = some 0
      ∧ s.capture.context.state = .rendering ∧ s.upAfterCapture ∧ pieceCount r.wp r.hp ≤ s.capture.context.done + 1
      ∧ (rendering live 0 r2).capture.context.done + 1 < pieceCount r2.wp r2.hp ∧ 1 ≤ s.capture.credit ∧ s.noDescriptorRead :=
  ⟨rfl, rfl, cleanUnit_of rfl rfl, rfl, rfl, rfl, rfl, .inl (by decide), by decide, by decide, by decide, noRead_of rfl⟩

/-- A word of the piece's source goes bad, and another above it weak. -/
def withBad (s : State) : State := { granted s .engine with port.bad := [0x80004, 0x80002], port.weak := [0x80003, 0x80001] }

/-- The fault of a unit with the source of smallRender at its completion, and in a burst over the same words. -/
theorem faultsAt_witness (s : State) (u : EngineUnit) (c : Instr) (hu : s.engine.unit = some u)
    (hb : ∀ y ∈ [0x80004, 0x80002, 0x80003, 0x80001], u.needsWord y = true) (hm : u.moves ⟨false, 0x200000, 16⟩ = true) :
    (withBad s).faultsAt u c c 0x80002 1 ∧ (withBad s).faultsAt u c (.memoryBurstComplete [] ⟨false, 0x200000, 16⟩) 0x80002 1 := by
  have hn (x : Nat) (hx : x ∈ [0x80004, 0x80002, 0x80003, 0x80001]) : u.needsWord x = true := hb x hx
  have hw : (withBad s).port.weak = [0x80003, 0x80001] := rfl
  have hx : (0x80002 : Nat) ∈ (withBad s).port.bad := List.mem_cons_of_mem _ List.mem_cons_self
  refine ⟨⟨hx, hu, .inl ⟨rfl, hn _ (by decide), ?_, ?_⟩⟩,
    ⟨hx, hu, .inr ⟨_, ⟨.engine, 0, 8⟩, rfl, rfl, rfl, rfl, hm, by decide, by decide, ?_, by rw [hw]; decide⟩⟩⟩
  · intro y hy _
    obtain rfl | rfl : y = 0x80004 ∨ y = 0x80002 := by simpa [withBad] using hy
    all_goals decide
  · rw [hw]; simp [hn]
  · intro y h1 h2 hy
    obtain rfl | rfl : y = 0x80004 ∨ y = 0x80002 := by simpa [withBad] using hy
    all_goals omega

/-- A capture that waits for a pin beside a RENDER_LIVE job of entry 3 with its pin on slot 4: with its engine piece and a stop pending, with
a faulted piece, and held back between pieces, at a JOB_CANCEL and at the entries to a mode; entries 1 and 5 are PENDING. -/
def liveJob (stop : Option Nat) : State :=
  let s := { jobRunning (waitingSlot live) .live (.jobPiece 0) 9 (some 4) with
    intake.slots := [{}, { pinFreeze := true }, { fill := .complete }, {}, { pinJob := true }] }
  { s with
    capture.context := { s.capture.context with state := .waitingPin, pinned := none }
    jobs.entries := (s.jobs.entries.set 1 { state := .pending }).set 5 { state := .pending }
    jobs.running := s.jobs.running.map fun r => { r with stop := stop } }

theorem witness_CapturesThatWaitAreServedOrMissed_ends :
    let s := liveJob (some 10)
    let u : EngineUnit := { work := .jobPiece 0, parts := [pieceOf (smallRender 0x300000) {} 0] }
    let i := { liveJob none with engine.unit := none }
    let e (m : Mode) : State := announcedTwo i .jobs m
    s.engine.unit = some u ∧ s.cleanUnit u ∧ s.jobs.running.all (fun j => decide (j.entry = 3 ∧ j.stop = some 10 ∧ j.pin = some 4)) = true
      ∧ (s.intake.slot 4).pinFreeze = false ∧ (s.intake.slot 4).pinCapture = false ∧ s.capture.context.state = .waitingPin
      ∧ s.intake.newest = some 2 ∧ { s with intake.newest := none }.intake.newest = none
      ∧ (withBad s).faultsAt u .jobPieceComplete .jobPieceComplete 0x80002 1
      ∧ (withBad s).faultsAt u .jobPieceComplete (.memoryBurstComplete [] ⟨false, 0x200000, 16⟩) 0x80002 1
      ∧ i.jobPieceInProgress = false ∧ i.jobs.entries.length = 16 ∧ (∀ n, n < 16 → ((i.jobs.entry n).state = .running ↔ n = 3))
      ∧ Asks i 9 42 ∧ (postArgument (BitVec.ofNat 32 (16777216 * 9 + 42))).testBit 3 = true
      ∧ (e .standby).control.announced .jobs = some ⟨.jobs, .standby⟩ ∧ (e .shutting).control.announced .jobs = some ⟨.jobs, .shutting⟩
      ∧ (e .shutting).readyForEntry .jobs ∧ (e .shutting).upBesidesJobs :=
  ⟨rfl, cleanUnit_of rfl rfl, by decide, rfl, rfl, rfl, rfl, rfl, (faultsAt_witness _ _ _ rfl (by decide +kernel) (by decide +kernel)).1,
    (faultsAt_witness _ _ _ rfl (by decide +kernel) (by decide +kernel)).2, by decide, by decide, by decide,
    holds _ 9 42 rfl (by decide), by decide, by decide, by decide, ready_of rfl (by decide), .inr ⟨⟨.post, .shutting⟩, by decide, by decide⟩⟩

theorem witness_AFaultedPieceFailsTheCapture :
    let r := smallRender 0x300000
    let s := withBad (rendering live 0 r)
    let u : EngineUnit := { work := .capturePiece 0, parts := [pieceOf r {} 0] }
    u.work = .capturePiece 0 ∧ s.faultsAt u .capturePieceComplete .capturePieceComplete 0x80002 1
      ∧ s.faultsAt u .capturePieceComplete (.memoryBurstComplete [] ⟨false, 0x200000, 16⟩) 0x80002 1 ∧ s.capture.context.render = some r
      ∧ s.capture.context.descriptor.isSome = true ∧ s.capture.context.entry = some 0 ∧ s.capture.context.state = .rendering
      ∧ s.upAfterCapture ∧ 1 ≤ s.capture.credit ∧ s.noDescriptorRead :=
  ⟨rfl, (faultsAt_witness _ _ _ rfl (by decide +kernel) (by decide +kernel)).1,
      (faultsAt_witness _ _ _ rfl (by decide +kernel) (by decide +kernel)).2, rfl, rfl, rfl, rfl,
    .inl (by decide), by decide, noRead_of rfl⟩

theorem witness_CreditIsGrantedToTheChain :
    let s := waitingSlot live
    Asks live 3 1 ∧ Asks live 3 255 ∧ postArgument (BitVec.ofNat 32 (16777216 * 3 + 255)) = 255 ∧ live.capture.running = false
      ∧ s.capture.running = true ∧ s.capture.slotWaiting = false ∧ { s with capture.slotWaiting := true }.capture.slotWaiting = true
      ∧ headReadable s.capture.head ∧ ¬ headReadable 0xFFE0 ∧ ¬ headReadable 0xFFFFFF0 ∧ s.capture.context.state = .waitingSlot := by
  refine ⟨holds live 3 1 rfl (by decide), holds live 3 255 rfl (by decide), by decide, rfl, rfl, rfl, rfl, ?_, ?_, ?_, rfl⟩
    <;> unfold headReadable <;> decide

theorem witness_TheChainIsRestarted :
    let s := { waitingSlot live with post.controlRead := .got [0, 0, 16, 0] }
    let e := { live with post.controlRead := .error [], post.inHand := some 0x04000000#32 }
    Asks live 4 0 ∧ (rendering live 0 (smallRender 0)).capture.context.state = .rendering ∧ live.capture.context.state ≠ .rendering
      ∧ s.post.controlRead = .got [0, 0, 16, 0] ∧ s.capture.context.state = .waitingSlot ∧ s.capture.read = .idle
      ∧ { s with capture.read := .waiting }.capture.read ≠ .idle ∧ e.post.controlRead = .error []
      ∧ e.post.inHand = some 0x04000000#32 :=
  ⟨holds live 4 0 rfl (by decide), rfl, by decide, rfl, rfl, rfl, by decide, rfl, rfl⟩

/-- R169 and R115, by their own words: a refused CAPTURE_RESTART leaves the descriptor read as it was, and one that restarts the chain has it
disregarded. -/
theorem test_a_restart_and_a_descriptor_read :
    let s := { waitingSlot live with capture.read := .got [1] }
    let t := after .captureRestart (State.posted s 4 0)
    let refused := after .controlWordsReadDone { t with post.controlRead := .error [] }
    let restarted := after .controlWordsReadDone { t with post.controlRead := .got [0, 0, 32, 0] }
    t.capture = s.capture ∧ leaves .descriptorReadDone t = true
      ∧ refused.capture = s.capture ∧ leaves .descriptorReadDone refused = false
      ∧ restarted.capture.read = .idle ∧ restarted.capture.head = 0x200000 ∧ restarted.capture.slotWaiting = true := by decide +kernel

theorem witness_LessonsBeginAndEnd :
    let s := waitingSlot live
    Asks live 6 0 ∧ Asks live 7 0 ∧ s.capture.lessonOpen = true ∧ live.capture.lessonOpen = false
      ∧ { s with capture.lessonOpen := false }.capture.context.state ≠ .idle ∧ live.capture.context.state = .idle
      ∧ live.monitor.index.length = 64 ∧ (rendering live 0 (smallRender 0)).capture.context.state = .rendering
      ∧ s.capture.context.state = .waitingSlot ∧ s.noDescriptorRead ∧ s.capture.context.entry = some 0 :=
  ⟨holds live 6 0 rfl (by decide), holds live 7 0 rfl (by decide), rfl, rfl, by decide, rfl, by decide, rfl, rfl, noRead_of rfl, rfl⟩

theorem witness_JobsAreAddedAndCancelled :
    let s := { jobRunning live .stored (.jobPiece 0) 1 none with
      jobs.entries := ((jobRunning live .stored (.jobPiece 0) 1 none).jobs.entries.set 1 { state := .pending }).set 5 { state := .pending } }
    let i := { s with engine.unit := none }
    Asks live 8 0x8001 ∧ postArgument (BitVec.ofNat 32 (16777216 * 8 + 0x8001)) ≠ 0 ∧ live.jobs.entries.length = 16
      ∧ Asks s 9 34 ∧ (postArgument (BitVec.ofNat 32 (16777216 * 9 + 34))).testBit 3 = false
      ∧ Asks i 9 42 ∧ (postArgument (BitVec.ofNat 32 (16777216 * 9 + 42))).testBit 3 = true
      ∧ live.jobs.running = none ∧ s.jobs.running.isSome = true ∧ (∀ n, n < 16 → ((s.jobs.entry n).state = .running ↔ n = 3))
      ∧ s.jobPieceInProgress = true ∧ i.jobPieceInProgress = false
      ∧ s.jobs.running.all (fun j => decide (j.entry = 3 ∧ j.stop = none ∧ j.pin = none)) = true
      ∧ (scanned live (request 0)).jobs.scan.any (fun x => x.holds 3) = true :=
  ⟨holds live 8 0x8001 rfl (by decide), by decide, by decide, holds _ 9 34 rfl (by decide), by decide, holds _ 9 42 rfl (by decide),
    by decide, rfl, rfl, by decide, by decide, by decide, by decide, by decide⟩

theorem witness_AScanChoosesAndStartsAJob :
    let s := scanned live (request 0)
    s.jobs.scan = some ⟨none, [(3, request 0)], false, []⟩ ∧ s.free .jobs = true ∧ s.jobs.entries.length = 16
        ∧ s.skipped (request 0) = false
      ∧ (∀ e ∈ ([] : List (Nat × Request)), s.skipped e.2 = true)
      ∧ [(3, request 0)].Pairwise (fun a b => a.1 < b.1) ∧ (s.jobs.entry 3).state = .pending ∧ s.jobs.view = .live
      ∧ s.control.mode = .live ∧ s.feeder.degraded = false ∧ s.jobs.running = none ∧ s.validate (request 0) = none
      ∧ { s with feeder.degraded := true }.feeder.degraded = true
      ∧ s.validate { request 0 with wd := 14 } = some 2 ∧ s.validate { request 0 with destination := 0xFFFF } = some 3
      ∧ s.validate { request 0 with capacity := 2 * 320 * 240 - 1 } = some 4 ∧ s.validate (request 1) = some 5
      ∧ s.validate { request 2 with indexOption := true } = some 6
      ∧ { s with capture.lessonOpen := true }.validate { request 2 with indexOption := true } = some 7
      ∧ (withNewest s 4).validate (request 1) = none ∧ (withNewest s 4).skipped (request 1) = false
      ∧ ((withNewest s 4).intake.slot 4).geometry = some ⟨3264, 2448⟩ := by decide +kernel

/-- A PENDING entry, idle engine, and a scan in progress whose read of entry 15, the last, stands at the DRAM, with a bad word. -/
def pendingJobs (s : State) : State :=
  { s with
    jobs.entries := (s.jobs.entries.set 3 { state := .pending, reason := 0, pieces := 0, index := 255 }).set 15
      { state := .pending, reason := 0, pieces := 0, index := 255 } }
def requestRead (k : Nat) : State :=
  { granted (pendingJobs live) .record with
    jobs.scan := some { reading := some k, got := [] }, port.queue := [.read (.job k) (0x800 + 64 * k) []], port.bad := [0x2F1] }

theorem witness_AScanChoosesAndStartsAJob_reads :
    let i := pendingJobs live
    (i.engine.unit = none ∧ i.feeder.request = none ∧ i.capture.context.state ≠ .rendering ∧ i.control.mode = .live
      ∧ i.jobs.view = .live ∧ i.feeder.degraded = false ∧ i.jobs.running = none ∧ i.jobs.scan = none ∧ i.free .jobs = true
      ∧ (i.jobs.entry 3).state = .pending ∧ (∀ m, m < 3 → (i.jobs.entry m).state ≠ .pending) ∧ i.roomFor 1)
    ∧ (requestRead 15).port.grant = some ⟨.record, 0, 8⟩ ∧ (requestRead 15).port.queue = .read (.job 15) 0xBC0 [] :: []
      ∧ (requestRead 15).noneWait ∧ (requestRead 15).jobs.entries.length = 16 ∧ ((requestRead 15).jobs.entry 15).state = .pending
      ∧ 0x2F1 ∈ (requestRead 15).port.bad ∧ 0xBC0 / 4 ≤ 0x2F1 ∧ 4 * 0x2F1 < 0xBC0 + 48
      ∧ (∀ y, 0xBC0 / 4 ≤ y → y < 0x2F1 → y ∉ (requestRead 15).port.bad ∧ y ∉ (requestRead 15).port.weak)
      ∧ (requestRead 3).cleanWords 0x8C0 48 ∧ (requestRead 3).port.queue = .read (.job 3) 0x8C0 [] :: []
      ∧ (∀ m, m < 15 → 3 < m → ((requestRead 3).jobs.entry m).state ≠ .pending) := by
  refine ⟨⟨rfl, rfl, by decide, rfl, rfl, rfl, rfl, rfl, by decide, by decide, by decide, ⟨⟨rfl, rfl⟩, by decide⟩⟩, rfl, rfl, ⟨rfl, rfl⟩,
    by decide, by decide, by decide, by decide, by decide, ?_, ?_, rfl, ?_⟩
  · intro y _ h
    exact ⟨fun hm => by simp [requestRead, pendingJobs, granted] at hm; omega, List.not_mem_nil⟩
  · intro y _ h
    exact ⟨fun hm => by simp [requestRead, pendingJobs, granted] at hm; omega, List.not_mem_nil⟩
  · decide

/-- A frame of LIVE with one pane over the raster. -/
def liveFrame : State :=
  { live with feeder := { live.feeder with liveFrame := true, latched := [⟨0, 0, 1920, 1080, smallRender 0⟩] } }

/-- What the engine can take, row after row of R94: the strip ahead of all, the capture piece ahead of job work, and the job piece, held
back while degraded. -/
def offering : State :=
  let s := jobRunning (rendering live 0 (smallRender 0x300000)) .stored (.jobPiece 0) 9 none
  { s with
    engine.unit := none, feeder := { liveFrame.feeder with request := some ⟨1, true⟩ }
    capture.context := { s.capture.context with next := 0 } }

theorem witness_AScanChoosesAndStartsAJob_work :
    let c := { offering with feeder.request := none }
    let j := { c with capture.context := {} }
    offering.stripStands ∧ c.captureStands ∧ ¬ c.stripStands ∧ ¬ j.captureStands ∧ j.jobStands ∧ live.engine.unit = none
      ∧ (offering.takeWork.engine.unit.map fun u => u.work) = some (.strip 1 true)
      ∧ (c.takeWork.engine.unit.map fun u => u.work) = some (.capturePiece 0)
      ∧ (j.takeWork.engine.unit.map fun u => u.work) = some (.jobPiece 1)
      ∧ { j with feeder.degraded := true }.takeWork.engine.unit = none ∧ (pendingJobs live).scanStands := by
  refine ⟨⟨rfl, by decide⟩, ⟨rfl, by decide, _, rfl, by decide⟩, fun h => h.2 rfl, fun h => absurd h.1 (by decide),
    ⟨rfl, rfl, by decide, _, rfl, by decide, rfl⟩, rfl, by decide +kernel, by decide +kernel, by decide +kernel, by decide +kernel,
    rfl, rfl, rfl, rfl, rfl, by decide, 3, by decide, by decide⟩

theorem witness_JobPiecesComplete :
    let s := jobRunning live .stored (.jobPiece 0) 1 none
    let u : EngineUnit := { work := .jobPiece 0, parts := [pieceOf (smallRender 0x300000) {} 0] }
    s.engine.unit = some u ∧ u.work = .jobPiece 0 ∧ s.jobs.running.isSome = true ∧ 3 < s.jobs.entries.length
      ∧ s.upAfterJob ∧ s.jobs.running.all (fun j => decide (j.pin = none)) = true ∧ s.cleanUnit u
      ∧ s.jobs.running.all (fun j => decide (j.entry = 3 ∧ j.stop = none ∧ j.total ≤ j.done + 1)) = true
      ∧ (jobRunning live .stored (.jobPiece 0) 2 none).jobs.running.all (fun j => decide (j.done + 1 < j.total)) = true
      ∧ (withBad s).faultsAt u .jobPieceComplete .jobPieceComplete 0x80002 1
      ∧ (withBad s).faultsAt u .jobPieceComplete (.memoryBurstComplete [] ⟨false, 0x200000, 16⟩) 0x80002 1 :=
  ⟨rfl, rfl, rfl, by decide, .inl (by decide), by decide, cleanUnit_of rfl rfl, by decide, by decide,
    (faultsAt_witness _ _ _ rfl (by decide +kernel) (by decide +kernel)).1,
        (faultsAt_witness _ _ _ rfl (by decide +kernel) (by decide +kernel)).2⟩

theorem witness_SignaturePiecesComplete :
    let s := jobRunning live .signature (.signaturePiece 0) 1 none
    let u : EngineUnit := { work := .signaturePiece 0, parts := [signaturePieceOf (smallRender 0x300000) 0] }
    s.engine.unit = some u ∧ u.work = .signaturePiece 0 ∧ (∀ w, w ∈ s.port.bad ∨ w ∈ s.port.weak → u.needsWord w = false)
      ∧ s.jobs.running.all (fun j => decide (j.entry = 3 ∧ j.stop = none ∧ j.pin = none ∧ j.total ≤ j.done + 1 ∧ j.indexOption = true
          ∧ j.page = 5)) = true
      ∧ 3 < s.jobs.entries.length ∧ s.upAfterJob ∧ s.capture.lessonOpen = false
      ∧ 16 ≤ (signaturePieceOf (smallRender 0x300000) 0).render.ws ∧ 12 ≤ (signaturePieceOf (smallRender 0x300000) 0).render.hs
      ∧ s.jobs.running.all (fun j => decide (j.sums.length = 192)) = true
      ∧ { s with capture.lessonOpen := true }.capture.lessonOpen = true ∧ (s.monitor.entry 0).state = .empty
      ∧ ({ s.monitor with index := s.monitor.index.set 63 { state := .valid, page := 5 } }.entry 63).page = 5
      ∧ ({ s.monitor with index := s.monitor.index.set 63 { state := .provisional, page := 5 } }.entry 63).state = .provisional
      ∧ (fullIndex { s with intake.frameNumber := 7 }).placeIs 63
      ∧ (withBad s).faultsAt u .signaturePieceComplete .signaturePieceComplete 0x80002 1 :=
  ⟨rfl, rfl, clean_of rfl rfl, by decide, by decide, .inl (by decide), rfl, by decide, by decide, by decide +kernel, rfl, by decide, by decide, by decide,
    eviction_witness _ rfl,
    (faultsAt_witness _ _ _ rfl (by decide +kernel) (by decide +kernel)).1⟩

theorem witness_ShutdownAwaitsTheLastPiece :
    let r := smallRender 0x300000
    let s := rendering shutting 0 r
    let u : EngineUnit := { work := .capturePiece 0, parts := [pieceOf r {} 0] }
    let j := jobRunning shutting .stored (.jobPiece 0) 1 none
    let v : EngineUnit := { work := .jobPiece 0, parts := [pieceOf r {} 0] }
    let w := waited shutting 31 .capture []
    s.control.mode = .shutting ∧ s.entriesDone = true ∧ s.engine.unit = some u ∧ s.capture.context.render = some r
      ∧ s.capture.context.descriptor.isSome = true ∧ s.capture.context.entry = some 0 ∧ s.capture.context.state = .rendering
      ∧ 1 ≤ s.capture.credit ∧ s.noDescriptorRead ∧ s.jobs.running = none ∧ s.roomFor 4 ∧ s.cleanUnit u
      ∧ pieceCount r.wp r.hp ≤ s.capture.context.done + 1
      ∧ (withBad s).faultsAt u .capturePieceComplete .capturePieceComplete 0x80002 1 ∧ (withBad s).roomFor 4
      ∧ j.control.mode = .shutting ∧ j.entriesDone = true ∧ j.engine.unit = some v ∧ j.jobs.running.isSome = true
      ∧ 3 < j.jobs.entries.length ∧ j.capture.context.state = .idle ∧ j.roomFor 2 ∧ j.cleanUnit v
      ∧ (withBad j).faultsAt v .jobPieceComplete .jobPieceComplete 0x80002 1
      ∧ w.control.mode = .shutting ∧ w.entriesDone = true ∧ w.port.blocked = [⟨[.capture], .read .setup 0x200 []⟩] ∧ w.port.later = []
      ∧ w.port.queue.length < 32 ∧ w.capture.context.state = .idle ∧ w.jobs.running = none :=
  ⟨rfl, by decide, rfl, rfl, rfl, rfl, rfl, by decide, noRead_of rfl, rfl, ⟨⟨rfl, rfl⟩, by decide⟩, cleanUnit_of rfl rfl, by decide,
    (faultsAt_witness _ _ _ rfl (by decide +kernel) (by decide +kernel)).1, ⟨⟨rfl, rfl⟩, by decide⟩, rfl, by decide, rfl, rfl, by decide,
        rfl, ⟨⟨rfl, rfl⟩, by decide⟩,
    cleanUnit_of rfl rfl, (faultsAt_witness _ _ _ rfl (by decide +kernel) (by decide +kernel)).1, rfl, by decide, rfl, rfl, by decide, rfl, rfl⟩

/-- R187: the capture's last piece in SHUTTING brings POWERDOWN. -/
theorem test_last_piece_brings_powerdown :
    (after .capturePieceComplete (rendering shutting 0 (smallRender 0x300000))).control.mode = .powerdown := by decide +kernel

/-- R141, R134: a stop pending at a piece that is not the last: the count is written, then the outcome. -/
theorem test_stopped_piece_is_counted :
    let s := jobRunning live .stored (.jobPiece 0) 2 none
    let t := after .jobPieceComplete { s with jobs.running := s.jobs.running.map fun j => { j with stop := some 10 } }
    t.port.queue.length = 2 ∧ t.jobs.entry 3 = ⟨.cancelled, 10, 1, 255⟩ ∧ t.jobs.running = none := by decide +kernel

theorem witness_StripsAreScannedOutAndRequested :
    live.feeder.rasterOn = true ∧ { live with feeder.nextStrip := 133 }.feeder.nextStrip = 133 ∧ 133 + 1 < live.frameStrips
      ∧ live.feeder.nextStrip ≠ 133 ∧ live.frameStrips ≤ 134 + 1
      ∧ { liveFrame with engine.unit := some stripUnit }.engine.unit = some stripUnit ∧ stripUnit.work = .strip 0 false
      ∧ { live with feeder := { live.feeder with layoutRead := .waiting } }.feeder.layoutRead ≠ .idle ∧ live.feeder.layoutRead = .idle
      ∧ standby.feeder.view ≠ .live ∧ liveFrame.feeder.view = .live ∧ liveFrame.feeder.liveFrame = true
      ∧ liveFrame.feeder.request = none
      ∧ { liveFrame.feeder with request := some ⟨133, true⟩ }.request = some ⟨133, true⟩ := by decide

theorem witness_FrameTurnsOutsideLive :
    standby.feeder.rasterOn = true ∧ standby.feeder.layoutRead = .idle ∧ standby.feeder.view ≠ .live ∧ standby.post.holdoffDue = false
      ∧ { standby.feeder with posted := true }.posted = true ∧ standby.feeder.view = .standby ∧ standby.feeder.posted = false
      ∧ shutting.feeder.view ≠ .standby ∧ shutting.feeder.view ≠ .live
      ∧ { standby with feeder.nextStrip := 134 }.feeder.nextStrip + 1 = standby.frameStrips
      ∧ standby.feeder.nextStrip + 1 ≠ standby.frameStrips := by decide

theorem witness_FrameTurnsInLive :
    let s := { liveFrame with engine.unit := some stripUnit, feeder.nextStrip := 134 }
    let m := { s with feeder.request := some ⟨134, true⟩ }
    s.feeder.rasterOn = true ∧ s.feeder.nextStrip + 1 = s.frameStrips ∧ s.feeder.layoutRead = .idle ∧ s.feeder.view = .live
      ∧ s.engine.unit = some stripUnit
      ∧ s.feeder.liveFrame = true ∧ s.feeder.request = none ∧ s.post.holdoffDue = false
      ∧ s.feeder.outputMode = s.post.setup.outputMode ∧ s.feeder.posted = false ∧ { s.feeder with posted := true }.posted = true
      ∧ live.feeder.liveFrame = false ∧ live.feeder.request = none ∧ m.feeder.request.isSome = true ∧ live.engine.unit = none
      ∧ { s with engine.unit := none }.engine.unit = none
      ∧ (jobRunning m .stored (.jobPiece 0) 1 none).engine.unit.any (fun u => decide (u.work = .jobPiece 0)) = true
      ∧ { s with post.setup := { s.post.setup with outputMode := 2 } }.post.setup.outputMode ≠ s.feeder.outputMode := by
  decide

/-- A layout record has been read in STANDBY. -/
def layoutGot (bytes : List Byte) : State := { standby with feeder := { standby.feeder with layoutRead := .got bytes } }

theorem witness_LayoutsAreTakenOrRefused :
    let g := rasterSize 1
    let s := layoutGot (layoutBytes 2 0 0 640)
    let l := { liveFrame with engine.unit := some stripUnit, feeder := { liveFrame.feeder with layoutRead := .got (layoutBytes 2 0 0 640) } }
    let d := { s with feeder.deferred := [.turn 0], feeder.layoutRead := .error [] }
    (d.feeder.view = .standby ∧ d.feeder.deferred = [.turn 0] ∧ d.feeder.layoutRead = .error []
      ∧ d.feeder.outputMode = 1 ∧ d.post.timer = none ∧ d.post.holdoffDue = false ∧ d.staysUp
      ∧ (∀ e ∈ [FeederEvent.takeLayout, .scanout 3], e = .takeLayout ∨ ∃ k, e = .scanout k)
      ∧ { s with feeder.nextStrip := 134 }.feeder.layoutRead ≠ .idle
      ∧ { s with feeder.nextStrip := 134 }.feeder.nextStrip + 1 = { s with feeder.nextStrip := 134 }.frameStrips)
    ∧ s.feeder.view = .standby ∧ s.feeder.deferred = [] ∧ s.post.holdoffDue = false ∧ s.intake.freezeSlot = none
      ∧ s.staysUp ∧ s.feeder.layoutRead = .got (layoutBytes 2 0 0 640)
      ∧ (parseLayout (layoutBytes 4 0 0 640)).failure g = none ∧ (parseLayout (layoutBytes 5 0 0 640)).failure g = some (1, 5)
      ∧ (parseLayout (layoutBytes 2 0 1 640)).failure g = some (1, 0) ∧ (parseLayout (layoutBytes 2 3 0 640)).failure g = some (3, 0)
      ∧ (parseLayout (layoutBytes 4 1 0 640)).failure g = none ∧ (parseLayout (layoutBytes 4 1 0 640)).firstFreeze = some 0
      ∧ (parseLayout (layoutBytes 2 0 0 640)).firstFreeze = none
      ∧ firstOverlap ((parseLayout (layoutBytes 1 0 0 640)).panes ++ (parseLayout (layoutBytes 1 0 0 640)).panes) = some 1
      ∧ l.feeder.view = .live ∧ l.feeder.deferred = [] ∧ l.post.holdoffDue = false ∧ l.engine.unit = some stripUnit
      ∧ l.capture.context.state ≠ .waitingPin ∧ l.staysUp ∧ l.feeder.layoutRead = .got (layoutBytes 2 0 0 640)
      ∧ l.settleFreeze (parseLayout (layoutBytes 2 0 0 640)) = (l, none) :=
  ⟨⟨rfl, rfl, rfl, rfl, rfl, rfl, .inl (.inl (by decide)), by simp, by decide, by decide⟩, rfl, rfl, rfl, by decide, .inl (.inl (by decide)), rfl, by decide +kernel, by decide +kernel, by decide +kernel, by decide +kernel,
    by decide +kernel, by decide +kernel, by decide +kernel, by decide +kernel, rfl, rfl, rfl, rfl, by decide, .inl (.inl (by decide)), rfl,
    by decide +kernel⟩

/-- "A Refused Layout and a Refreeze": FREEZE and CAPTURE on slot 2, JOB on slot 0, slot 4 newest. -/
def refreezing : State :=
  { withNewest live 4 with
    intake.slots := [{ fill := .complete, pinJob := true }, {}, { fill := .complete, pinFreeze := true, pinCapture := true }, {}, {}] }

theorem witness_FreezePinsAreSettled :
    let l := parseLayout (layoutBytes 1 1 0 640)
    let again := { l with refreeze := true }
    l.firstFreeze = some 0 ∧ refreezing.feeder.view = .live ∧ { withNewest standby 4 with pending := [] }.feeder.view = .standby
      ∧ (withNewest standby 4).intake.freezeSlot = none ∧ refreezing.intake.newest = some 4 ∧ refreezing.capture.context.state ≠ .waitingPin
      ∧ refreezing.intake.slots.length = 5 ∧ again.refreeze = true ∧ l.refreeze = false ∧ refreezing.intake.freezeSlot = some 2
      ∧ (refreezing.intake.slot 2).pinCapture = true ∧ (refreezing.intake.slot 4).pinned = false ∧ 2 ≤ refreezing.intake.pinnedCount
      ∧ refreezing.settleFreeze again = (refreezing, some 5)
      ∧ (let r := { refreezing with intake.slots := refreezing.intake.slots.modify 0 fun x => { x with pinJob := false } }
        r.intake.freezeSlot = some 2 ∧ (r.intake.slot 2).pinCapture = true ∧ r.intake.pinnedCount < 2)
      ∧ (withNewest live 4).intake.freezeSlot = none ∧ (withNewest live 4).intake.pinnedCount < 2
      ∧ { refreezing with intake.slots := [{}, {}, { pinFreeze := true }, { pinJob := true }, {}] }.intake.freezeSlot = some 2
      ∧ { refreezing with intake.slots := [{}, {}, { pinJob := true }, { pinCapture := true }, {}] }.intake.freezeSlot = none := by
  decide +kernel

/-- R79: the feeder is in STANDBY while a slot still carries the newest mark, the intake's entry being on its way: NO_FRAME (assumption
log 41). -/
theorem test_no_freeze_pin_in_standby :
    (withNewest standby 4).settleFreeze (parseLayout (layoutBytes 1 1 0 640)) = (withNewest standby 4, some 4) := by decide +kernel

/-- R68: strip after strip from strip 0: a strip out of its order and a frame turn before the last strip change nothing. -/
theorem test_raster_order :
    leaves (.stripScanoutStart 1) standby = true ∧ leaves .frameTurn standby = true
      ∧ (after (.stripScanoutStart 0) standby).feeder.nextStrip = 1
      ∧ (after .frameTurn { standby with feeder.nextStrip := 134 }).feeder.nextStrip = 0
      ∧ (after .frameTurn { standby with feeder.nextStrip := 134 }).feeder.frameNumber = 1 := by decide +kernel

/-- A frame turn into output mode 0 kept behind a layout read, with 90 strips to a frame from then on. -/
def turning : State :=
  { standby with feeder := { standby.feeder with layoutRead := .waiting, deferred := [.turn 0], nextStrip := 88 } }

theorem witness_RasterOk : turning.rasterOk ∧ turning.feeder.rasterOn = true ∧ turning.feeder.nextStrip + 1 ≠ turning.frameStrips
    ∧ { turning with feeder.nextStrip := 89 }.feeder.nextStrip + 1 = turning.frameStrips := by
  refine ⟨⟨fun h => absurd h (by decide), by decide⟩, by decide⟩

/-- R68: the raster goes on in the mode of the frame turn that is kept: strip 89 is its last, and stays so as the feeder comes to that
turn. -/
theorem test_raster_goes_on_after_a_kept_turn :
    leaves (.stripScanoutStart 89) { turning with feeder.nextStrip := 89 } = true
      ∧ (after (.stripScanoutStart 88) turning).feeder.nextStrip = 89
      ∧ (after .layoutReadDone { turning with feeder.nextStrip := 89, feeder.layoutRead := .error [] }).frameStrips = 90 := by
  decide +kernel

theorem witness_StripsCompleteOrFault :
    let s := { liveFrame with engine.unit := some stripUnit }
    s.engine.unit = some stripUnit ∧ stripUnit.work = .strip 0 false ∧ s.staysUp
      ∧ (∀ w, w ∈ s.port.bad ∨ w ∈ s.port.weak → stripUnit.needsWord w = false)
      ∧ (withBad s).faultsAt stripUnit .stripComplete .stripComplete 0x80002 1
      ∧ (withBad s).faultsAt stripUnit .stripComplete (.memoryBurstComplete [] ⟨false, 0x200000, 16⟩) 0x80002 1 :=
  ⟨rfl, rfl, .inl (.inl (by decide)), clean_of rfl rfl, (faultsAt_witness _ _ _ rfl (by decide +kernel) (by decide +kernel)).1,
    (faultsAt_witness _ _ _ rfl (by decide +kernel) (by decide +kernel)).2⟩

theorem witness_RendersStayWithinSourceAndTarget :
    let r := examplePane 512 26112 19584
    let w := examplePane 256 26112 19584
    (16 ≤ r.ws ∧ r.ws ≤ 4096 ∧ r.ws % 2 = 0 ∧ 16 ≤ r.hs ∧ r.hs ≤ 3072 ∧ 16 ≤ r.wp ∧ r.wp ≤ 4096 ∧ r.wp % 2 = 0 ∧ 8 ≤ r.hp ∧ r.hp ≤ 3072)
      ∧ r.wp * r.step ≤ r.ws * 65536 ∧ r.hp * r.step ≤ r.hs * 65536 ∧ r.wp * r.step / 2 ≤ r.cx * 4096
      ∧ r.cx * 4096 + (r.wp * r.step - r.wp * r.step / 2) ≤ r.ws * 65536
      ∧ w.ws * 65536 < w.wp * w.step ∧ w.hs * 65536 < w.hp * w.step ∧ 1919 < r.wp ∧ 1079 < r.hp
      ∧ r.hp * r.step / 2 ≤ r.cy * 4096 ∧ r.cy * 4096 + (r.hp * r.step - r.hp * r.step / 2) ≤ r.hs * 65536
      ∧ ((⟨0, 0, 1920, 1080, r⟩ : LatchedPane).part {} 0).render = r := by decide

/-- A claim about every slot is one about the five, and about the slot read outside them. -/
theorem slot_cases {i : Intake} (claim : Nat → Slot → Prop) (hl : i.slots.length = 5) (h : ∀ n, n < 5 → claim n (i.slot n))
    (h0 : ∀ n, 5 ≤ n → claim n {}) (n : Nat) : claim n (i.slot n) := by
  by_cases hn : n < 5
  · exact h n hn
  · have : i.slot n = {} := by
      unfold Intake.slot
      rw [List.getD_eq_getElem?_getD, List.getElem?_eq_none (by omega)]; rfl
    rw [this]; exact h0 n (by omega)

/-- A capture in hand on slot 2, the newest, and a frame being received into slot 4. -/
def busyPool : State :=
  let s := waitingSlot live
  { s with
    intake.slots := s.intake.slots.modify 4 fun x => { x with fill := .filling }
    intake.state := .receiving, intake.target := .slot 4, intake.hold := some 0 }

theorem witness_SlotsOk : busyPool.slotsOk := by
  refine ⟨by decide, ?_, ?_, ?_, by decide, ?_, ?_, ?_⟩
  · exact slot_cases (fun n x => busyPool.intake.newest = some n ∨ busyPool.intake.hold = some n ∨ x.pinned = true → x.fill = .complete)
      (by decide) (by decide) (by intro n hn h; simp [busyPool, waitingSlot, withNewest, Slot.pinned] at h; omega)
  · exact slot_cases (fun n x => ∀ m, x.pinFreeze = true → (busyPool.intake.slot m).pinFreeze = true → n = m) (by decide)
      (fun n hn m h => absurd h (by revert n; decide)) (fun _ _ _ h => nomatch h)
  · exact slot_cases (fun n x => x.pinCapture = true → busyPool.capture.context.pinned = some n) (by decide) (by decide)
      (fun _ _ h => nomatch h)
  · exact slot_cases (fun n x => x.pinJob = true → ∃ j, busyPool.jobs.running = some j ∧ j.pin = some n) (by decide)
      (fun n hn h => absurd h (by revert n; decide)) (fun _ _ h => nomatch h)
  · intro n h; cases h; decide
  · intro p h; cases h

/-- The invariants hold of a state with a capture in hand, a pending frame and a held grant, not only of the state after reset. -/
theorem witness_Invariants :
    let s := granted { waitingSlot live with intake.pendingFrame := some ⟨4, ⟨640, 480⟩, [], false⟩ } .record
    s.pinsOk ∧ s.memoryOk ∧ s.queueOk ∧ s.boundsOk ∧ s.grantOk := by
  refine ⟨⟨by decide, by decide, ?_, ?_, ?_, ?_⟩, rfl, ⟨by decide, by decide, by decide, by decide⟩,
    ⟨by decide, by decide, by decide, by decide, by decide, by decide, by decide⟩, ?_⟩
  · intro n h; cases h; decide
  · intro n h; cases h
  · intro p h; cases h; decide
  · intro j n h; cases h
  · intro g h; cases h; decide

/-- The capture's entry is the only one that is not EMPTY. -/
theorem only_entry_0 (n : Nat) (h : ((waitingSlot live).monitor.entry n).state ≠ .empty) : n = 0 := by
  have below : ∀ n, n < 64 → ((waitingSlot live).monitor.entry n).state ≠ .empty → n = 0 := by decide +kernel
  by_cases hn : n < 64
  · exact below n hn h
  · have hl : (waitingSlot live).monitor.index.length = 64 := by decide +kernel
    unfold Monitor.entry at h
    rw [List.getD_eq_getElem?_getD, List.getElem?_eq_none (by omega)] at h
    exact absurd rfl h

theorem witness_ProvisionalEntry : (waitingSlot live).provisionalOk := by
  intro n h
  obtain rfl := only_entry_0 n (by rw [h]; decide)
  exact ⟨by decide, by decide⟩

theorem witness_PagesOk : (waitingSlot live).pagesOk := by
  refine ⟨fun n m hne hn hm => absurd (only_entry_0 n hn) ?_, fun n h => ?_, fun n h => ?_⟩
  · exact fun h => hne (h.trans (only_entry_0 m hm).symm)
  · obtain rfl := only_entry_0 n h; decide
  · cases h; decide

end Sys2Proof.Machine.Tests
end

section
/-! SUPPORT. The pins of a state as one value, the moves that can change it, and the two invariants of the frame slots, which every
move keeps (R8, R10, R11). -/

namespace Sys2Proof.Machine

set_option Elab.async false

/-! ## The pins of a state -/

/-- What the invariants of the frame slots speak of: the slots with their marks, where the frame in hand and the pending one go, the state
and the pin of the capture context, and the pin of the running job. -/
structure PinView where
  slots : List Slot
  newest : Option Nat
  hold : Option Nat
  target : Target
  pending : Option Nat
  state : ContextState
  pinned : Option Nat
  run : Option (Option Nat)

def State.pins (s : State) : PinView :=
  { slots := s.intake.slots, newest := s.intake.newest, hold := s.intake.hold, target := s.intake.target
    pending := s.intake.pendingFrame.map PendingFrame.slot, state := s.capture.context.state
    pinned := s.capture.context.pinned, run := s.jobs.running.map RunningJob.pin }

namespace PinView

def slot (v : PinView) (n : Nat) : Slot := v.slots.getD n {}

/-- The pool grants a pin on this slot (R10). -/
def grants (v : PinView) (n : Nat) : Bool := (v.slot n).pinned || decide (v.slots.countP Slot.pinned < 2)

/-- The slot is fillable (R8). -/
def fillable (v : PinView) (n : Nat) : Bool :=
  decide ((v.slot n).fill ≠ .filling) && decide (v.newest ≠ some n) && decide (v.hold ≠ some n) && !(v.slot n).pinned

/-- An owner's pin on a slot is set or taken off. -/
def pin (v : PinView) (n : Nat) (o : PinOwner) (on : Bool) : PinView :=
  { v with slots := v.slots.modify n fun x => x.withPin o on }

/-- The capture has its pin on a slot, and looks at its chain (R111 to R113). -/
def capturePin (v : PinView) (m : Nat) : PinView := { v.pin m .capture true with pinned := some m, state := .waitingSlot }

/-- The pin that the capture context names is taken off (R123). -/
def dropCapture (v : PinView) : PinView :=
  match v.pinned with
  | some n => v.pin n .capture false
  | none => v

/-- The capture ends (R121, R123). -/
def endCapture (v : PinView) : PinView := { v.dropCapture with pinned := none, state := .idle }

/-- An owner's pin on slot n has been released: with the slot left unpinned, a capture in WAITING_PIN is served with the newest slot, and
may end at once (R11, R113). -/
inductive Released (v : PinView) (n : Nat) (o : PinOwner) : PinView → Prop
  | dropped : Released v n o (v.pin n o false)
  | served (m : Nat) : ((v.pin n o false).slot n).pinned = false → v.state = .waitingPin → v.newest = some m →
      Released v n o ((v.pin n o false).capturePin m)
  | missed (m : Nat) : ((v.pin n o false).slot n).pinned = false → v.state = .waitingPin → v.newest = some m →
      Released v n o ((v.pin n o false).capturePin m).endCapture

/-- What a step can do to the pins, move by move. -/
inductive Move (v : PinView) : PinView → Prop
  /-- The intake chooses a slot (R9). -/
  | choose (n : Nat) (g : Option Geometry) : n < 5 → v.fillable n = true → v.pending = none →
      Move v { v with slots := v.slots.modify n fun x => { x with fill := .filling, geometry := g }, target := .slot n }
  /-- The frame in hand has no slot (R7, R16). -/
  | untarget (t : Target) : (∀ n, t ≠ .slot n) → Move v { v with target := t }
  /-- The frame in hand leaves no trace (R4, R5). -/
  | discard (n : Nat) : v.target = .slot n →
      Move v { v with slots := v.slots.modify n fun x => { x with fill := .free }, target := .standby }
  /-- A whole frame waits for its acceptance (R6). -/
  | wait (n : Nat) : v.target = .slot n → Move v { v with pending := some n, target := .standby }
  /-- The pending frame is accepted, with the newest mark or without (R6, R16). -/
  | accept (n : Nat) (m : Option Nat) : v.pending = some n → m = v.newest ∨ m = some n →
      Move v { v with slots := v.slots.modify n fun x => { x with fill := .complete }, newest := m, pending := none }
  | unmark : Move v { v with newest := none }
  /-- The display hold moves (R74, R89). -/
  | display (h : Option Nat) : h = none ∨ h = v.newest → Move v { v with hold := h }
  /-- The capture context changes its state, but not to IDLE (R110). -/
  | context (st : ContextState) : st ≠ .idle → (st = .waitingPin → v.pinned = none) → Move v { v with state := st }
  /-- A decision is taken in IDLE (R110). -/
  | decide : v.state = .idle → Move v { v with pinned := none }
  | capture (m : Nat) : v.newest = some m → v.grants m = true → v.pinned = none → Move v (v.capturePin m)
  | endCapture : Move v v.endCapture
  /-- The first FREEZE pin of a layout (R79). -/
  | freeze (m : Nat) : v.newest = some m → v.grants m = true → (∀ n, n < 5 → (v.slot n).pinFreeze = false) → Move v (v.pin m .freeze true)
  | unfreeze (n : Nat) (w : PinView) : (v.slot n).pinFreeze = true → Released v n .freeze w → Move v w
  /-- A refreeze moves the pin, or is refused and leaves it (R79). -/
  | refreeze (n m : Nat) (w : PinView) : (v.slot n).pinFreeze = true → v.newest = some m → Released v n .freeze w →
      Move v (if w.grants m = true then w.pin m .freeze true else w.pin n .freeze true)
  /-- A RENDER_LIVE job starts with its pin (R139), or another job without one. -/
  | startLive (m : Nat) : v.run = none → v.newest = some m → v.grants m = true → Move v { v.pin m .job true with run := some (some m) }
  | start : v.run = none → Move v { v with run := some none }
  /-- A job ends, with the release of its pin (R142, R145). -/
  | endJob : v.run = some none → Move v { v with run := none }
  | endLive (n : Nat) (w : PinView) : v.run = some (some n) → Released v n .job w → Move v { w with run := none }
  | reset : Move v State.reset.pins

/-- The invariant about the count of pins (R10). -/
structure PinsOk (v : PinView) : Prop where
  count : v.slots.countP Slot.pinned ≤ 2
  length : v.slots.length = 5
  newest : ∀ n, v.newest = some n → n < 5
  target : ∀ n, v.target = .slot n → n < 5
  pending : ∀ n, v.pending = some n → n < 5
  job : ∀ n, v.run = some (some n) → (v.slot n).pinJob = true

/-- The invariant about the slots that are newest, held or pinned (R8). -/
structure SlotsOk (v : PinView) : Prop where
  length : v.slots.length = 5
  complete : ∀ n, v.newest = some n ∨ v.hold = some n ∨ (v.slot n).pinned = true → (v.slot n).fill = .complete
  freeze : ∀ n m, (v.slot n).pinFreeze = true → (v.slot m).pinFreeze = true → n = m
  capture : ∀ n, (v.slot n).pinCapture = true → v.pinned = some n
  unpinned : v.state = .idle ∨ v.state = .waitingPin → v.pinned = none
  job : ∀ n, (v.slot n).pinJob = true → v.run = some (some n)
  target : ∀ n, v.target = .slot n → (v.slot n).fill = .filling ∧ v.pending = none
  pending : ∀ n, v.pending = some n → (v.slot n).fill = .filling

end PinView

theorem pinsOk_iff {s : State} : s.pinsOk ↔ s.pins.PinsOk := by
  have hf (q : Nat → Prop) : (∀ n, s.pins.pending = some n → q n) ↔ ∀ p, s.intake.pendingFrame = some p → q p.slot := by
    simp [State.pins]
  have hj (n : Nat) : s.pins.run = some (some n) ↔ ∃ j, s.jobs.running = some j ∧ j.pin = some n := by simp [State.pins]
  constructor
  · rintro ⟨h1, h2, h3, h4, h5, h6⟩
    exact ⟨h1, h2, h3, h4, (hf _).2 h5, fun n k => let ⟨j, a, b⟩ := (hj n).1 k; h6 j n a b⟩
  · rintro ⟨h1, h2, h3, h4, h5, h6⟩
    exact ⟨h1, h2, h3, h4, (hf _).1 h5, fun j n a b => h6 n ((hj n).2 ⟨j, a, b⟩)⟩

theorem slotsOk_iff {s : State} : s.slotsOk ↔ s.pins.SlotsOk := by
  have hp : s.pins.pending = none ↔ s.intake.pendingFrame = none := by simp [State.pins]
  have hj (n : Nat) : s.pins.run = some (some n) ↔ ∃ j, s.jobs.running = some j ∧ j.pin = some n := by simp [State.pins]
  have hf (q : Nat → Prop) : (∀ n, s.pins.pending = some n → q n) ↔ ∀ p, s.intake.pendingFrame = some p → q p.slot := by
    simp [State.pins]
  constructor
  · rintro ⟨h1, h2, h3, h4, h5, h6, h7, h8⟩
    exact ⟨h1, h2, h3, h4, h5, fun n k => (hj n).2 (h6 n k), fun n k => ⟨(h7 n k).1, hp.2 (h7 n k).2⟩, (hf _).2 h8⟩
  · rintro ⟨h1, h2, h3, h4, h5, h6, h7, h8⟩
    exact ⟨h1, h2, h3, h4, h5, fun n k => (hj n).1 (h6 n k), fun n k => ⟨(h7 n k).1, hp.1 (h7 n k).2⟩, (hf _).1 h8⟩

/-! ## One slot changed -/

theorem getD_modify {l : List Slot} {n m : Nat} {f : Slot → Slot} :
    (l.modify n f).getD m {} = if n = m ∧ m < l.length then f (l.getD m {}) else l.getD m {} := by
  simp only [List.getD_eq_getElem?_getD, List.getElem?_modify]
  by_cases hm : m < l.length
  · by_cases hn : n = m <;> simp [hm, hn]
  · simp [hm]

/-- A change of one slot changes the count of pinned slots by that slot alone. -/
theorem countP_modify_add (l : List Slot) (n : Nat) (f : Slot → Slot) (h : n < l.length) :
    (l.modify n f).countP Slot.pinned + (if (l.getD n {}).pinned then 1 else 0)
      = l.countP Slot.pinned + if (f (l.getD n {})).pinned then 1 else 0 := by
  induction l generalizing n with
  | nil => simp at h
  | cons x l ih =>
    cases n with
    | zero => simp [List.countP_cons]; omega
    | succ n =>
      have := ih n (by simpa using h)
      simp only [List.modify_succ_cons, List.countP_cons, List.getD_cons_succ] at this ⊢
      omega

/-- A change that leaves whether each slot is pinned leaves the count. -/
theorem countP_modify_same (l : List Slot) (n : Nat) (f : Slot → Slot) (h : ∀ x, (f x).pinned = x.pinned) :
    (l.modify n f).countP Slot.pinned = l.countP Slot.pinned := by
  by_cases hn : n < l.length
  · have := countP_modify_add l n f hn
    rw [h] at this
    omega
  · rw [List.modify_eq_self (by omega)]

@[simp] theorem Slot.withPin_fill (x : Slot) (o : PinOwner) (on : Bool) : (x.withPin o on).fill = x.fill := by cases o <;> rfl

theorem Slot.pinOf_withPin (x : Slot) (o q : PinOwner) (on : Bool) :
    (x.withPin o on).pinOf q = if o = q then on else x.pinOf q := by cases o <;> cases q <;> rfl

theorem Slot.pinned_iff {x : Slot} : x.pinned = true ↔ ∃ o, x.pinOf o = true := by
  constructor
  · intro h
    simp only [Slot.pinned, Bool.or_eq_true] at h
    rcases h with (h | h) | h
    exacts [⟨.freeze, h⟩, ⟨.capture, h⟩, ⟨.job, h⟩]
  · rintro ⟨o, h⟩
    cases o <;> simp_all [Slot.pinned, Slot.pinOf]

theorem Slot.pinned_withPin_true (x : Slot) (o : PinOwner) : (x.withPin o true).pinned = true := by
  cases o <;> simp [Slot.withPin, Slot.pinned]

theorem Slot.pinned_of_withPin_false {x : Slot} {o : PinOwner} (h : (x.withPin o false).pinned = true) : x.pinned = true := by
  cases o <;> simp_all [Slot.withPin, Slot.pinned]
  all_goals tauto

namespace PinView

variable {v w : PinView} {n m : Nat} {o : PinOwner} {on : Bool}

@[simp] theorem pin_newest : (v.pin n o on).newest = v.newest := rfl
@[simp] theorem pin_hold : (v.pin n o on).hold = v.hold := rfl
@[simp] theorem pin_target : (v.pin n o on).target = v.target := rfl
@[simp] theorem pin_pending : (v.pin n o on).pending = v.pending := rfl
@[simp] theorem pin_state : (v.pin n o on).state = v.state := rfl
@[simp] theorem pin_pinned : (v.pin n o on).pinned = v.pinned := rfl
@[simp] theorem pin_run : (v.pin n o on).run = v.run := rfl
@[simp] theorem pin_length : (v.pin n o on).slots.length = v.slots.length := by simp [pin]

theorem pin_slot : (v.pin n o on).slot m = if n = m ∧ m < v.slots.length then (v.slot m).withPin o on else v.slot m := by
  unfold pin slot; exact getD_modify

@[simp] theorem pin_fill : ((v.pin n o on).slot m).fill = (v.slot m).fill := by
  rw [pin_slot]; split <;> simp

/-- After a pin is set or taken off, an owner's pins are as before but for that one. -/
theorem pin_pinOf (q : PinOwner) :
    ((v.pin n o on).slot m).pinOf q = if o = q ∧ n = m ∧ m < v.slots.length then on else (v.slot m).pinOf q := by
  rw [pin_slot]
  by_cases h : n = m ∧ m < v.slots.length
  · rw [if_pos h, Slot.pinOf_withPin]
    simp [h]
  · rw [if_neg h, if_neg fun k => h k.2]

theorem slot_ge (h : v.slots.length ≤ n) : v.slot n = {} := by
  simp [slot, List.getD_eq_getElem?_getD, List.getElem?_eq_none h]

/-- A slot that is pinned, or not FREE, is one of the slots. -/
theorem lt_of_pinOf (h : (v.slot n).pinOf o = true) : n < v.slots.length := by
  by_contra hn
  rw [slot_ge (Nat.le_of_not_lt hn)] at h
  cases o <;> cases h

theorem lt_of_fill (h : (v.slot n).fill ≠ .free) : n < v.slots.length := by
  by_contra hn
  exact h (by rw [slot_ge (Nat.le_of_not_lt hn)])

theorem pin_slot_self (h : n < v.slots.length) : (v.pin n o on).slot n = (v.slot n).withPin o on := by
  rw [pin_slot]; exact if_pos ⟨rfl, h⟩

/-- The count of pinned slots with one slot set aside. -/
theorem count_pin (h : n < v.slots.length) :
    (v.pin n o on).slots.countP Slot.pinned + (if (v.slot n).pinned then 1 else 0)
      = v.slots.countP Slot.pinned + if ((v.pin n o on).slot n).pinned then 1 else 0 := by
  rw [pin_slot_self h]
  exact countP_modify_add v.slots n _ h

theorem count_pin_false_le : (v.pin n o false).slots.countP Slot.pinned ≤ v.slots.countP Slot.pinned := by
  by_cases h : n < v.slots.length
  · have hc := count_pin (o := o) (on := false) h
    rw [pin_slot_self h] at hc
    have := @Slot.pinned_of_withPin_false (v.slot n) o
    split at hc <;> split at hc <;> simp_all
    omega
  · unfold pin; rw [List.modify_eq_self (by omega)]

/-- A pin that the pool grants leaves at most two slots pinned (R10). -/
theorem count_pin_true (h : v.grants n = true) (k : v.slots.countP Slot.pinned ≤ 2) :
    (v.pin n o true).slots.countP Slot.pinned ≤ 2 := by
  by_cases hn : n < v.slots.length
  · have hc := count_pin (o := o) (on := true) hn
    simp only [grants, Bool.or_eq_true, decide_eq_true_eq] at h
    split at hc <;> split at hc <;> simp_all
    omega
  · unfold pin; rwa [List.modify_eq_self (by omega)]

/-- A capture that ends as soon as it has its pin leaves none. -/
theorem endCapture_capturePin : (v.capturePin m).endCapture = { v.pin m .capture false with pinned := none, state := .idle } := by
  have h (f : List Slot) : (f.modify m fun x => x.withPin .capture true).modify m (fun x => x.withPin .capture false)
      = f.modify m fun x => x.withPin .capture false := by
    rw [List.modify_modify_eq]; rfl
  simp [capturePin, endCapture, dropCapture, pin, h]

end PinView
end Sys2Proof.Machine
end

section
namespace Sys2Proof.Machine.PinView

variable {v w : PinView} {n m : Nat} {o : PinOwner} {on : Bool}

/-! ## Releases -/

/-- A release leaves the marks, the frames in hand and the fill states, and the job's pin as its record has it. -/
structure Frame (v w : PinView) : Prop where
  newest : w.newest = v.newest
  hold : w.hold = v.hold
  target : w.target = v.target
  pending : w.pending = v.pending
  run : w.run = v.run
  length : w.slots.length = v.slots.length
  fill : ∀ m, (w.slot m).fill = (v.slot m).fill

theorem Released.frame (h : Released v n o w) : Frame v w := by
  cases h with
  | dropped => exact ⟨rfl, rfl, rfl, rfl, rfl, pin_length, fun _ => pin_fill⟩
  | served m => exact ⟨rfl, rfl, rfl, rfl, rfl, pin_length.trans pin_length, fun _ => pin_fill.trans pin_fill⟩
  | missed m =>
    rw [endCapture_capturePin]
    exact ⟨rfl, rfl, rfl, rfl, rfl, pin_length.trans pin_length, fun _ => pin_fill.trans pin_fill⟩

/-- Of the pins other than the capture's, a release takes off the one released alone. -/
theorem Released.pinOf (h : Released v n o w) (q : PinOwner) (hq : q ≠ .capture) :
    (w.slot m).pinOf q = if o = q ∧ n = m ∧ m < v.slots.length then false else (v.slot m).pinOf q := by
  cases h with
  | dropped => exact pin_pinOf q
  | served k =>
    refine ((pin_pinOf (v := v.pin n o false) q).trans (if_neg fun h => hq h.1.symm)).trans (pin_pinOf q)
  | missed k =>
    rw [endCapture_capturePin]
    refine ((pin_pinOf (v := v.pin n o false) q).trans (if_neg fun h => hq h.1.symm)).trans (pin_pinOf q)

/-- A pin released from a slot that is left unpinned makes one slot fewer pinned. -/
theorem count_pin_off (h : (v.slot n).pinOf o = true) (k : ((v.pin n o false).slot n).pinned = false) :
    (v.pin n o false).slots.countP Slot.pinned + 1 = v.slots.countP Slot.pinned := by
  have hc := count_pin (o := o) (on := false) (lt_of_pinOf h)
  rw [if_pos (Slot.pinned_iff.2 ⟨o, h⟩), k] at hc
  simpa using hc

/-- A release leaves at most two slots pinned, also where it serves a capture (R10, R11). -/
theorem Released.count (h : Released v n o w) (hp : (v.slot n).pinOf o = true) (k : v.slots.countP Slot.pinned ≤ 2) :
    w.slots.countP Slot.pinned ≤ 2 := by
  cases h with
  | dropped => exact count_pin_false_le.trans k
  | served m hn =>
    have := count_pin_off hp hn
    exact count_pin_true (v := v.pin n o false) (by simp only [grants, Bool.or_eq_true, decide_eq_true_eq]; omega) (by omega)
  | missed m =>
    rw [endCapture_capturePin]
    exact (count_pin_false_le (v := v.pin n o false)).trans (count_pin_false_le.trans k)

/-- After a release, the slot released is still pinned, or the pool grants a pin on the newest slot. -/
theorem Released.grants (h : Released v n o w) (hp : (v.slot n).pinOf o = true) (k : v.slots.countP Slot.pinned ≤ 2)
    (hm : v.newest = some m) (hl : m < v.slots.length) : (w.slot n).pinned = true ∨ w.grants m = true := by
  have few {x : PinView} (hx : x.slots.countP Slot.pinned < 2) : x.grants m = true := by simp [PinView.grants, hx]
  cases h with
  | dropped =>
    cases hn : ((v.pin n o false).slot n).pinned with
    | true => exact .inl rfl
    | false => have := count_pin_off hp hn; exact .inr (few (by omega))
  | served m' _ _ hm' =>
    obtain rfl : m' = m := by simpa [hm'] using hm
    refine .inr ?_
    have : (((v.pin n o false).capturePin m').slot m').pinned = true := by
      rw [show ((v.pin n o false).capturePin m').slot m' = _ from pin_slot_self (v := v.pin n o false) (by simpa using hl)]
      exact Slot.pinned_withPin_true _ _
    simp [PinView.grants, this]
  | missed m' hn =>
    have := count_pin_off hp hn
    rw [endCapture_capturePin]
    have hle := count_pin_false_le (v := v.pin n o false) (n := m') (o := .capture)
    exact .inr (few (Nat.lt_of_le_of_lt hle (by omega)))

/-! ## At most two slots pinned -/

/-- A change of fill states leaves every pin. -/
theorem pinned_refill {f : Slot → Slot} (h : ∀ x, ∀ o, (f x).pinOf o = x.pinOf o) (x : Slot) : (f x).pinned = x.pinned := by
  rw [Bool.eq_iff_iff, Slot.pinned_iff, Slot.pinned_iff]
  simp [h]

theorem PinsOk.refill (h : v.PinsOk) {f : Slot → Slot} (hf : ∀ x, ∀ o, (f x).pinOf o = x.pinOf o) :
    PinsOk { v with slots := v.slots.modify n f } := by
  refine ⟨?_, by simpa using h.length, h.newest, h.target, h.pending, fun m hm => ?_⟩
  · exact (countP_modify_same _ _ _ (pinned_refill hf)).le.trans h.count
  · have k := h.job m hm
    show Slot.pinOf (List.getD _ _ _) .job = true
    rw [getD_modify]
    split
    · exact (hf _ .job).trans k
    · exact k

theorem PinsOk.pin_true (h : v.PinsOk) (hg : v.grants n = true) : (v.pin n o true).PinsOk := by
  refine ⟨count_pin_true hg h.count, by simpa using h.length, h.newest, h.target, h.pending, fun m hm => ?_⟩
  show ((v.pin n o true).slot m).pinOf .job = true
  rw [pin_pinOf]
  split
  · rfl
  · exact h.job m hm

/-- A pin other than a job's taken off. -/
theorem PinsOk.pin_false (h : v.PinsOk) (ho : o ≠ .job) : (v.pin n o false).PinsOk := by
  refine ⟨count_pin_false_le.trans h.count, by simpa using h.length, h.newest, h.target, h.pending, fun m hm => ?_⟩
  show ((v.pin n o false).slot m).pinOf .job = true
  rw [pin_pinOf, if_neg fun k => ho k.1]
  exact h.job m hm

theorem PinsOk.release (h : v.PinsOk) (hr : Released v n o w) (hp : (v.slot n).pinOf o = true)
    (hj : ∀ m, w.run = some (some m) → o ≠ .job) : w.PinsOk := by
  have hf := hr.frame
  refine ⟨hr.count hp h.count, hf.length.trans h.length, hf.newest ▸ h.newest, hf.target ▸ h.target, hf.pending ▸ h.pending, fun m hm => ?_⟩
  show (w.slot m).pinOf .job = true
  rw [hr.pinOf .job (by decide), if_neg fun k => hj m hm k.1]
  exact h.job m (hf.run ▸ hm)

/-- Every move keeps at most two slots pinned. -/
theorem Move.pinsOk (hm : Move v w) (h : v.PinsOk) : w.PinsOk := by
  cases hm with
  | choose n g hn =>
    exact { h.refill (n := n) (f := fun x => { x with fill := .filling, geometry := g }) (fun _ o => by cases o <;> rfl) with
      target := fun m e => by cases e; exact hn }
  | untarget t ht => exact { h with target := fun m e => absurd e (ht m) }
  | discard n =>
    exact { h.refill (n := n) (f := fun x => { x with fill := .free }) (fun _ o => by cases o <;> rfl) with target := nofun }
  | wait n e => exact { h with pending := fun m k => by cases k; exact h.target n e, target := nofun }
  | accept n m e k =>
    refine { h.refill (n := n) (f := fun x => { x with fill := .complete }) (fun _ o => by cases o <;> rfl) with
      pending := nofun, newest := fun i hi => ?_ }
    rcases k with rfl | rfl
    · exact h.newest i hi
    · cases hi; exact h.pending n e
  | unmark => exact { h with newest := nofun }
  | display => exact { h with }
  | context => exact { h with }
  | decide => exact { h with }
  | capture m _ hg => exact { h.pin_true (o := .capture) hg with }
  | endCapture =>
    have k : v.dropCapture.PinsOk := by
      unfold dropCapture
      split
      · exact h.pin_false (by decide)
      · exact h
    exact { k with }
  | freeze m _ hg => exact h.pin_true hg
  | unfreeze n _ hp hr => exact h.release hr hp fun _ _ => by decide
  | refreeze n m w hp hn hr =>
    have k := h.release hr hp fun _ _ => by decide
    split
    · exact k.pin_true ‹_›
    · rename_i hg
      have hs := (hr.grants hp h.count hn (h.length ▸ h.newest m hn)).resolve_right hg
      exact k.pin_true (by simp [PinView.grants, hs])
  | startLive m _ hn hg =>
    refine { h.pin_true (o := .job) hg with job := fun i hi => ?_ }
    cases hi
    show ((v.pin m .job true).slot m).pinOf .job = true
    rw [pin_pinOf, if_pos ⟨rfl, rfl, h.length ▸ h.newest m hn⟩]
  | start => exact { h with job := nofun }
  | endJob => exact { h with job := nofun }
  | endLive n w hj hr =>
    have hf := hr.frame
    exact ⟨hr.count (h.job n hj) h.count, hf.length.trans h.length, hf.newest ▸ h.newest, hf.target ▸ h.target,
      hf.pending ▸ h.pending, nofun⟩
  | reset => exact ⟨by decide, rfl, nofun, nofun, nofun, nofun⟩

end Sys2Proof.Machine.PinView
end

section
namespace Sys2Proof.Machine.PinView

variable {v w : PinView} {n m : Nat} {o : PinOwner} {on : Bool}

/-! ## Slots that are newest, held or pinned -/

theorem pinned_pin_of_ne {i : Nat} (h : n ≠ i) : ((v.pin n o on).slot i).pinned = (v.slot i).pinned := by
  rw [pin_slot, if_neg fun k => h k.1]

/-- A slot that is still pinned with a pin taken off was pinned. -/
theorem pinned_of_pin_false {i : Nat} (h : ((v.pin n o false).slot i).pinned = true) : (v.slot i).pinned = true := by
  rw [pin_slot] at h
  split at h
  · exact Slot.pinned_of_withPin_false h
  · exact h

/-- A change of the fill state of a slot that is not newest, held or pinned, or that makes it COMPLETE, keeps what the pins say. -/
theorem SlotsOk.refill (h : v.SlotsOk) {f : Slot → Slot} (hf : ∀ x, ∀ o, (f x).pinOf o = x.pinOf o)
    (hn : (∀ x, (f x).fill = .complete) ∨ (v.newest ≠ some n ∧ v.hold ≠ some n ∧ (v.slot n).pinned = false))
    (ht : ∀ m, v.target ≠ .slot m) (hp : v.pending = none) : SlotsOk { v with slots := v.slots.modify n f } := by
  have hs (i : Nat) : slot { v with slots := v.slots.modify n f } i = if n = i ∧ i < v.slots.length then f (v.slot i) else v.slot i :=
    getD_modify
  have hq (i : Nat) (q : PinOwner) : (slot { v with slots := v.slots.modify n f } i).pinOf q = (v.slot i).pinOf q := by
    rw [hs]; split <;> simp [hf]
  refine ⟨by simpa using h.length, fun i hi => ?_, fun i j hi hj => h.freeze i j ((hq i .freeze).symm.trans hi) ((hq j .freeze).symm.trans hj),
    fun i hi => h.capture i ((hq i .capture).symm.trans hi), h.unpinned, fun i hi => h.job i ((hq i .job).symm.trans hi),
    fun i hi => absurd hi (ht i), fun i hi => by rw [hp] at hi; cases hi⟩
  have hi' : v.newest = some i ∨ v.hold = some i ∨ (v.slot i).pinned = true := by
    refine hi.imp_right (Or.imp_right fun k => ?_)
    obtain ⟨q, hq'⟩ := Slot.pinned_iff.1 k
    exact Slot.pinned_iff.2 ⟨q, (hq i q).symm.trans hq'⟩
  rw [hs]
  split
  · rename_i e
    rcases hn with hn | ⟨h1, h2, h3⟩
    · exact hn _
    · obtain rfl := e.1
      rcases hi' with k | k | k
      exacts [absurd k h1, absurd k h2, absurd k (by simp [h3])]
  · exact h.complete i hi'

/-- A pin taken off, with what is kept of the running job. -/
theorem SlotsOk.pin_off (h : v.SlotsOk) (r : Option (Option Nat))
    (hj : ∀ i, ((v.pin n o false).slot i).pinOf .job = true → r = some (some i)) : SlotsOk { v.pin n o false with run := r } := by
  have hq {i : Nat} (q : PinOwner) (k : ((v.pin n o false).slot i).pinOf q = true) : (v.slot i).pinOf q = true := by
    rw [pin_pinOf] at k
    split at k
    · cases k
    · exact k
  refine ⟨by simpa using h.length, fun i hi => ?_, fun i j hi hj => h.freeze i j (hq .freeze hi) (hq .freeze hj),
    fun i hi => h.capture i (hq .capture hi),
    h.unpinned, hj, fun i hi => ?_, fun i hi => ?_⟩
  · exact pin_fill.trans (h.complete i (hi.imp_right (Or.imp_right pinned_of_pin_false)))
  · exact ⟨pin_fill.trans (h.target i hi).1, (h.target i hi).2⟩
  · exact pin_fill.trans (h.pending i hi)

/-- A slot that is pinned once a pin has been set was pinned, or is the one. -/
theorem pinned_of_pin_true {i : Nat} (h : ((v.pin n o true).slot i).pinned = true) : i = n ∨ (v.slot i).pinned = true := by
  by_cases e : n = i
  · exact .inl e.symm
  · exact .inr ((pinned_pin_of_ne e).symm.trans h)

/-- The capture's pin on the newest slot. -/
theorem SlotsOk.capturePin (h : v.SlotsOk) (hm : v.newest = some m) (hp : v.pinned = none) : (v.capturePin m).SlotsOk := by
  have hs (i : Nat) : (v.capturePin m).slot i = (v.pin m .capture true).slot i := rfl
  have hq (i : Nat) (q : PinOwner) (k : q ≠ .capture) : ((v.capturePin m).slot i).pinOf q = (v.slot i).pinOf q := by
    rw [hs, pin_pinOf, if_neg fun e => k e.1.symm]
  refine ⟨by simpa [PinView.capturePin] using h.length, fun i hi => ?_,
    fun i j hi hj => h.freeze i j ((hq i .freeze (by decide)).symm.trans hi) ((hq j .freeze (by decide)).symm.trans hj), fun i hi => ?_, ?_,
    fun i hi => h.job i ((hq i .job (by decide)).symm.trans hi), fun i hi => ?_, fun i hi => ?_⟩
  · refine pin_fill.trans (h.complete i ?_)
    rcases hi with k | k | k
    · exact .inl k
    · exact .inr (.inl k)
    · rcases pinned_of_pin_true k with rfl | k
      · exact .inl hm
      · exact .inr (.inr k)
  · change ((v.pin m .capture true).slot i).pinOf .capture = true at hi
    rw [pin_pinOf] at hi
    split at hi
    · rename_i e; exact congrArg some e.2.1
    · have := h.capture i hi
      rw [hp] at this; cases this
  · rintro (k | k) <;> cases k
  · exact ⟨pin_fill.trans (h.target i hi).1, (h.target i hi).2⟩
  · exact pin_fill.trans (h.pending i hi)

theorem SlotsOk.endCapture (h : v.SlotsOk) : v.endCapture.SlotsOk := by
  have k : v.dropCapture.SlotsOk ∧ ∀ i, (v.dropCapture.slot i).pinOf .capture = false := by
    unfold dropCapture
    split
    · rename_i n e
      refine ⟨h.pin_off v.run fun i hi => ?_, fun i => ?_⟩
      · rw [pin_pinOf, if_neg fun k => nomatch k.1] at hi
        exact h.job i hi
      · rw [pin_pinOf]
        split
        · rfl
        · rename_i hi
          by_contra k
          rw [Bool.not_eq_false] at k
          have hl := lt_of_pinOf k
          have := h.capture i k
          rw [e] at this
          exact hi ⟨rfl, Option.some.inj this, hl⟩
    · rename_i e
      refine ⟨h, fun i => ?_⟩
      by_contra k
      rw [Bool.not_eq_false] at k
      have := h.capture i k
      rw [e] at this; cases this
  exact { k.1 with capture := fun i hi => absurd (hi.symm.trans (k.2 i)) (by decide), unpinned := fun _ => rfl }

/-- The freeze pin on a COMPLETE slot, with no other. -/
theorem SlotsOk.freezePin (h : v.SlotsOk) (hc : (v.slot n).fill = .complete) (hf : ∀ i, (v.slot i).pinFreeze = false) :
    (v.pin n .freeze true).SlotsOk := by
  have hq (i : Nat) (q : PinOwner) (k : q ≠ .freeze) : ((v.pin n .freeze true).slot i).pinOf q = (v.slot i).pinOf q := by
    rw [pin_pinOf, if_neg fun e => k e.1.symm]
  have only {i : Nat} (k : ((v.pin n .freeze true).slot i).pinFreeze = true) : i = n := by
    change ((v.pin n .freeze true).slot i).pinOf .freeze = true at k
    rw [pin_pinOf] at k
    split at k
    · rename_i e; exact e.2.1.symm
    · exact absurd (k.symm.trans (hf i)) (by decide)
  refine ⟨by simpa using h.length, fun i hi => ?_, fun i j hi hj => (only hi).trans (only hj).symm,
    fun i hi => h.capture i ((hq i .capture (by decide)).symm.trans hi), h.unpinned,
    fun i hi => h.job i ((hq i .job (by decide)).symm.trans hi), fun i hi => ?_, fun i hi => pin_fill.trans (h.pending i hi)⟩
  · refine pin_fill.trans ?_
    rcases hi with k | k | k
    · exact h.complete i (.inl k)
    · exact h.complete i (.inr (.inl k))
    · rcases pinned_of_pin_true k with rfl | k
      · exact hc
      · exact h.complete i (.inr (.inr k))
  · exact ⟨pin_fill.trans (h.target i hi).1, (h.target i hi).2⟩

/-- The job's pin on the newest slot, as it becomes RUNNING. -/
theorem SlotsOk.jobPin (h : v.SlotsOk) (hm : v.newest = some m) (hr : v.run = none) :
    SlotsOk { v.pin m .job true with run := some (some m) } := by
  have hq (i : Nat) (q : PinOwner) (k : q ≠ .job) : ((v.pin m .job true).slot i).pinOf q = (v.slot i).pinOf q := by
    rw [pin_pinOf, if_neg fun e => k e.1.symm]
  refine ⟨by simpa using h.length, fun i hi => ?_,
    fun i j hi hj => h.freeze i j ((hq i .freeze (by decide)).symm.trans hi) ((hq j .freeze (by decide)).symm.trans hj),
    fun i hi => h.capture i ((hq i .capture (by decide)).symm.trans hi), h.unpinned, fun i hi => ?_, fun i hi => ?_,
    fun i hi => pin_fill.trans (h.pending i hi)⟩
  · refine pin_fill.trans (h.complete i ?_)
    rcases hi with k | k | k
    · exact .inl k
    · exact .inr (.inl k)
    · rcases pinned_of_pin_true k with rfl | k
      · exact .inl hm
      · exact .inr (.inr k)
  · change ((v.pin m .job true).slot i).pinOf .job = true at hi
    rw [pin_pinOf] at hi
    split at hi
    · rename_i e; exact congrArg (some ∘ some) e.2.1
    · have := h.job i hi
      rw [hr] at this; cases this
  · exact ⟨pin_fill.trans (h.target i hi).1, (h.target i hi).2⟩

/-- A release, with what is kept of the running job, keeps the invariant. -/
theorem SlotsOk.release (h : v.SlotsOk) (hr : Released v n o w) (r : Option (Option Nat))
    (hj : ∀ i, (w.slot i).pinOf .job = true → r = some (some i)) : SlotsOk { w with run := r } := by
  have hd (i : Nat) : (w.slot i).pinOf .job = ((v.pin n o false).slot i).pinOf .job := by
    rw [hr.pinOf .job (by decide), pin_pinOf]
  have k : SlotsOk { v.pin n o false with run := r } := h.pin_off r fun i hi => hj i ((hd i).trans hi)
  cases hr with
  | dropped => exact k
  | served m _ hs hm => exact k.capturePin hm (h.unpinned (.inr hs))
  | missed m _ hs hm => exact (k.capturePin hm (h.unpinned (.inr hs))).endCapture

/-- A release of the freeze pin. -/
theorem SlotsOk.unfreeze (h : v.SlotsOk) (hr : Released v n .freeze w) : w.SlotsOk := by
  refine h.release hr w.run fun i hi => ?_
  rw [hr.pinOf .job (by decide), if_neg fun k => nomatch k.1] at hi
  exact hr.frame.run ▸ h.job i hi

/-- Every move keeps the slots that are newest, held or pinned COMPLETE, with one pin for each owner. -/
theorem Move.slotsOk (hm : Move v w) (h : v.SlotsOk) : w.SlotsOk := by
  cases hm with
  | choose n g hn hf hp =>
    simp only [fillable, Bool.and_eq_true, decide_eq_true_eq, Bool.not_eq_true'] at hf
    obtain ⟨⟨⟨_, h1⟩, h2⟩, h3⟩ := hf
    have k : SlotsOk { v with target := .standby } := { h with target := nofun }
    have k' := k.refill (n := n) (f := fun x => { x with fill := .filling, geometry := g }) (fun _ o => by cases o <;> rfl)
      (.inr ⟨h1, h2, h3⟩) nofun hp
    refine { k' with target := fun m e => ⟨?_, hp⟩ }
    cases e
    exact congrArg Slot.fill (getD_modify.trans (if_pos ⟨rfl, h.length ▸ hn⟩))
  | untarget t ht => exact { h with target := fun m e => absurd e (ht m) }
  | discard n e =>
    obtain ⟨hf, hp⟩ := h.target n e
    have hn : ¬ (v.newest = some n ∨ v.hold = some n ∨ (v.slot n).pinned = true) := fun k => by
      have := h.complete n k
      rw [hf] at this; cases this
    simp only [not_or, Bool.not_eq_true] at hn
    have k : SlotsOk { v with target := .standby } := { h with target := nofun }
    exact k.refill (f := fun x => { x with fill := .free }) (fun _ o => by cases o <;> rfl) (.inr hn) nofun hp
  | wait n e => exact { h with pending := fun m k => by cases k; exact (h.target n e).1, target := nofun }
  | accept n m e k =>
    have ht (i : Nat) : v.target ≠ .slot i := fun k => by have := (h.target i k).2; rw [e] at this; cases this
    have hl : n < v.slots.length := lt_of_fill (by rw [h.pending n e]; decide)
    have k' : SlotsOk { v with pending := none } := { h with target := fun i hi => absurd hi (ht i), pending := nofun }
    have k' := k'.refill (n := n) (f := fun x => { x with fill := .complete }) (fun _ o => by cases o <;> rfl) (.inl fun _ => rfl) ht rfl
    refine { k' with complete := fun i hi => ?_, pending := nofun }
    rcases hi with hi | hi
    · rcases k with rfl | rfl
      · exact k'.complete i (.inl hi)
      · cases hi
        exact congrArg Slot.fill (getD_modify.trans (if_pos ⟨rfl, hl⟩))
    · exact k'.complete i (.inr hi)
  | unmark => exact { h with complete := fun n hn => h.complete n (.inr (hn.resolve_left nofun)) }
  | display d hd =>
    refine { h with complete := fun n hn => h.complete n ?_ }
    rcases hn with k | k | k
    · exact .inl k
    · rcases hd with rfl | rfl
      · cases k
      · exact .inl k
    · exact .inr (.inr k)
  | context st hs hp =>
    refine { h with unpinned := fun k => hp (k.resolve_left hs) }
  | decide hs => 
    have hp := h.unpinned (.inl hs)
    exact { h with capture := fun n hn => absurd (h.capture n hn) (by simp [hp]), unpinned := fun _ => rfl }
  | capture m hm hg hp => exact h.capturePin hm hp
  | endCapture => exact h.endCapture
  | freeze m hm _ hf =>
    refine h.freezePin (h.complete m (.inl hm)) fun i => ?_
    by_cases hi : i < 5
    · exact hf i hi
    · rw [slot_ge (by rw [h.length]; omega)]
  | unfreeze n _ hp hr => exact h.unfreeze hr
  | refreeze n m w hp hn hr =>
    have k := h.unfreeze hr
    have none (i : Nat) : (w.slot i).pinFreeze = false := by
      show (w.slot i).pinOf .freeze = false
      rw [hr.pinOf .freeze (by decide)]
      split
      · rfl
      · rename_i e
        by_contra c
        rw [Bool.not_eq_false] at c
        exact e ⟨rfl, h.freeze n i hp c, lt_of_pinOf c⟩
    split
    · exact k.freezePin (k.complete m (.inl (hr.frame.newest.trans hn))) none
    · exact k.freezePin ((hr.frame.fill n).trans (h.complete n (.inr (.inr (Slot.pinned_iff.2 ⟨.freeze, hp⟩))))) none
  | startLive m hr hn hg => exact h.jobPin hn hr
  | start hr => exact { h with job := fun n hn => by have := h.job n hn; rw [hr] at this; cases this }
  | endJob hr => exact { h with job := fun n hn => by have := h.job n hn; rw [hr] at this; cases this }
  | endLive n w hj hr =>
    refine h.release hr Option.none fun i hi => ?_
    rw [hr.pinOf .job (by decide)] at hi
    split at hi
    · cases hi
    · rename_i e
      have := h.job i hi
      rw [hj] at this
      cases this
      exact absurd ⟨rfl, rfl, lt_of_pinOf hi⟩ e
  | reset =>
    have hs (n : Nat) : State.reset.pins.slot n = {} := by
      by_cases hn : n < 5
      · exact (by decide : ∀ n, n < 5 → State.reset.pins.slot n = {}) n hn
      · exact slot_ge (Nat.le_of_not_lt hn)
    refine ⟨rfl, fun n hn => ?_, fun n m hn => ?_, fun n hn => ?_, fun _ => rfl, fun n hn => ?_, nofun, nofun⟩
    · rw [hs] at hn
      rcases hn with k | k | k <;> cases k
    all_goals rw [hs] at hn; cases hn

end Sys2Proof.Machine.PinView
end

section
/-! SUPPORT. What every operation keeps of the pins and of the bounds, the shared operations first: it changes the pins by moves alone, and
stays within bounds. -/

namespace Sys2Proof.Machine

set_option Elab.async false

/-- The event queue is in its ring, and every counter and buffer within its size. -/
def State.inBounds (s : State) : Prop := s.queueOk ∧ s.boundsOk

/-- The pins of t come from those of s by moves, and t is in bounds if s is. -/
structure Sound (s t : State) : Prop where
  pins : Relation.ReflTransGen PinView.Move s.pins t.pins
  bounds : s.inBounds → t.inBounds

variable {s t u : State} {a : List Piece}

theorem Sound.refl (s : State) : Sound s s := ⟨.refl, id⟩

theorem Sound.trans (h : Sound s t) (k : Sound t u) : Sound s u := ⟨h.pins.trans k.pins, k.bounds ∘ h.bounds⟩

/-- A change that neither pins nor bounds speak of. -/
theorem Sound.same (hp : t.pins = s.pins := by rfl) (hb : s.inBounds → t.inBounds := by exact id) : Sound s t :=
  ⟨hp ▸ .refl, hb⟩

theorem Sound.move (h : PinView.Move s.pins t.pins) (hb : s.inBounds → t.inBounds := by exact id) : Sound s t := ⟨.single h, hb⟩

/-- A change of no piece that carries pins leaves them. -/
theorem Unchanged.pins (h : Unchanged a s t) (k : ∀ p ∈ [Piece.slots, .shape, .buffer, .context, .runningJob], p ∉ a := by decide) :
    t.pins = s.pins := by
  have h1 := h .slots (k _ (by simp))
  have h2 := h .shape (k _ (by simp))
  have h3 := h .buffer (k _ (by simp))
  have h4 := h .context (k _ (by simp))
  have h5 := h .runningJob (k _ (by simp))
  simp only [same] at h1 h2 h3 h4 h5
  simp [State.pins, h1, h2, h3, h4, h5]

/-- A change of no piece that has bounds stays in bounds. -/
theorem Unchanged.inBounds (h : Unchanged a s t)
    (k : ∀ p ∈ [Piece.instability, .buffer, .chain, .records, .fifo, .lost, .events, .setup], p ∉ a := by decide) :
    s.inBounds → t.inBounds := by
  have h1 := h .instability (k _ (by simp))
  have h2 := h .buffer (k _ (by simp))
  have h3 := h .chain (k _ (by simp))
  have h4 := h .records (k _ (by simp))
  have h5 := h .fifo (k _ (by simp))
  have h6 := h .lost (k _ (by simp))
  have h7 := h .events (k _ (by simp))
  have h8 := h .setup (k _ (by simp))
  simp only [same] at h1 h2 h3 h4 h5 h6 h7 h8
  simp [State.inBounds, State.queueOk, State.boundsOk, h1, h2, h3, h4, h5, h6, h7, h8]

theorem Unchanged.sound (h : Unchanged a s t)
    (k : ∀ p ∈ [Piece.slots, .shape, .buffer, .context, .runningJob], p ∉ a := by decide)
    (b : ∀ p ∈ [Piece.instability, .buffer, .chain, .records, .fifo, .lost, .events, .setup], p ∉ a := by decide) : Sound s t :=
  .same (h.pins k) (h.inBounds b)

/-! ## Sending -/

/-- With a record queue within its room, a change of the port stays in bounds. -/
theorem State.inBounds_port {p : MemoryPort} (h : s.inBounds) (k : p.queue.length ≤ 32) : State.inBounds { s with port := p } := by
  obtain ⟨hq, hi, hb, hc, -, hr⟩ := h
  exact ⟨hq, hi, hb, hc, k, hr⟩

theorem State.inBounds.room (h : s.inBounds) : s.port.queue.length ≤ 32 := h.2.2.2.2.1

theorem State.hold_sound (s : State) (o : Output) : Sound s (s.hold o) := .same

theorem State.setCause_sound (s : State) (c : Cause) : Sound s (s.setCause c) := .same

theorem State.makeGrant_sound (s : State) : Sound s s.makeGrant := s.makeGrant_unchanged.sound

theorem State.settle_sound (s : State) : Sound s s.settle := s.settle_unchanged.sound

theorem State.join_sound (s : State) (issuer actor : Block) (op : RecordOp) : Sound s (s.join issuer actor op) := by
  refine .same (s.join_unchanged issuer actor op).pins fun h => ?_
  rcases s.join_is issuer actor op with ⟨-, hl, e⟩ | ⟨-, blocks, -, e⟩
  · rw [e]
    exact (State.makeGrant_sound _).bounds (State.inBounds_port h (by simpa using hl))
  · rw [e]
    exact State.inBounds_port h h.room

theorem State.put_sound (s : State) (b : Block) (x : Sent) : Sound s (s.put b x) := by
  cases x with
  | op issuer op =>
    unfold State.put
    dsimp only
    split
    · exact s.hold_sound _
    · exact s.join_sound _ _ _
  | event => exact .same
  | cause => exact s.setCause_sound _
  | safe => exact .same

theorem State.emit_sound (s : State) (b : Block) (x : Sent) : Sound s (s.emit b x) := by
  unfold State.emit
  split
  · exact s.hold_sound _
  · exact s.put_sound b x

theorem State.emitAll_sound (l : List Output) (s : State) : Sound s (s.emitAll l) := by
  induction l generalizing s with
  | nil => exact .refl s
  | cons o l ih => exact (s.emit_sound _ _).trans (ih _)

theorem State.release_sound (s : State) : Sound s s.release :=
  (Sound.same : Sound s { s with port.later := [] }).trans (State.emitAll_sound _ _)

theorem State.issue_sound (s : State) (actor issuer : Block) (op : RecordOp) : Sound s (s.issue actor issuer op) := s.emit_sound _ _

theorem State.issueWrite_sound (s : State) (actor issuer : Block) (runs : List (Nat × List Byte)) :
    Sound s (s.issueWrite actor issuer runs) := s.issue_sound _ _ _

theorem State.liveField_sound (s : State) (actor : Block) (off size value : Nat) : Sound s (s.liveField actor off size value) :=
  s.issueWrite_sound _ _ _

theorem State.raise_sound (s : State) (o : Block) (k : EventKind) (n a b : Nat) : Sound s (s.raise o k n a b) := s.emit_sound _ _

/-! ## Live fields -/

theorem State.setChain_sound (s : State) (b : Bool) : Sound s (s.setChain b) := by
  unfold State.setChain
  split
  · exact .refl s
  · exact (Sound.same : Sound s { s with capture.running := b }).trans (State.liveField_sound _ _ _ _ _)

theorem State.setLesson_sound (s : State) (b : Bool) : Sound s (s.setLesson b) := by
  unfold State.setLesson
  split
  · exact .refl s
  · exact (Sound.same : Sound s { s with capture.lessonOpen := b }).trans (State.liveField_sound _ _ _ _ _)

theorem State.setCounter_sound (s : State) (n : Nat) : Sound s (s.setCounter n) := by
  unfold State.setCounter
  split
  · exact .refl s
  · exact (Sound.same : Sound s { s with capture.counter := n }).trans (State.liveField_sound _ _ _ _ _)

theorem State.setSuspended_sound (s : State) (b : Bool) : Sound s (s.setSuspended b) := by
  unfold State.setSuspended
  split
  · exact .refl s
  · exact (Sound.same : Sound s { s with intake.suspended := b }).trans (State.liveField_sound _ _ _ _ _)

theorem State.voidScan_sound (s : State) : Sound s s.voidScan := .same

theorem State.setDegraded_sound (s : State) (b : Bool) : Sound s (s.setDegraded b) := by
  have h : Sound s { s with feeder.degraded := b } := .same
  unfold State.setDegraded
  split
  · exact .refl s
  · split
    · exact (h.trans (State.voidScan_sound _)).trans (State.liveField_sound _ _ _ _ _)
    · exact h.trans (State.liveField_sound _ _ _ _ _)

/-- The context's state with its live field: the pins follow in each use. -/
theorem State.setContextState_pins (s : State) (c : ContextState) : (s.setContextState c).pins = { s.pins with state := c } := by
  unfold State.setContextState
  split
  · rename_i h; rw [← h]; rfl
  · exact (State.liveField_unchanged _ _ _ _ _).pins

theorem State.setContextState_inBounds (s : State) (c : ContextState) (h : s.inBounds) : (s.setContextState c).inBounds := by
  unfold State.setContextState
  split
  · exact h
  · exact (State.liveField_sound { s with capture.context.state := c } _ _ _ _).bounds h

theorem State.setContextState_sound (s : State) {c : ContextState} (hc : c ≠ .idle)
    (hp : c = .waitingPin → s.capture.context.pinned = none) : Sound s (s.setContextState c) := by
  refine .move ?_ (s.setContextState_inBounds c)
  rw [s.setContextState_pins]
  exact .context c hc hp

theorem State.setCredit_sound (s : State) {n : Nat} (hn : s.inBounds → n ≤ 255) : Sound s (s.setCredit n) := by
  unfold State.setCredit
  split
  · exact .refl s
  · refine (Sound.same rfl fun h => ?_ : Sound s { s with capture.credit := n }).trans (State.liveField_sound _ _ _ _ _)
    have hc := hn h
    obtain ⟨hq, hi, hb, -, hr⟩ := h
    exact ⟨hq, hi, hb, hc, hr⟩

theorem State.setInstability_sound (s : State) {n : Nat} (hn : s.inBounds → n ≤ 32) : Sound s (s.setInstability n) := by
  unfold State.setInstability
  split
  · exact .refl s
  · refine (Sound.same rfl fun h => ?_ : Sound s { s with intake.instability := n }).trans (State.liveField_sound _ _ _ _ _)
    exact ⟨h.1, hn h, h.2.2⟩

theorem State.setLost_sound (s : State) {n : Nat} (hn : n ≤ 65535) : Sound s (s.setLost n) := by
  unfold State.setLost
  split
  · exact .refl s
  · refine (Sound.same rfl fun h => ?_ : Sound s { s with post.lost := n }).trans (State.liveField_sound _ _ _ _ _)
    obtain ⟨hq, hi, hb, hc, hr, hf, -, hs⟩ := h
    exact ⟨hq, hi, hb, hc, hr, hf, hn, hs⟩

/-! ## Events -/

theorem State.signalReady_sound (s : State) : Sound s s.signalReady :=
  (Sound.same : Sound s { s.stopTimer with post.unsignalled := 0 }).trans (State.emit_sound _ _ _)

theorem State.resolveHoldoff_sound (s : State) : Sound s s.resolveHoldoff := by
  unfold State.resolveHoldoff
  split
  · exact s.signalReady_sound
  · exact .refl s

theorem State.moderate_sound (s : State) : Sound s s.moderate := by
  unfold State.moderate
  split
  · exact s.signalReady_sound
  · split <;> exact .same

/-- A position less than twice around the ring. -/
theorem mod_of_lt_twice {x size : Nat} (h : x < size + size) : x % size = if x < size then x else x - size := by
  split
  · exact Nat.mod_eq_of_lt ‹_›
  · rw [Nat.mod_eq_sub_mod (by omega), Nat.mod_eq_of_lt (by omega)]

/-- With a record put, put stands the fill level after get again (R173). -/
theorem ring_put {size get fill : Nat} (hg : get < size) (hf : fill < size) :
    ringNext size ((get + fill) % size) = (get + (fill + 1)) % size := by
  unfold ringNext
  rw [mod_of_lt_twice (by omega), mod_of_lt_twice (by omega)]
  split <;> split <;> split <;> omega

theorem State.writeEvent_sound (s : State) (k : EventKind) (n a b f : Nat) (hf : s.post.fill < s.post.setup.queueSize) :
    Sound s (s.writeEvent k n a b f) := by
  refine .same (s.writeEvent_unchanged k n a b f).pins fun h => ?_
  unfold State.writeEvent
  refine (State.moderate_sound _).bounds ((State.liveField_sound _ _ _ _ _).bounds ?_)
  have h1 := (s.issueWrite_sound .post .post
    [(Config.eventBase + 16 * s.post.put, eventBytes k.value n s.post.sequence f a b)]).bounds h
  generalize hx : s.issueWrite .post .post _ = x at h1 ⊢
  have hp : x.post = s.post := by rw [← hx, State.issueWrite_post]
  obtain ⟨⟨h0, hg, -, hq⟩, hi, hb, hc, hr, hf', hl, -⟩ := h1
  rw [hp] at h0 hg hq hf' hl
  exact ⟨⟨by simpa [hp] using h0, by simpa [hp] using hg, by simpa [hp] using hf,
    by simpa [hp, hq] using ring_put hg hf⟩, hi, hb, hc, hr, by simpa [hp] using hf', by simpa [hp] using hl,
    Nat.mod_lt _ (by decide)⟩

theorem State.loseEvent_sound (s : State) : Sound s s.loseEvent :=
  (s.setLost_sound (Nat.min_le_left _ _)).trans (State.emit_sound _ _ _)

theorem State.takeEvent_sound (s : State) (k : EventKind) (n a b f : Nat) : Sound s (s.takeEvent k n a b f) := by
  unfold State.takeEvent
  simp only []
  refine s.resolveHoldoff_sound.trans ?_
  split
  · exact State.writeEvent_sound _ _ _ _ _ _ ‹_›
  · exact State.loseEvent_sound _

/-! ## Error-correcting code -/

theorem State.reportUncorrectable_sound (s : State) (q : Requester) (w : Nat) : Sound s (s.reportUncorrectable q w) :=
  (Sound.same : Sound s (State.setCause { s with port.uncorrectable := satInc Config.counterMax s.port.uncorrectable } _)).trans
    (State.raise_sound _ _ _ _ _ _)

theorem State.codeWord_sound (s : State) (q : Requester) (whole : Bool) (w : Nat) : Sound s (s.codeWord q whole w) := by
  unfold State.codeWord
  split
  · exact .same
  · split
    · exact s.reportUncorrectable_sound q w
    · split
      · exact .same
      · exact .refl s

theorem State.codeWords_sound (q : Requester) (lo hi w n : Nat) (s : State) : Sound s (s.codeWords q lo hi w n) := by
  induction n generalizing s w with
  | zero => exact .refl s
  | succ n ih => exact (s.codeWord_sound q _ w).trans (ih _ _)

theorem State.store_sound (s : State) (q : Requester) (addr : Nat) (bytes : List Byte) : Sound s (s.store q addr bytes) := by
  unfold State.store
  split
  · exact .refl s
  · exact (Sound.same : Sound s { s with mem := s.mem.writeBytes addr bytes }).trans (State.codeWords_sound _ _ _ _ _ _)

theorem State.storeRuns_sound (q : Requester) (runs : List (Nat × List Byte)) (s : State) : Sound s (s.storeRuns q runs) := by
  induction runs generalizing s with
  | nil => exact .refl s
  | cons r rest ih => exact (s.store_sound q r.1 r.2).trans (ih _)

theorem State.countCorrectable_sound (s : State) : Sound s s.countCorrectable := .same

theorem State.checkWords_sound (q : Requester) (w n : Nat) (s : State) : Sound s (s.checkWords q w n).1 := by
  induction n generalizing s w with
  | zero => exact .refl s
  | succ n ih =>
    unfold State.checkWords
    split
    · exact s.reportUncorrectable_sound q w
    · split
      · exact s.countCorrectable_sound.trans (ih _ _)
      · exact ih _ _

theorem State.load_sound (s : State) (q : Requester) (addr n : Nat) : Sound s (s.load q addr n).1 := by
  have h := State.checkWords_sound q (addr / 4) ((addr + n + 3) / 4 - addr / 4) s
  unfold State.load
  split <;> simp_all

/-! ### The record queue is not touched by what a transfer meets -/

theorem State.reportUncorrectable_queue (s : State) (q : Requester) (w : Nat) :
    (s.reportUncorrectable q w).port.queue = s.port.queue := by
  simp [State.reportUncorrectable]

theorem State.codeWord_queue (s : State) (q : Requester) (whole : Bool) (w : Nat) :
    (s.codeWord q whole w).port.queue = s.port.queue := by
  unfold State.codeWord
  split
  · rfl
  · split
    · exact s.reportUncorrectable_queue q w
    · split <;> rfl

theorem State.codeWords_queue (q : Requester) (lo hi w n : Nat) (s : State) :
    (s.codeWords q lo hi w n).port.queue = s.port.queue := by
  induction n generalizing s w with
  | zero => rfl
  | succ n ih => exact (ih _ _).trans (s.codeWord_queue q _ w)

theorem State.store_queue (s : State) (q : Requester) (addr : Nat) (bytes : List Byte) :
    (s.store q addr bytes).port.queue = s.port.queue := by
  unfold State.store
  split
  · rfl
  · exact State.codeWords_queue _ _ _ _ _ _

theorem State.checkWords_queue (q : Requester) (w n : Nat) (s : State) : (s.checkWords q w n).1.port.queue = s.port.queue := by
  induction n generalizing s w with
  | zero => rfl
  | succ n ih =>
    unfold State.checkWords
    split
    · exact s.reportUncorrectable_queue q w
    · split <;> exact ih _ _

theorem State.load_queue (s : State) (q : Requester) (addr n : Nat) : (s.load q addr n).1.port.queue = s.port.queue := by
  have h := State.checkWords_queue q (addr / 4) ((addr + n + 3) / 4 - addr / 4) s
  unfold State.load
  split <;> simp_all

/-! ## The index, and the engine's taking of work -/

theorem State.setEntry_sound (s : State) (n : Nat) (e : IndexEntry) : Sound s (s.setEntry n e) := .same

theorem State.writeEntry_sound (s : State) (b : Block) (n : Nat) (e : IndexEntry) : Sound s (s.writeEntry b n e) :=
  (s.setEntry_sound n e).trans (State.issueWrite_sound _ _ _ _)

theorem State.setEntryState_sound (s : State) (b : Block) (n : Nat) (x : EntryState) : Sound s (s.setEntryState b n x) :=
  (s.setEntry_sound n _).trans (State.issueWrite_sound _ _ _ _)

theorem State.insertEntry_sound {b : Block} {e : IndexEntry} {n : Nat} (h : s.insertEntry b e = some (t, n)) : Sound s t := by
  unfold State.insertEntry at h
  split at h
  · cases h; exact s.writeEntry_sound _ _ e
  · split at h
    · cases h; exact (s.writeEntry_sound _ _ e).trans (State.raise_sound _ _ _ _ _ _)
    · cases h

theorem State.scanFrom_sound (s : State) (sc : Scan) (n : Nat) : Sound s (s.scanFrom sc n) := by
  unfold State.scanFrom
  split
  · exact (Sound.same : Sound s { s with jobs.scan := _ }).trans (State.issue_sound _ _ _ _)
  · exact .same

theorem State.startUnit_sound (s : State) (w : Work) (ps : List Part) : Sound s (s.startUnit w ps) :=
  (s.startUnit_unchanged w ps).sound

theorem State.takeWork_sound (s : State) : Sound s s.takeWork := by
  rcases s.takeWork_is with h | ⟨w, ps, h⟩ | ⟨w, ps, h⟩ | ⟨j, w, ps, hj, h⟩ | ⟨_, h⟩ <;> rw [h]
  · exact .refl s
  · exact s.startUnit_sound w ps
  · exact (Sound.same : Sound s { s with capture.context.next := s.capture.context.next + 1 }).trans (State.startUnit_sound _ _ _)
  · refine (Sound.same ?_ : Sound s { s with jobs.running := some { j with next := j.next + 1 } }).trans (State.startUnit_sound _ _ _)
    simp [State.pins, hj]
  · exact s.scanFrom_sound _ _

theorem State.dropUnit_sound (s : State) : Sound s s.dropUnit := s.dropUnit_unchanged.sound

theorem State.close_sound (s0 s : State) : Sound s (s0.close s) := (s0.close_unchanged s).sound

theorem State.closeWork_sound (s0 s : State) : Sound s (s0.closeWork s) := s.takeWork_sound.trans (s0.close_sound _)

/-! ## The record queue -/

theorem State.writeOutcome_sound (s : State) (n : Nat) (e : JobEntry) : Sound s (s.writeOutcome n e) :=
  (s.setJobEntry_unchanged n e).sound.trans (State.issueWrite_sound _ _ _ _)

theorem State.writePieces_sound (s : State) (n d : Nat) : Sound s (s.writePieces n d) :=
  (s.setJobEntry_unchanged n _).sound.trans (State.issueWrite_sound _ _ _ _)

theorem State.endEntry_sound (s : State) (n : Nat) (st : JobState) (r : Nat) : Sound s (s.endEntry n st r) :=
  (s.writeOutcome_sound n _).trans (State.raise_sound _ _ _ _ _ _)

theorem State.popRecord_sound (s : State) : Sound s s.popRecord :=
  .same rfl fun h => State.inBounds_port (s := { s with control.safeAfter := s.control.safeAfter.map (· - 1) }) h
    (by have := h.room; simp only [List.length_tail]; omega)

/-- The operation at the head of the queue is replaced by what is left of it. -/
theorem State.setHead_sound (s : State) (op : RecordOp) (hq : s.port.queue ≠ []) : Sound s (s.setHead op) := by
  refine .same rfl fun h => State.inBounds_port h ?_
  have := h.room
  have := List.length_pos_iff.2 hq
  simp only [List.length_cons, List.length_tail]
  omega

theorem State.scanRead_sound (s : State) (n : Nat) (r : ReadState) : Sound s (s.scanRead n r) := by
  unfold State.scanRead
  split
  · exact .refl s
  · split
    · exact s.scanFrom_sound _ _
    · split
      · exact (s.endEntry_sound _ _ _).trans (State.scanFrom_sound _ _ _)
      · exact s.scanFrom_sound _ _

theorem State.deliver_sound (s : State) (q : Reader) (r : ReadState) : Sound s (s.deliver q r) := by
  cases q with
  | job n => exact s.scanRead_sound n r
  | _ => exact .same

theorem State.recordReadBurst_sound (s : State) (q : Reader) (addr : Nat) (got : List Byte) (hq : s.port.queue ≠ []) :
    Sound s (s.recordReadBurst q addr got) := by
  have h := s.load_sound .record (addr + got.length) (min (64 - (addr + got.length) % 64) (readLength q got - got.length))
  have k := s.load_queue .record (addr + got.length) (min (64 - (addr + got.length) % 64) (readLength q got - got.length))
  unfold State.recordReadBurst
  simp only []
  split
  next s' he =>
    rw [he] at h
    exact (h.trans s'.popRecord_sound).trans (State.deliver_sound _ _ _)
  next s' bytes he =>
    rw [he] at h k
    split
    · exact (h.trans s'.popRecord_sound).trans (State.deliver_sound _ _ _)
    · exact h.trans (s'.setHead_sound _ (k ▸ hq))

theorem State.recordBurst_sound (s : State) : Sound s s.recordBurst := by
  unfold State.recordBurst
  split
  · exact .refl s
  · exact s.popRecord_sound
  · exact (s.store_sound _ _ _).trans (State.popRecord_sound _)
  · exact (s.store_sound _ _ _).trans (State.setHead_sound _ _ (by simp [State.store_queue, *]))
  · exact s.recordReadBurst_sound _ _ _ (by simp [*])

/-! ## Modes, the admission of what waits, and the performing of the queue -/

theorem State.enterMode_sound (s : State) (m : Mode) : Sound s (s.enterMode m) := by
  unfold State.enterMode
  exact (Sound.same : Sound s { s with control := _ }).trans (State.liveField_sound _ _ _ _ _)

theorem State.changeMode_sound (s : State) (m : Mode) (cause : Nat) : Sound s (s.changeMode m cause) :=
  (s.enterMode_sound m).trans (State.raise_sound _ _ _ _ _ _)

theorem State.shutdownTest_sound (s : State) : Sound s s.shutdownTest := by
  unfold State.shutdownTest
  split
  · exact (s.changeMode_sound _ _).trans (State.raise_sound _ _ _ _ _ _)
  · exact .refl s

theorem State.admitBlocked_sound (s : State) : Sound s s.admitBlocked := by
  unfold State.admitBlocked
  split
  · exact .refl s
  · rename_i w rest _
    split
    · rename_i hl
      have h : Sound s { s with port.queue := s.port.queue ++ [w.op], port.blocked := rest } :=
        .same rfl fun k => State.inBounds_port k (by simpa using hl)
      exact ((h.trans (State.makeGrant_sound _)).trans (State.release_sound _)).trans (State.shutdownTest_sound _)
    · exact .refl s

theorem State.drainUntil_sound (enough : State → Bool) (n : Nat) (s : State) : Sound s (State.drainUntil enough n s) := by
  induction n generalizing s with
  | zero => exact .refl s
  | succ n ih =>
    unfold State.drainUntil
    split
    · exact .refl s
    · exact (s.admitBlocked_sound.trans (State.recordBurst_sound _)).trans (ih _)

theorem State.drain_sound (s : State) (enough : State → Bool) : Sound s (s.drain enough) :=
  (State.drainUntil_sound _ _ _).trans (State.settle_sound _)

/-! ## Post words -/

theorem State.stopReaction_sound (s : State) : Sound s s.stopReaction := .same

theorem State.wordTaken_sound (s : State) {w : Word} {rest : List Word} (h : s.post.fifo = w :: rest) : Sound s (s.wordTaken rest) := by
  have k : Sound s { s with post.fifo := rest } := by
    refine .same rfl fun ⟨hq, hi, hb, hc, hr, hf, hs⟩ => ⟨hq, hi, hb, hc, hr, ?_, hs⟩
    rw [h, List.length_cons] at hf
    exact Nat.le_of_succ_le hf
  unfold State.wordTaken
  simp only []
  split
  · exact k.trans (State.stopReaction_sound _)
  · exact k

theorem headWord_fifo {kind : Nat} {w : Word} {rest : List Word} (h : s.headWord kind = some (w, rest)) : s.post.fifo = w :: rest := by
  unfold State.headWord at h
  split at h
  · split at h <;> cases h
    assumption
  · cases h

end Sys2Proof.Machine
end

section
/-! SUPPORT. What the capture unit's and the job runner's operations keep of the pins and of the bounds. -/

namespace Sys2Proof.Machine

set_option Elab.async false

variable {s t u : State} {a : List Piece}

/-! ## The end of a capture -/

theorem PinView.state_endCapture (v : PinView) (st : ContextState) : ({ v with state := st } : PinView).endCapture = v.endCapture := by
  unfold PinView.endCapture PinView.dropCapture
  cases h : v.pinned <;> simp [h, PinView.pin]

theorem State.dropPin_pins (s : State) (n : Nat) (o : PinOwner) : (s.dropPin n o).pins = s.pins.pin n o false := rfl

theorem State.dropCapturePin_pins (s : State) : s.dropCapturePin.pins = s.pins.dropCapture := by
  unfold State.dropCapturePin PinView.dropCapture
  cases h : s.capture.context.pinned <;> simp [h, State.pins, State.dropPin, State.modifySlot, PinView.pin]

theorem State.clearContext_pins (s : State) : s.clearContext.pins = { s.pins with state := .idle, pinned := none } := by
  simp [State.clearContext, State.pins, State.stopCount, State.abandonRead]

theorem State.abandonRead_sound (s : State) : Sound s s.abandonRead :=
  .same rfl fun h => State.inBounds_port (s := { s with capture.read := .idle }) h (by simpa using h.room)

theorem State.clearContext_inBounds (s : State) (h : s.inBounds) : s.clearContext.inBounds :=
  (State.abandonRead_sound (s.setContextState .idle).stopCount).bounds (s.setContextState_inBounds .idle h)

theorem State.withdraw_sound (s : State) : Sound s s.withdraw := by
  unfold State.withdraw
  split
  · exact s.setEntryState_sound _ _ _
  · exact .refl s

theorem State.missCapture_pins (s : State) (r : Nat) : (s.missCapture r).pins = s.pins.endCapture := by
  unfold State.missCapture
  simp only []
  rw [(State.raise_unchanged _ _ _ _ _ _).pins, State.clearContext_pins, (State.withdraw_unchanged _).pins,
    State.dropCapturePin_pins]
  rfl

theorem State.missCapture_sound (s : State) (r : Nat) : Sound s (s.missCapture r) := by
  refine .move (s.missCapture_pins r ▸ .endCapture) fun h => ?_
  refine (State.raise_sound _ _ _ _ _ _).bounds (State.clearContext_inBounds _ ?_)
  exact (State.withdraw_sound _).bounds (s.dropCapturePin_unchanged.inBounds (by decide) h)

theorem State.missDecision_sound (s : State) (r : Nat) (k : Reason) : Sound s (s.missDecision r k) := s.raise_sound _ _ _ _ _

/-- The chain is stopped with CHAIN_FAULT (R116). -/
theorem State.stopChain_unchanged (s : State) (k : Nat) :
    Unchanged [.chain, .records, .arbiter, .raised] s
      ((s.setCredit 0).setChain false |>.raise .capture .chainFault k s.capture.head s.capture.context.page) :=
  .comp (.comp (s.setCredit_unchanged 0) (State.setChain_unchanged _ _) (c := [.chain, .records, .arbiter]))
    (State.raise_unchanged _ _ _ _ _ _)

theorem State.chainFault_pins (s : State) (k : Nat) : (s.chainFault k).pins = s.pins.endCapture := by
  unfold State.chainFault
  rw [State.missCapture_pins, (s.stopChain_unchanged k).pins]

theorem State.chainFault_sound (s : State) (k : Nat) : Sound s (s.chainFault k) :=
  (((s.setCredit_sound fun _ => by decide).trans (State.setChain_sound _ _)).trans (State.raise_sound _ _ _ _ _ _)).trans
    (State.missCapture_sound _ _)

/-! ## The pin of a capture, and what follows it -/

theorem State.readHead_pins (s : State) : s.readHead.pins = s.pins ∨ s.readHead.pins = s.pins.endCapture := by
  unfold State.readHead
  split
  · exact .inr (s.chainFault_pins _)
  · exact .inl (State.issue_unchanged { s with capture.read := .waiting } _ _ _).pins

theorem State.readHead_sound (s : State) : Sound s s.readHead := by
  unfold State.readHead
  split
  · exact s.chainFault_sound _
  · exact (Sound.same : Sound s { s with capture.read := .waiting }).trans (State.issue_sound _ _ _ _)

/-- After the check of chain and credit the capture waits for a slot, or has ended (R113). -/
theorem State.checkChain_pins (s : State) :
    s.checkChain.pins = { s.pins with state := .waitingSlot } ∨ s.checkChain.pins = s.pins.endCapture := by
  have h := s.setContextState_pins .waitingSlot
  have he : (s.setContextState .waitingSlot).pins.endCapture = s.pins.endCapture := by rw [h, PinView.state_endCapture]
  unfold State.checkChain
  simp only []
  split
  · exact .inr ((State.missCapture_pins _ _).trans he)
  · split
    · exact .inl h
    · exact (State.readHead_pins _).imp (·.trans h) (·.trans he)

theorem State.checkChain_sound (s : State) : Sound s s.checkChain := by
  have h := s.setContextState_sound (c := .waitingSlot) (by decide) nofun
  unfold State.checkChain
  simp only []
  refine h.trans ?_
  split
  · exact State.missCapture_sound _ _
  · split
    · exact .same
    · exact State.readHead_sound _

/-- A capture that has its pin waits for a slot with it, or has ended at once. -/
theorem State.capturePinned_pins (s : State) (n : Nat) :
    (s.capturePinned n).pins = s.pins.capturePin n ∨ (s.capturePinned n).pins = (s.pins.capturePin n).endCapture := by
  unfold State.capturePinned
  refine (State.checkChain_pins _).imp (·.trans rfl) fun h => h.trans ?_
  exact (PinView.state_endCapture _ .waitingSlot).symm

theorem State.capturePinned_inBounds (s : State) (n : Nat) (h : s.inBounds) : (s.capturePinned n).inBounds := by
  refine (State.checkChain_sound _).bounds ?_
  exact (s.givePin_unchanged n .capture).inBounds (by decide) h

/-- The capture's pin, granted on the newest slot. -/
theorem State.capturePinned_sound (s : State) {n : Nat} (hn : s.intake.newest = some n) (hg : s.intake.poolGrants n = true)
    (hp : s.capture.context.pinned = none) : Sound s (s.capturePinned n) := by
  have h : PinView.Move s.pins (s.pins.capturePin n) := .capture n hn hg hp
  refine ⟨?_, s.capturePinned_inBounds n⟩
  rcases s.capturePinned_pins n with e | e <;> rw [e]
  · exact .single h
  · exact .tail (.single h) .endCapture

theorem State.requestCapturePin_sound (s : State) (hp : s.capture.context.pinned = none) : Sound s s.requestCapturePin := by
  have h : Sound s (s.setContextState .waitingPin) := s.setContextState_sound (by decide) fun _ => hp
  unfold State.requestCapturePin
  split
  · split
    · exact s.capturePinned_sound ‹_› ‹_› hp
    · exact h
  · exact h

/-- A release takes the pin off, and may serve a waiting capture (R11). -/
theorem State.releasePin_pins (s : State) (n : Nat) (o : PinOwner) : PinView.Released s.pins n o (s.releasePin n o).pins := by
  unfold State.releasePin
  simp only []
  split
  · rename_i h
    split
    · rename_i m hm
      have hn : ((s.pins.pin n o false).slot n).pinned = false := Bool.not_eq_true' _ ▸ h.1
      rcases (s.dropPin n o).capturePinned_pins m with e | e <;> rw [e]
      · exact .served m hn h.2 hm
      · exact .missed m hn h.2 hm
    · exact .dropped
  · exact .dropped

theorem State.releasePin_inBounds (s : State) (n : Nat) (o : PinOwner) (h : s.inBounds) : (s.releasePin n o).inBounds := by
  have hd : (s.dropPin n o).inBounds := (s.dropPin_unchanged n o).inBounds (by decide) h
  unfold State.releasePin
  simp only []
  split
  · split
    · exact State.capturePinned_inBounds _ _ hd
    · exact hd
  · exact hd

theorem State.fillContext_sound (s : State) (k : Reason) (f : Nat) (g : Signature) (l : Levels) (hs : s.capture.context.state = .idle) :
    Sound s (s.fillContext k f g l) := by
  unfold State.fillContext
  simp only []
  split
  · exact .refl s
  · rename_i t n h
    have hx : Sound s t := (s.setCounter_sound _).trans (State.insertEntry_sound h)
    have hi : t.capture.context.state = .idle := by
      have k1 : (s.setCounter (s.capture.counter + 1)).capture.context = s.capture.context := by simp
      have k2 := (State.insertEntry_unchanged h) .context (by decide)
      rw [show t.capture.context = _ from k2, k1, hs]
    refine (hx.trans (.move ?_)).trans (State.requestCapturePin_sound _ rfl)
    have : PinView.Move t.pins { t.pins with pinned := none } := .decide hi
    rwa [show ({ t.pins with pinned := none } : PinView) = { t.pins with pinned := none, state := .idle } from by rw [← hi]; rfl] at this

theorem State.takeDecision_sound (s : State) (k : Reason) (f : Nat) (g : Signature) (l : Levels) :
    Sound s (s.takeDecision k f g l) := by
  unfold State.takeDecision
  split
  · exact s.missDecision_sound _ _
  · split
    · exact s.missDecision_sound _ _
    · exact s.fillContext_sound k f g l (not_not.1 ‹_›)

/-! ## Descriptors, and the ends of a capture -/

theorem State.returnDescriptor_sound (s : State) (d : Descriptor) (st : Nat) (x : Option (Nat × Nat)) (g : Geometry) (w : Nat) :
    Sound s (s.returnDescriptor d st x g w) := by
  unfold State.returnDescriptor
  refine ((s.issueWrite_sound _ _ _).trans (State.setCredit_sound _ fun h => ?_)).trans .same
  have := h.2.2.2.1
  rw [State.issueWrite_capture] at this
  omega

theorem State.enterRendering_sound (s : State) (d : Descriptor) : Sound s (s.enterRendering d) :=
  (Sound.same : Sound s { s with capture.context := { s.capture.context with descriptor := _, render := _, next := 0, done := 0 } }).trans (State.setContextState_sound _ (by decide) nofun)

theorem State.rejectDescriptor_sound (s : State) (d : Descriptor) : Sound s (s.rejectDescriptor d) :=
  ((s.returnDescriptor_sound _ _ _ _ _).trans (State.raise_sound _ _ _ _ _ _)).trans (State.checkChain_sound _)

theorem State.descriptorRead_sound (s : State) (bytes : List Byte) : Sound s (s.descriptorRead bytes) := by
  unfold State.descriptorRead
  simp only []
  split
  · exact s.chainFault_sound _
  · split
    · exact s.rejectDescriptor_sound _
    · split
      · exact s.chainFault_sound _
      · exact s.enterRendering_sound _

/-- A capture that has returned its descriptor ends: its pin is dropped and its context cleared. -/
theorem State.dropAndClear_sound (s : State) : Sound s s.dropCapturePin.clearContext := by
  refine .move ?_ fun h => State.clearContext_inBounds _ (s.dropCapturePin_unchanged.inBounds (by decide) h)
  rw [State.clearContext_pins, State.dropCapturePin_pins]
  exact .endCapture

theorem State.completeCapture_sound (s : State) (d : Descriptor) (n : Nat) : Sound s (s.completeCapture d n) :=
  ((((s.setEntry_sound _ _).trans (State.issueWrite_sound _ _ _ _)).trans (State.returnDescriptor_sound _ _ _ _ _ _)).trans
    (State.raise_sound _ _ _ _ _ _)).trans (State.dropAndClear_sound _)

theorem State.failCapture_sound (s : State) (d : Descriptor) (n : Nat) : Sound s (s.failCapture d n) :=
  ((s.withdraw_sound.trans (State.returnDescriptor_sound _ _ _ _ _ _)).trans (State.raise_sound _ _ _ _ _ _)).trans
    (State.dropAndClear_sound _)

theorem State.capturePieceDone_sound (s : State) : Sound s s.capturePieceDone := by
  unfold State.capturePieceDone
  simp only []
  split
  · have h : Sound s { s with capture.context.done := s.capture.context.done + 1 } := .same
    split
    · exact h
    · exact h.trans (State.completeCapture_sound _ _ _)
  · exact .refl s

theorem State.capturePieceFaulted_sound (s : State) : Sound s s.capturePieceFaulted := by
  unfold State.capturePieceFaulted
  split
  · exact s.failCapture_sound _ _
  · exact .refl s

theorem State.emptyIndex_sound (s : State) : Sound s s.emptyIndex := by
  have h : Sound s { s with monitor.index := s.monitor.index.map fun e => { e with state := .empty } } := .same
  unfold State.emptyIndex
  simp only []
  split
  · exact h
  · exact h.trans (State.issueWrite_sound _ _ _ _)

theorem State.missWaiting_sound (s : State) (r : Nat) : Sound s (s.missWaiting r) := by
  unfold State.missWaiting
  split
  · exact s.missCapture_sound r
  · exact .refl s

theorem State.captureEntry_sound (s : State) (m : Mode) : Sound s (s.captureEntry m) := by
  have h : Sound s { s with capture.view := m } := .same
  unfold State.captureEntry
  simp only []
  split
  · exact h.trans ((Sound.same : Sound _ (State.markStandby _)).trans (State.missWaiting_sound _ _))
  · exact h.trans ((Sound.same : Sound _ (State.markShutting _)).trans (State.missWaiting_sound _ _))
  · exact h

theorem State.resumeCapture_sound (s : State) : Sound s s.resumeCapture := by
  unfold State.resumeCapture
  split
  · exact s.abandonRead_sound.trans (State.checkChain_sound _)
  · exact .refl s

theorem State.restartChain_sound (s : State) (head : Nat) : Sound s (s.restartChain head) :=
  ((Sound.same : Sound s { s with capture.head := head }).trans (State.setChain_sound _ _)).trans
    (State.setCredit_sound _ fun _ => by decide)

theorem State.actOnDecision_sound (s : State) (d : Decision) : Sound s (s.actOnDecision d) := by
  unfold State.actOnDecision
  split
  · exact s.missDecision_sound _ _
  · exact s.takeDecision_sound _ _ _ _

/-! ## The engine's last transfers -/

theorem State.finishReads_sound (s : State) (u : EngineUnit) : Sound s (s.finishReads u).1 := by
  have h (l : List Nat) : Sound s (l.foldl (fun x _ => x.countCorrectable) s) := (State.countCorrectables_unchanged l s).sound
  unfold State.finishReads
  simp only []
  split
  · exact (h _).trans (State.reportUncorrectable_sound _ _ _)
  · exact h _

theorem State.finishWrites_sound (s : State) (u : EngineUnit) : Sound s (s.finishWrites u) := State.storeRuns_sound _ _ _

/-! ## Jobs -/

/-- The running job changes in what carries no pin. -/
theorem State.setRunning_sound (s : State) {j j' : RunningJob} (h : s.jobs.running = some j) (hp : j'.pin = j.pin) :
    Sound s (s.setRunning (some j')) := .same (by simp [State.pins, State.setRunning, h, hp])

/-- The running job ends, and its pin is released as its last act (R142, R145). -/
theorem State.endJob_sound (s : State) {j : RunningJob} (h : s.jobs.running.map RunningJob.pin = some j.pin) (st : JobState) (r i : Nat) :
    Sound s (s.endJob j st r i) := by
  have k := (s.writeOutcome_sound j.entry { state := st, reason := r, pieces := j.done, index := i }).trans
    (State.raise_sound _ .jobs .jobEnd j.entry st.value r)
  have hj := (show Unchanged [.jobEntries, .records, .raised, .arbiter] s _ from
    .comp (s.writeOutcome_unchanged j.entry { state := st, reason := r, pieces := j.done, index := i })
      (State.raise_unchanged _ .jobs .jobEnd j.entry st.value r)) .runningJob (by decide)
  refine k.trans ?_
  unfold State.endJob State.releaseJobPin
  generalize State.raise _ _ _ _ _ _ = x at hj
  have hx : x.pins.run = some j.pin := by rw [← h]; exact congrArg (Option.map RunningJob.pin) hj
  split
  · rename_i n hn
    exact .move (.endLive n _ (by rw [hx, hn]) (x.releasePin_pins n .job)) (x.releasePin_inBounds n .job)
  · rename_i hn
    exact .move (.endJob (by rw [hx, hn]))

theorem State.stopJob_sound (s : State) (r : Nat) : Sound s (s.stopJob r) := by
  unfold State.stopJob
  split
  · exact .refl s
  · rename_i j hj
    split
    · exact .refl s
    · split
      · exact s.setRunning_sound hj rfl
      · exact s.endJob_sound (by rw [hj]; rfl) _ _ _

theorem State.addEntry_sound (s : State) (n : Nat) : Sound s (s.addEntry n) := by
  unfold State.addEntry
  split
  · exact .refl s
  · exact .refl s
  · exact s.writeOutcome_sound _ _

theorem State.cancelEntry_sound (s : State) (n : Nat) : Sound s (s.cancelEntry n) := by
  unfold State.cancelEntry
  split
  · exact (s.dropScanned_unchanged n).sound.trans (State.endEntry_sound _ _ _ _)
  · exact s.stopJob_sound _
  · exact .refl s

theorem Sound.foldl {α : Type} (f : State → α → State) (h : ∀ s x, Sound s (f s x)) (l : List α) (s : State) : Sound s (l.foldl f s) := by
  induction l generalizing s with
  | nil => exact .refl s
  | cons x l ih => exact (h s x).trans (ih _)

theorem State.runJob_pins (s : State) (n : Nat) (r : Request) (pin : Option Nat) (x : Render) (k : Nat) :
    (s.runJob n r pin x k).pins = { s.pins with run := some pin } := by
  have h := (s.writeOutcome_unchanged n { state := .running, reason := reasonNone, pieces := 0, index := 255 }).pins
  exact congrArg (fun v : PinView => { v with run := some pin }) h

theorem State.runJob_inBounds (s : State) (n : Nat) (r : Request) (pin : Option Nat) (x : Render) (k : Nat) (h : s.inBounds) :
    (s.runJob n r pin x k).inBounds := (s.writeOutcome_sound n _).bounds h

theorem State.startJob_sound (s : State) (n : Nat) (r : Request) (hr : s.jobs.running = none) : Sound s (s.startJob n r) := by
  have hn : s.pins.run = none := by simp [State.pins, hr]
  have plain (x : Render) (k : Nat) : Sound s (s.runJob n r none x k) :=
    .move (s.runJob_pins n r none x k ▸ .start hn) (s.runJob_inBounds _ _ _ _ _)
  unfold State.startJob
  split
  · exact plain _ _
  · exact plain _ _
  · split
    · exact .refl s
    · rename_i m hm
      split
      · rename_i hg
        refine .move ?_ fun h => State.runJob_inBounds _ _ _ _ _ _ ((s.givePin_unchanged m .job).inBounds (by decide) h)
        rw [State.runJob_pins]
        exact .startLive m hn hm hg
      · exact .refl s

theorem State.endScan_sound (s : State) (x : Scan) : Sound s (s.endScan x) := by
  have h : Sound s { s with jobs.scan := none } := .same
  unfold State.endScan
  simp only []
  split
  · exact h
  · split
    · rename_i hc
      split
      · exact h.trans (State.endEntry_sound _ _ _ _)
      · exact h.trans (State.startJob_sound _ _ _ hc.2.2.2.2.2.2)
    · exact h

/-- A piece has been counted (R141): the pieces are written or not, and the job still runs. -/
theorem State.countPiece_sound (s : State) {j j' : RunningJob} (h : s.jobs.running = some j) (hp : j'.pin = j.pin) (c : Prop) [Decidable c]
    (n d : Nat) :
    Sound s (if c then (s.setRunning (some j')).writePieces n d else s.setRunning (some j'))
      ∧ (if c then (s.setRunning (some j')).writePieces n d else s.setRunning (some j')).jobs.running = some j' := by
  have k := s.setRunning_sound h hp
  split
  · exact ⟨k.trans (State.writePieces_sound _ _ _), (State.writePieces_unchanged _ n d) .runningJob (by decide)⟩
  · exact ⟨k, rfl⟩

theorem State.jobPieceDone_sound (s : State) : Sound s s.jobPieceDone := by
  unfold State.jobPieceDone
  split
  · exact .refl s
  · rename_i j hj
    obtain ⟨hs, hr⟩ := s.countPiece_sound (j' := { j with done := j.done + 1 }) hj rfl (j.done + 1 < j.total) j.entry (j.done + 1)
    simp only []
    generalize (if j.done + 1 < j.total then _ else _ : State) = t at hs hr ⊢
    have ends (st : JobState) (r i : Nat) : Sound s (t.endJob { j with done := j.done + 1 } st r i) :=
      hs.trans (t.endJob_sound (by rw [hr]; rfl) st r i)
    split
    · exact ends _ _ _
    · split
      · exact hs
      · exact ends _ _ _

theorem State.signatureInsert_sound (s : State) (page : Nat) (sig : Signature) (image : Nat) :
    Sound s (s.signatureInsert page sig image).1 := by
  have hc : Sound s (if s.capture.counter < page then s.setCounter page else s) := by
    split
    · exact s.setCounter_sound _
    · exact .refl s
  unfold State.signatureInsert
  split
  · exact .refl s
  · split
    · exact .refl s
    · simp only []
      split
      · exact hc.trans (State.writeEntry_sound _ _ _ _)
      · split
        · exact hc.trans (State.insertEntry_sound ‹_›)
        · exact hc

theorem State.finishSignature_sound (s : State) {j : RunningJob} (h : s.jobs.running = some j) : Sound s (s.finishSignature j) := by
  have hw := s.issueWrite_sound .jobs .jobs [(j.render.destination, leBytes 48 (s.jobSignature j).toNat)]
  have hr : (s.issueWrite .jobs .jobs [(j.render.destination, leBytes 48 (s.jobSignature j).toNat)]).jobs.running = some j := by simp [h]
  unfold State.finishSignature
  simp only []
  generalize s.issueWrite _ _ _ = x at hw hr ⊢
  split
  · have hi := x.signatureInsert_sound j.page (s.jobSignature j) j.render.source
    have hj := x.signatureInsert_unchanged j.page (s.jobSignature j) j.render.source .runningJob (by decide)
    simp only [same, hr] at hj
    unfold State.endInserted
    split <;> rename_i t _ e <;> rw [e] at hi hj <;>
      exact (hw.trans hi).trans (State.endJob_sound _ (by rw [show t.jobs.running = _ from hj]; rfl) _ _ _)
  · exact hw.trans (State.endJob_sound _ (by rw [hr]; rfl) _ _ _)

theorem State.signaturePieceDone_sound (s : State) (u : EngineUnit) : Sound s (s.signaturePieceDone u) := by
  unfold State.signaturePieceDone
  split
  · exact .refl s
  · rename_i j hj
    simp only []
    generalize hj' : ({ j with done := j.done + 1, sums := u.parts.foldl (fun acc p => p.addSamples (s.getter u) acc) j.sums } : RunningJob) = j'
    have hp : j'.pin = j.pin := by rw [← hj']
    obtain ⟨hs, hr⟩ := s.countPiece_sound hj hp (j'.done < j.total) j.entry j'.done
    rw [show j.done + 1 = j'.done from by rw [← hj']]
    generalize (if j'.done < j.total then _ else _ : State) = t at hs hr ⊢
    split
    · exact hs.trans (t.endJob_sound (by rw [hr]; rfl) _ _ _)
    · split
      · exact hs
      · exact hs.trans (t.finishSignature_sound hr)

theorem State.jobPieceFaulted_sound (s : State) : Sound s s.jobPieceFaulted := by
  unfold State.jobPieceFaulted
  split
  · exact .refl s
  · rename_i j hj
    exact s.endJob_sound (by rw [hj]; rfl) _ _ _

theorem State.cancelPending_sound (s : State) : Sound s s.cancelPending := by
  refine Sound.foldl _ (fun t n => ?_) _ s
  split
  · exact t.endEntry_sound _ _ _
  · exact .refl t

theorem State.jobsEntry_sound (s : State) (m : Mode) : Sound s (s.jobsEntry m) := by
  have h : Sound s { s with jobs.view := m } := .same
  have v := h.trans (State.voidScan_sound _)
  unfold State.jobsEntry
  simp only []
  split
  · exact v.trans (State.stopJob_sound _ _)
  · exact (v.trans (State.stopJob_sound _ _)).trans (State.cancelPending_sound _)
  · exact h

end Sys2Proof.Machine
end

section
/-! SUPPORT. What the display feeder's, the intake's and the page monitor's operations keep of the pins and of the bounds. -/

namespace Sys2Proof.Machine

set_option Elab.async false

variable {s t u : State} {a : List Piece}

/-! ## Display feeder -/

theorem State.withdrawStrip_sound (s : State) : Sound s s.withdrawStrip := s.withdrawStrip_unchanged.sound

theorem State.beginScanout_sound (s : State) : Sound s s.beginScanout := s.beginScanout_unchanged.sound

theorem State.stripScanout_sound (s : State) (k : Nat) : Sound s (s.stripScanout k) := (s.stripScanout_unchanged k).sound

theorem State.clearRuns_sound (s : State) : Sound s s.clearRuns := .same

theorem State.judge_sound (s : State) : Sound s s.judge := by
  unfold State.judge State.judgeLate State.judgeClean
  split
  · exact .refl s
  · split
    · split
      · exact .same
      · split
        · exact .same
        · exact ((s.setDegraded_sound _).trans (State.clearRuns_sound _)).trans (State.raise_sound _ _ _ _ _ _)
    · split
      · exact .same
      · split
        · exact .same
        · exact ((s.setDegraded_sound _).trans (State.clearRuns_sound _)).trans (State.raise_sound _ _ _ _ _ _)

/-- The slot of the freeze pin carries it (R79). -/
theorem freezeSlot_some {i : Intake} {n : Nat} (h : i.freezeSlot = some n) : (i.slot n).pinFreeze = true := by
  simpa using List.find?_some h

/-- Where no slot is the freeze slot, none of the five carries the pin. -/
theorem freezeSlot_none {i : Intake} (h : i.freezeSlot = none) (n : Nat) (hn : n < 5) : (i.slot n).pinFreeze = false := by
  have := List.find?_eq_none.1 h n (by simpa using hn)
  simpa using this

theorem newestForFreeze_some {m : Nat} (h : s.newestForFreeze = some m) : s.intake.newest = some m := by
  unfold State.newestForFreeze at h
  split at h
  · exact h
  · cases h

theorem State.settleFreeze_sound (s : State) (l : RawLayout) : Sound s (s.settleFreeze l).1 := by
  unfold State.settleFreeze
  split
  · exact .refl s
  · split
    · rename_i n ho
      split
      · exact .refl s
      · split
        · exact .refl s
        · rename_i m hm
          have hb := s.releasePin_inBounds n .freeze
          have hr := PinView.Move.refreeze (v := s.pins) n m _ (freezeSlot_some ho) (newestForFreeze_some hm) (s.releasePin_pins n .freeze)
          unfold State.requestFreeze
          split <;> rename_i hg
          · refine .move ?_ fun h => (State.givePin_unchanged _ _ _).inBounds (by decide) (hb h)
            exact (congrArg _ (if_pos hg)).mp hr
          · refine .move ?_ fun h => (State.givePin_unchanged _ _ _).inBounds (by decide) (hb h)
            exact (congrArg _ (if_neg hg)).mp hr
    · exact .refl s
    · rename_i m ho hm
      unfold State.requestFreeze
      split <;> rename_i hg
      · exact .move (.freeze m (newestForFreeze_some hm) hg (freezeSlot_none ho)) ((s.givePin_unchanged _ _).inBounds (by decide))
      · exact .refl s

theorem State.releaseFreeze_sound (s : State) : Sound s s.releaseFreeze := by
  unfold State.releaseFreeze
  split
  · exact .move (.unfreeze _ _ (freezeSlot_some ‹_›) (s.releasePin_pins _ _)) (s.releasePin_inBounds _ _)
  · exact .refl s

theorem State.refuseLayout_sound (s : State) (r g p : Nat) : Sound s (s.refuseLayout r g p) := s.raise_sound _ _ _ _ _

/-- The display layout is set. -/
def State.setLayout (s : State) (l : Layout) : State := { s with feeder.layout := l }

theorem State.setLayout_sound (s : State) (l : Layout) : Sound s (s.setLayout l) := .same

theorem State.adoptLayout_eq (s : State) (l : RawLayout) :
    s.adoptLayout l =
      let t := s.setLayout
        { generation := l.generation, background := l.background
          panes := l.panes.zipIdx.map fun (p, n) => carryZoom s.feeder.layout n p.pane }
      (if l.firstFreeze = none then t.releaseFreeze else t).raise .feeder .layoutTaken l.panes.length l.generation 0 := rfl

theorem State.adoptLayout_sound (s : State) (l : RawLayout) : Sound s (s.adoptLayout l) := by
  rw [State.adoptLayout_eq]
  refine Sound.trans ?_ (State.raise_sound _ _ _ _ _ _)
  split
  · exact (s.setLayout_sound _).trans (State.releaseFreeze_sound _)
  · exact s.setLayout_sound _

theorem State.applyLayout_sound (s : State) (bytes : List Byte) : Sound s (s.applyLayout bytes) := by
  unfold State.applyLayout
  simp only []
  split
  · exact s.refuseLayout_sound _ _ _
  · have h := s.settleFreeze_sound (parseLayout bytes)
    split
    · rename_i t _ e
      rw [e] at h
      exact h.trans (t.refuseLayout_sound _ _ _)
    · rename_i t e
      rw [e] at h
      exact h.trans (t.adoptLayout_sound _)

theorem State.moveHold_sound (s : State) : Sound s s.moveHold := by
  refine .move (.display _ ?_)
  unfold State.moveHold
  dsimp only
  split
  · exact .inr rfl
  · exact .inl rfl

theorem State.countHoldoff_sound (s : State) : Sound s s.countHoldoff := by
  unfold State.countHoldoff
  simp only []
  refine s.resolveHoldoff_sound.trans ?_
  split
  · exact .same
  · exact .refl _

theorem State.countFrame_sound (s : State) : Sound s s.countFrame := by
  unfold State.countFrame
  simp only []
  refine Sound.trans ?_ (State.countReaction_unchanged _).sound
  refine Sound.trans ?_ (State.countHoldoff_sound _)
  exact (s.issueWrite_sound _ _ _).trans .same

theorem State.beginLiveFrame_sound (s : State) : Sound s s.beginLiveFrame := s.beginLiveFrame_unchanged.sound

theorem State.frameTurnRest_sound (s : State) : Sound s s.frameTurnRest := by
  unfold State.frameTurnRest
  split
  · have h := ((s.stepRamps_unchanged.sound).trans (State.moveHold_sound _)).trans (State.latchSources_unchanged _).sound
    exact ((h.trans (State.countFrame_sound _)).trans (State.beginLiveFrame_sound _)).trans (State.takeWork_sound _)
  · exact s.stepRamps_unchanged.sound.trans (State.countFrame_sound _)

theorem State.turnFrame_sound (s : State) (m : Nat) : Sound s (s.turnFrame m) := by
  have hj : Sound s s.frameTurnJudge := by
    unfold State.frameTurnJudge
    split
    · exact ((s.beginScanout_sound.trans (State.takeWork_sound _)).trans (State.judge_sound _)).trans (State.takeWork_sound _)
    · exact s.beginScanout_sound
  have h := hj.trans (State.readOutputMode_unchanged _ m).sound
  unfold State.turnFrame
  simp only []
  split
  · exact (h.trans .same).trans (State.issue_sound _ _ _ _)
  · exact h.trans (State.frameTurnRest_sound _)

theorem State.recoverAtEntry_sound (s : State) : Sound s s.recoverAtEntry := by
  unfold State.recoverAtEntry
  split
  · exact (s.setDegraded_sound _).trans (State.raise_sound _ _ _ _ _ _)
  · exact .refl s

theorem State.leaveLive_sound (s : State) : Sound s s.leaveLive := by
  have h := (s.withdrawStrip_sound.trans (State.takeWork_sound _)).trans (State.releaseFreeze_sound _)
  unfold State.leaveLive
  simp only []
  generalize s.withdrawStrip.takeWork.releaseFreeze = x at h
  have k : Sound x { x with intake.hold := none, feeder.liveFrame := false, feeder.late := false, feeder.latched := [] } :=
    .move (.display none (.inl rfl))
  exact ((h.trans k).trans (State.clearRuns_sound _)).trans (State.recoverAtEntry_sound _)

theorem State.feederEntry_sound (s : State) (m : Mode) : Sound s (s.feederEntry m) := by
  have h : Sound s { s with feeder.view := m } := .same
  unfold State.feederEntry
  simp only []
  split
  · exact h.trans (State.leaveLive_sound _)
  · exact (h.trans (State.leaveLive_sound _)).trans .same
  · exact h

theorem State.feederTakes_sound (s : State) (e : FeederEvent) : Sound s (s.feederTakes e) := by
  unfold State.feederTakes
  split
  · cases e with
    | scanout k => exact s.stripScanout_sound k
    | turn m => exact s.turnFrame_sound m
    | takeLayout => exact .same
    | entry m => exact s.feederEntry_sound m
  · exact .same

theorem State.feederAll_sound (es : List FeederEvent) (s : State) : Sound s (State.feederAll es s) := by
  induction es generalizing s with
  | nil => exact .refl s
  | cons e es ih => exact ((s.feederTakes_sound e).trans (State.takeWork_sound _)).trans (ih _)

theorem State.resumeTurn_sound (s : State) (bytes : Option (List Byte)) : Sound s (s.resumeTurn bytes) := by
  have h : Sound s { s with feeder.layoutRead := .idle, feeder.posted := false, feeder.deferred := [] } := .same
  unfold State.resumeTurn
  simp only []
  refine Sound.trans ?_ (State.feederAll_sound _ _)
  refine Sound.trans ?_ (State.frameTurnRest_sound _)
  split
  · exact h.trans (State.applyLayout_sound _ _)
  · exact h.trans (State.refuseLayout_sound _ _ _ _)

/-! ## Intake -/

theorem State.bumpInstability_sound (s : State) (c : Nat) : Sound s (s.bumpInstability c) := by
  have h := s.setInstability_sound (n := satInc 32 s.intake.instability) fun _ => Nat.min_le_left _ _
  unfold State.bumpInstability
  simp only []
  split
  · exact (h.trans (State.setSuspended_sound _ _)).trans (State.raise_sound _ _ _ _ _ _)
  · exact h

/-- With fewer bytes in the intake buffer, or within its size, a change of the intake's frame stays in bounds. -/
theorem State.inBounds_intake {i : Intake} (h : s.inBounds) (hb : i.buffer.length ≤ Config.bufferBytes)
    (hi : i.instability = s.intake.instability) : State.inBounds { s with intake := i } := by
  obtain ⟨hq, hi', -, hr⟩ := h
  exact ⟨hq, hi ▸ hi', hb, hr⟩

theorem State.inBounds.instability (h : s.inBounds) : s.intake.instability ≤ 32 := h.2.1

theorem State.inBounds.buffer (h : s.inBounds) : s.intake.buffer.length ≤ Config.bufferBytes := h.2.2.1

theorem State.discardFrame_sound (s : State) : Sound s s.discardFrame := by
  refine .move ?_ fun h => ?_
  · unfold State.discardFrame State.freeTarget
    split
    · exact .discard _ ‹_›
    · exact .untarget .standby nofun
  · have k : s.freeTarget.inBounds := s.freeTarget_unchanged.inBounds (by decide) h
    exact State.inBounds_intake k ((List.length_filter_le _ _).trans h.buffer) rfl

theorem State.malformedFrame_sound (s : State) : Sound s s.malformedFrame :=
  (s.discardFrame_sound.trans .same).trans (State.bumpInstability_sound _ _)

theorem State.malformedLine_sound (s : State) : Sound s s.malformedLine := s.malformedFrame_sound.trans .same

theorem State.dropFrame_sound (s : State) : Sound s s.dropFrame :=
  (s.discardFrame_sound.trans .same).trans (State.bumpInstability_sound _ _)

theorem choice_some {i : Intake} {n : Nat} (h : i.choice = some n) : n < 5 ∧ i.fillable n = true :=
  ⟨List.mem_range.1 (List.mem_of_find?_eq_some h), List.find?_some h⟩

theorem State.chooseSlot_sound (s : State) (hp : s.intake.pendingFrame = none) : Sound s s.chooseSlot := by
  unfold State.chooseSlot
  split
  · rename_i n hn
    obtain ⟨hl, hf⟩ := choice_some hn
    exact .move (.choose n _ hl hf (by simp [State.pins, hp]))
  · exact .move (.untarget .standby nofun)

/-- A new frame is open, its slot not yet chosen (R2). -/
def State.openFrame (s : State) : State :=
  { s with
    intake := { s.intake with
      state := .receiving, geometry := some ⟨s.post.setup.width, s.post.setup.height⟩, linesDone := 0, lineOpen := false
      lineCount := 0, sums := noSums, target := .standby } }

@[simp] theorem State.openFrame_pendingFrame (s : State) : s.openFrame.intake.pendingFrame = s.intake.pendingFrame := rfl

theorem State.beginFrame_eq (s : State) :
    s.beginFrame =
      if s.intake.view = .live then
        if s.intake.pendingFrame.isSome then { s.openFrame with intake.target := .deferred } else s.openFrame.chooseSlot
      else s.openFrame := rfl

theorem State.beginFrame_sound (s : State) : Sound s s.beginFrame := by
  have h : Sound s s.openFrame := .move (.untarget .standby nofun)
  rw [State.beginFrame_eq]
  split
  · split
    · exact h.trans (.move (.untarget .deferred nofun))
    · exact h.trans (s.openFrame.chooseSlot_sound (by simpa using ‹¬ s.intake.pendingFrame.isSome = true›))
  · exact h

theorem State.countSlotWait_sound (s : State) : Sound s s.countSlotWait := s.countSlotWait_unchanged.sound

theorem State.acceptMeans_sound (s : State) (m : List Nat) (g : Geometry) : Sound s (s.acceptMeans m g) := by
  have h1 (n : Nat) (f : TileStats) : Sound s { s with intake.frameNumber := n, intake.held := some f } := .same
  have h2 (x : State) : Sound x (x.setInstability (x.intake.instability - 1)) := x.setInstability_sound fun h =>
    (Nat.sub_le _ _).trans h.instability
  have h3 (x : State) (l : List TileStats) : Sound x { x with intake.meansOut := l } := .same
  exact (((h1 _ _).trans (h2 _)).trans (h3 _ _)).trans (State.countSlotWait_sound _)

theorem State.acceptPending_sound (s : State) {p : PendingFrame} (hp : s.intake.pendingFrame = some p) :
    Sound s (s.acceptPending p) := by
  have hd : Sound s (s.deliverPending p) := by
    refine (State.storeRuns_sound .intake _ s).trans (.same rfl fun h => ?_)
    exact State.inBounds_intake h ((List.length_filter_le _ _).trans h.buffer) rfl
  have he : (s.deliverPending p).pins.pending = some p.slot := by
    have := State.storeRuns_unchanged .intake ((runsOf (s.intake.pendingCells p.slot)).flatMap burstsOf) s .buffer (by decide)
    exact congrArg (Option.map PendingFrame.slot) (this.2.trans hp)
  unfold State.acceptPending
  simp only []
  generalize s.deliverPending p = x at hd he
  have hc : Sound x { x.completeSlot p with intake.pendingFrame := none } := by
    refine .move ?_ fun h => (x.completeSlot_unchanged p).inBounds (by decide) h
    unfold State.completeSlot
    simp only []
    split
    · exact .accept p.slot x.intake.newest he (.inl rfl)
    · exact .accept p.slot _ he (.inr rfl)
  refine ((hd.trans hc).trans (State.acceptMeans_sound _ p.means p.geometry)).trans ?_
  unfold State.deferredChoice
  split
  · refine State.chooseSlot_sound _ ?_
    exact ((State.acceptMeans_unchanged _ p.means p.geometry) .buffer (by decide)).2
  · exact .refl _

theorem State.frameComplete_sound (s : State) : Sound s s.frameComplete := by
  unfold State.frameComplete
  split
  · exact (Sound.same : Sound s { s with intake.state := .waiting, intake.sums := [] }).trans (State.acceptMeans_sound _ _ _)
  · refine .move (.wait _ ‹_›) fun h => State.inBounds_intake h ?_ rfl
    simpa using h.buffer
  · exact s.dropFrame_sound.trans .same

theorem State.takeComponent_sound (s : State) (v : Byte) : Sound s (s.takeComponent v) := by
  unfold State.takeComponent
  split
  · exact s.malformedLine_sound
  · split
    · exact s.dropFrame_sound
    · rename_i hc
      refine .same rfl fun h => State.inBounds_intake h ?_ rfl
      have := h.buffer
      simp only []
      split
      · exact this
      · simp_all

theorem State.intakeEntry_sound (s : State) (m : Mode) : Sound s (s.intakeEntry m) := by
  have h : Sound s { s with intake.view := m } := .same
  have k (x : State) : Sound x x.passOver := by
    unfold State.passOver
    split
    · exact x.discardFrame_sound.trans .same
    · exact .refl x
  have k2 (x : State) : Sound x x.unmarkPending :=
    .same (by cases hp : x.intake.pendingFrame <;> simp [State.pins, State.unmarkPending, hp])
  unfold State.intakeEntry
  simp only []
  split
  · exact ((h.trans (k _)).trans (k2 _)).trans (.move .unmark)
  · exact (h.trans (State.discardFrame_sound _)).trans .same
  · exact h

/-! ## Page monitor -/

theorem State.endPattern_sound (s : State) : Sound s s.endPattern := by
  unfold State.endPattern
  simp only []
  exact (Sound.same : Sound s { s.setPattern settledPattern with monitor.timeoutDue := false }).trans (State.raise_sound _ _ _ _ _ _)

theorem State.resolveTimeout_sound (s : State) : Sound s s.resolveTimeout := by
  unfold State.resolveTimeout
  split
  · exact s.endPattern_sound
  · exact .refl s

theorem State.pageSeen_sound (s : State) (n d f : Nat) : Sound s (s.pageSeen n d f) :=
  ((s.setEntry_sound n _).trans (State.issueWrite_sound _ _ _ _)).trans (State.raise_sound _ _ _ _ _ _)

theorem State.stillLive_sound (s : State) (f : TileStats) : Sound s (s.stillLive f) := by
  have h : Sound s { s with monitor.levels := levelsOf s.post.setup f.means } := .same
  unfold State.stillLive
  simp only []
  split
  · exact h
  · split
    · exact h.trans (State.pageSeen_sound _ _ _ _)
    · split
      · exact h.trans .same
      · exact h

theorem State.wake_sound (s : State) : Sound s s.wake := by
  unfold State.wake
  split
  · exact (s.changeMode_sound _ _).trans .same
  · exact .refl s

theorem State.judgePattern_sound (s : State) (p : Pattern) (f : TileStats) : Sound s (s.judgePattern p f) := by
  have h (q : Pattern) : Sound s (s.setPattern q) := .same
  unfold State.judgePattern
  simp only []
  split
  · split
    · exact (h _).trans (State.stillLive_sound _ _)
    · exact ((h _).trans (State.raise_sound _ _ _ _ _ _)).trans (State.wake_sound _)
  · exact (h p).trans .same

theorem State.classify_sound (s : State) (previous : List Nat) (f : TileStats) : Sound s (s.classify previous f) := by
  unfold State.classify State.tellMoving
  simp only []
  split
  · exact (s.missCapture_sound _).trans (State.judgePattern_sound _ _ _)
  · exact s.judgePattern_sound _ _

theorem State.takeMeans_sound (s : State) (f : TileStats) : Sound s (s.takeMeans f) := by
  have h (x : State) : Sound x (x.judgeMeans f) := by
    unfold State.judgeMeans
    split
    · exact x.classify_sound _ _
    · exact .refl x
  exact (s.resolveTimeout_sound.trans (h _)).trans .same

theorem State.monitorEntry_sound (s : State) (m : Mode) : Sound s (s.monitorEntry m) := by
  have h : Sound s { s with monitor.view := m } := .same
  unfold State.monitorEntry
  simp only []
  split
  iterate 3 exact (h.trans (State.resolveTimeout_sound _)).trans .same
  exact h

end Sys2Proof.Machine
end

section
/-! SUPPORT. What the post port's, the memory port's and mode control's operations keep of the pins and of the bounds, and with them every
command. -/

namespace Sys2Proof.Machine

set_option Elab.async false

variable {s t u : State} {a : List Piece}

/-! ## Post port -/

theorem State.stopTimer_sound (s : State) : Sound s s.stopTimer := .same

theorem State.rejudge_sound (s : State) : Sound s s.rejudge := by
  unfold State.rejudge
  split
  · exact s.signalReady_sound
  · split
    · exact s.stopTimer_sound
    · split
      · exact .same
      · exact .refl s

theorem State.issue_queue_le {s : State} (h : s.port.queue.length ≤ 32) (actor issuer : Block) (op : RecordOp) :
    (s.issue actor issuer op).port.queue.length ≤ 32 := by
  unfold State.issue
  rcases s.emit_is actor (.op issuer op) with ⟨-, e⟩ | ⟨-, ⟨i, o, -, -, e⟩ | ⟨i, o, -, -, e⟩ | ⟨hn, -⟩⟩
  · rw [e]; exact h
  · rw [e]; exact h
  · rw [e]
    rcases s.join_is i actor o with ⟨-, hl, e⟩ | ⟨-, blocks, -, e⟩ <;> rw [e]
    · rw [(State.makeGrant_unchanged _ .records (by decide)).1]
      simpa using hl
    · exact h
  · exact absurd rfl (hn issuer op)

theorem State.liveField_queue_le {s : State} (h : s.port.queue.length ≤ 32) (actor : Block) (off size value : Nat) :
    (s.liveField actor off size value).port.queue.length ≤ 32 := State.issue_queue_le h _ _ _

theorem State.setPut_queue_le {s : State} (h : s.port.queue.length ≤ 32) (n : Nat) : (s.setPut n).port.queue.length ≤ 32 := by
  unfold State.setPut
  split
  · exact h
  · exact State.liveField_queue_le (s := { s with post.put := n }) h _ _ _ _

theorem State.setGet_queue_le {s : State} (h : s.port.queue.length ≤ 32) (n : Nat) : (s.setGet n).port.queue.length ≤ 32 := by
  unfold State.setGet
  split
  · exact h
  · exact State.liveField_queue_le (s := { s with post.get := n }) h _ _ _ _

theorem State.publishGet_queue_le {s : State} (h : s.port.queue.length ≤ 32) (n : Nat) : (s.publishGet n).port.queue.length ≤ 32 :=
  State.liveField_queue_le (s := { s with post.get := n }) h _ _ _ _

/-- With a ring of its own, a changed event queue is in bounds. -/
theorem State.inBounds_ring {p : MemoryPort} {size put get fill : Nat} (h : s.inBounds) (hp : t.port = p)
    (hq : p.queue.length ≤ 32) (hi : t.intake = s.intake) (hc : t.capture.credit = s.capture.credit)
    (hf : t.post.fifo = s.post.fifo ∧ t.post.lost = s.post.lost ∧ t.post.sequence = s.post.sequence)
    (he : t.post.setup.queueSize = size ∧ t.post.put = put ∧ t.post.get = get ∧ t.post.fill = fill)
    (hr : 0 < size ∧ get < size ∧ fill ≤ size ∧ put = (get + fill) % size) : t.inBounds := by
  obtain ⟨-, k1, k2, k3, -, k5, k6, k7⟩ := h
  obtain ⟨f1, f2, f3⟩ := hf
  obtain ⟨rfl, rfl, rfl, rfl⟩ := he
  refine ⟨hr, hi ▸ k1, hi ▸ k2, hc ▸ k3, ?_, f1 ▸ k5, f2 ▸ k6, f3 ▸ k7⟩
  rw [hp]
  exact hq

/-- The setup that stands after a resize. -/
def State.resized (s : State) (u : Setup) (g : Nat) : State :=
  { s.resizeQueue u.queueSize with post.setup := u, post.setupGeneration := g }

theorem State.resized_sound (s : State) (u : Setup) (g : Nat) (h0 : 0 < u.queueSize)
    (hf : u.queueSize ≠ s.post.setup.queueSize → s.post.fill = 0) : Sound s (s.resized u g) := by
  refine .same (s.resizeQueue_unchanged u.queueSize).pins fun h => ?_
  unfold State.resized State.resizeQueue
  split
  · rename_i e
    obtain ⟨⟨-, hg, hl, hp⟩, -⟩ := id h
    refine State.inBounds_ring h rfl h.room rfl rfl ⟨rfl, rfl, rfl⟩ ⟨rfl, rfl, rfl, rfl⟩ ?_
    rw [e]
    exact ⟨e ▸ h0, hg, hl, hp⟩
  · rename_i e
    have hq := State.setGet_queue_le (State.setPut_queue_le h.room 0) 0
    refine State.inBounds_ring (size := u.queueSize) (put := 0) (get := 0) (fill := s.post.fill) h rfl hq ?_ ?_ ?_ ?_ ?_
    · simp
    · simp
    · simp
    · simp
    · rw [hf e]
      simp [h0]

theorem State.takeSetup_sound (s : State) (u : Setup) (g : Nat) (h0 : 0 < u.queueSize)
    (hf : u.queueSize ≠ s.post.setup.queueSize → s.post.fill = 0) : Sound s (s.takeSetup u g) := by
  have hs := s.resolveHoldoff_unchanged .setup (by decide)
  have he := s.resolveHoldoff_unchanged .events (by decide)
  simp only [same] at hs he
  have h := s.resolveHoldoff_sound.trans (State.resized_sound _ u g h0 (by rw [hs.1, he.2.2.1]; exact hf))
  exact ((h.trans (State.rejudge_sound _)).trans (State.liveField_sound _ _ _ _ _)).trans (State.takeEvent_sound _ _ _ _ _ _)

theorem parseSetup_queueSize_pos (r : List Byte) : 0 < (parseSetup r).queueSize := by
  show 0 < clampNat 8 256 _
  unfold clampNat
  split
  · decide
  · split <;> omega

/-- A setup that passes the checks resizes an empty queue only (R171, QUEUE_NOT_EMPTY). -/
theorem setupFailure_none {u : Setup} (h : s.setupFailure u = none) : u.queueSize ≠ s.post.setup.queueSize → s.post.fill = 0 := by
  unfold State.setupFailure at h
  intro hne
  by_contra hf
  simp [hne, hf] at h
  split_ifs at h

theorem State.setupRead_sound (s : State) (bytes : List Byte) : Sound s (s.setupRead bytes) := by
  unfold State.setupRead
  simp only []
  split
  · exact s.takeEvent_sound _ _ _ _ _
  · exact s.takeSetup_sound _ _ (parseSetup_queueSize_pos _) (setupFailure_none ‹_›)

theorem ringNext_cases {size k : Nat} (h : k < size) :
    k + 1 < size ∧ ringNext size k = k + 1 ∨ k + 1 = size ∧ ringNext size k = 0 := by
  unfold ringNext
  split <;> omega

theorem ringNext_lt {size k : Nat} (h : k < size) : ringNext size k < size := by
  rcases ringNext_cases h with ⟨h1, h2⟩ | ⟨h1, h2⟩ <;> omega

/-- The ring arithmetic of an acknowledgement: get moves behind position k, and put stands what is left after it (R175). -/
theorem ring_ack {size get fill k : Nat} (hg : get < size) (hf : fill ≤ size) (hk : k < size)
    (hd : (k + size - get) % size < fill) :
    (get + fill) % size = (ringNext size k + (fill - ((k + size - get) % size + 1))) % size := by
  rw [mod_of_lt_twice (x := k + size - get) (by omega)] at hd ⊢
  rw [mod_of_lt_twice (x := get + fill) (by omega)]
  rcases ringNext_cases hk with ⟨h1, h2⟩ | ⟨h1, h2⟩ <;> rw [h2]
  all_goals
    split at hd <;> rename_i h3 <;> simp only [h3, if_true, if_false] <;> rw [mod_of_lt_twice (by omega)] <;> split <;> split <;> omega

theorem State.settleUnsignalled_sound (s : State) : Sound s s.settleUnsignalled := by
  unfold State.settleUnsignalled
  dsimp only
  split <;> exact .same

theorem State.acknowledge_sound (s : State) (k : Nat) (hu : s.unacknowledged k = true) : Sound s (s.acknowledge k) := by
  have hs := s.resolveHoldoff_unchanged .setup (by decide)
  have he := s.resolveHoldoff_unchanged .events (by decide)
  simp only [same] at hs he
  unfold State.acknowledge
  simp only []
  refine s.resolveHoldoff_sound.trans (Sound.trans ?_ (State.settleUnsignalled_sound _))
  simp only [State.unacknowledged, State.ringDistance, ← hs.1, ← he.2.1, ← he.2.2.1, Bool.and_eq_true, decide_eq_true_eq] at hu
  generalize s.resolveHoldoff = x at hu
  obtain ⟨hk, hd⟩ := hu
  refine .same (State.publishGet_unchanged { x with post.fill := _ } _).pins fun h => ?_
  obtain ⟨⟨h0, hg, hl, hp⟩, -⟩ := id h
  refine State.inBounds_ring (size := x.post.setup.queueSize) (put := x.post.put) (get := ringNext x.post.setup.queueSize k)
    (fill := x.post.fill - (x.ringDistance k + 1)) h rfl
    (State.publishGet_queue_le (s := { x with post.fill := x.post.fill - (x.ringDistance k + 1) }) h.room _) ?_ ?_ ?_ ?_
    ⟨h0, ringNext_lt hk, by omega, ?_⟩
  · simp [State.publishGet]
  · simp [State.publishGet]
  · simp [State.publishGet]
  · simp [State.publishGet]
  · exact hp.trans (ring_ack hg hl hk hd)

theorem State.watchSafe_sound (s : State) (k : EventKind) : Sound s (s.watchSafe k) := by
  unfold State.watchSafe
  split
  · exact s.emit_sound _ _
  · exact .refl s

theorem State.takeRaised_sound (s : State) (n : Nat) (e : RaisedEvent) : Sound s (s.takeRaised n e) :=
  ((Sound.same : Sound s { s with post.raised := s.post.raised.eraseIdx n }).trans (State.takeEvent_sound _ _ _ _ _ _)).trans
    (State.watchSafe_sound _ _)

/-! ## Memory port -/

theorem State.upset_sound (s : State) (x : Upset) : Sound s (s.upset x) := by
  cases x with
  | correctable w =>
    unfold State.upset
    dsimp only
    split
    · exact .same
    · exact .refl s
  | uncorrectable w v =>
    unfold State.upset
    dsimp only
    split
    · exact .same
    · exact .refl s
  | cutOff addr len =>
    unfold State.upset
    dsimp only
    split
    · exact (s.load_sound _ _ _).trans .same
    · exact .refl s

theorem State.befall_sound (s : State) (l : List Upset) : Sound s (s.befall l) :=
  (Sound.foldl State.upset State.upset_sound l s).trans .same

theorem State.intakeBurst_sound (s : State) : Sound s s.intakeBurst := by
  unfold State.intakeBurst
  split
  · refine (s.store_sound _ _ _).trans (.same rfl fun h => ?_)
    exact State.inBounds_intake h ((List.length_filter_le _ _).trans h.buffer) rfl
  · exact .refl s

theorem State.faultUnit_sound (s : State) (u : EngineUnit) : Sound s (s.faultUnit u) := by
  have h (x : State) : Sound x x.dropUnit.shutdownTest := x.dropUnit_sound.trans (State.shutdownTest_sound _)
  unfold State.faultUnit
  dsimp only
  split
  · exact (s.stripFaulted_unchanged _).sound.trans (h _)
  · exact s.capturePieceFaulted_sound.trans (h _)
  · exact s.jobPieceFaulted_sound.trans (h _)
  · exact s.jobPieceFaulted_sound.trans (h _)

theorem State.engineBurst_sound (s : State) (u : EngineUnit) (b : EngineBurst) : Sound s (s.engineBurst u b) := by
  unfold State.engineBurst
  split
  · exact (State.storeRuns_sound _ _ _).trans (State.setUnit_unchanged _ _).sound
  · have h := s.load_sound .engine b.addr b.len
    split <;> rename_i e <;> rw [e] at h
    · exact h.trans (State.setUnit_unchanged _ _).sound
    · exact h.trans (State.faultUnit_sound _ _)

theorem State.hostStore_sound (s : State) (addr : Nat) (d : Word) (e : BitVec 4) : Sound s (s.hostStore addr d e) := by
  unfold State.hostStore
  split
  · exact .refl s
  · exact (Sound.same : Sound s { s with mem := s.mem.writeEnabled addr d e }).trans (State.codeWord_sound _ _ _ _)

theorem State.hostBurst_sound (s : State) : Sound s s.hostBurst := by
  unfold State.hostBurst
  split
  · exact .refl s
  · rename_i a _
    have h := s.load_sound .host a 4
    split <;> rename_i e <;> rw [e] at h <;> exact h.trans .same
  · exact (s.hostStore_sound _ _ _).trans .same

theorem State.burstOf_sound {q : Requester} {b : EngineBurst} (h : s.burstOf q b = some t) : Sound s t := by
  unfold State.burstOf at h
  split at h
  · cases h; exact s.intakeBurst_sound
  · cases h; exact s.recordBurst_sound
  · cases h; exact s.hostBurst_sound
  · split at h
    · split at h
      · cases h; exact s.engineBurst_sound _ _
      · cases h
    · cases h

/-! ## Mode control -/

theorem State.reset_queueOk : State.reset.queueOk := by
  unfold State.queueOk
  decide

theorem State.reset_boundsOk : State.reset.boundsOk := by
  unfold State.boundsOk
  decide

theorem State.resetAll_sound (s : State) : Sound s s.resetAll :=
  .move .reset fun _ => ⟨State.reset_queueOk, State.reset_boundsOk⟩

theorem State.endBoot_sound (s : State) : Sound s s.endBoot := by
  have h1 (x : State) (m : Mode) : Sound x (x.leaveBoot m) := (x.enterMode_sound m).trans (State.takeEvent_sound _ _ _ _ _ _)
  have h2 (x : State) (m : Mode) (i : IntakeState) : Sound x
      { ({ x with control.announcements := [] } : State).setViews m with intake.state := i } := .same
  have h3 : Sound s { s with port.boot := .none, control.warned := false, feeder.rasterOn := true } := .same
  exact (((h3.trans (State.releaseHost_unchanged _).sound).trans (h1 _ _)).trans (h2 _ _ _)).trans (State.shutdownTest_sound _)

end Sys2Proof.Machine
end

section
/-! SUPPORT. The raster goes on (R68): what every operation keeps of the next strip and of the output mode that the raster runs in. -/

namespace Sys2Proof.Machine

set_option Elab.async false

variable {s t u : State} {a : List Piece}

/-! ## The output mode that the raster runs in -/

/-- The output mode once the feeder has acted on everything kept for it. -/
def Feeder.dueMode (f : Feeder) : Nat := f.deferred.foldl FeederEvent.modeAfter f.outputMode

/-- The last frame turn among the events decides the mode after them. -/
theorem foldl_modeAfter (es : List FeederEvent) (m : Nat) :
    es.foldl FeederEvent.modeAfter m
      = ((es.filterMap fun e => match e with | .turn m => some m | _ => none).getLast?).getD m := by
  induction es generalizing m with
  | nil => rfl
  | cons e es ih =>
    cases e with
    | turn k => simp [FeederEvent.modeAfter, ih, List.getLast?_cons]
    | _ => simp [FeederEvent.modeAfter, ih]

theorem State.frameMode_eq (s : State) : s.frameMode = s.feeder.rasterMode := by
  unfold State.frameMode Feeder.rasterMode
  split
  · rfl
  · exact (foldl_modeAfter _ _).symm

theorem stripCount_eq (m : Nat) : stripCount m = if m = 0 then 90 else if m = 1 then 135 else 150 := by
  rcases m with _ | _ | m <;> simp [stripCount, rasterSize]

theorem State.frameStrips_eq (s : State) : s.frameStrips = stripCount s.feeder.rasterMode := by
  rw [stripCount_eq, ← s.frameMode_eq]
  rfl

theorem Feeder.rasterMode_eq {f : Feeder} (h : f.layoutRead = .idle → f.deferred = []) : f.rasterMode = f.dueMode := by
  unfold Feeder.rasterMode Feeder.dueMode
  split
  · rw [h ‹_›]; rfl
  · rfl

theorem rasterOk_iff :
    s.rasterOk ↔ (s.feeder.layoutRead = .idle → s.feeder.deferred = []) ∧ s.feeder.nextStrip < stripCount s.feeder.dueMode := by
  unfold State.rasterOk
  refine and_congr_right fun h => ?_
  rw [s.frameStrips_eq, Feeder.rasterMode_eq h]

/-! ## What leaves the raster -/

/-- The raster and the events kept for the feeder are as before, and no layout read has ended. -/
structure Raster (s t : State) : Prop where
  idle : t.feeder.layoutRead = .idle → s.feeder.layoutRead = .idle
  deferred : t.feeder.deferred = s.feeder.deferred
  nextStrip : t.feeder.nextStrip = s.feeder.nextStrip
  outputMode : t.feeder.outputMode = s.feeder.outputMode

theorem Raster.refl (s : State) : Raster s s := ⟨id, rfl, rfl, rfl⟩

theorem Raster.trans (h : Raster s t) (k : Raster t u) : Raster s u :=
  ⟨h.idle ∘ k.idle, k.deferred.trans h.deferred, k.nextStrip.trans h.nextStrip, k.outputMode.trans h.outputMode⟩

theorem Raster.dueMode (h : Raster s t) : t.feeder.dueMode = s.feeder.dueMode := by
  unfold Feeder.dueMode
  rw [h.deferred, h.outputMode]

theorem Raster.rasterOk (h : Raster s t) (k : s.rasterOk) : t.rasterOk := by
  rw [rasterOk_iff] at k ⊢
  rw [h.dueMode, h.nextStrip, h.deferred]
  exact ⟨k.1 ∘ h.idle, k.2⟩

/-- A change of no piece of the raster leaves it. -/
theorem Unchanged.raster (h : Unchanged a s t) (k : ∀ p ∈ [Piece.layout, .raster, .frameTurn], p ∉ a := by decide) : Raster s t := by
  have h1 := h .layout (k _ (by simp))
  have h2 := h .raster (k _ (by simp))
  have h3 := h .frameTurn (k _ (by simp))
  simp only [same] at h1 h2 h3
  exact ⟨fun e => h3.2.1 ▸ e, h3.2.2, h2, h1.2.1⟩

/-- A change of the feeder that leaves the layout read as it was. -/
theorem Raster.of_feeder (hl : t.feeder.layoutRead = s.feeder.layoutRead) (hd : t.feeder.deferred = s.feeder.deferred)
    (hn : t.feeder.nextStrip = s.feeder.nextStrip) (hm : t.feeder.outputMode = s.feeder.outputMode) : Raster s t :=
  ⟨fun e => hl ▸ e, hd, hn, hm⟩

/-! ## Record reads that come back -/

theorem State.deliver_raster (s : State) (q : Reader) {r : ReadState} (hr : r ≠ .idle) : Raster s (s.deliver q r) := by
  cases q with
  | job n => exact (s.scanRead_unchanged n r).raster
  | layout => exact ⟨fun h => absurd h hr, rfl, rfl, rfl⟩
  | _ => exact .of_feeder rfl rfl rfl rfl

theorem State.recordReadBurst_raster (s : State) (q : Reader) (addr : Nat) (got : List Byte) :
    Raster s (s.recordReadBurst q addr got) := by
  have h := s.load_unchanged .record (addr + got.length) (min (64 - (addr + got.length) % 64) (readLength q got - got.length))
  unfold State.recordReadBurst
  simp only []
  split
  next s' he =>
    rw [he] at h
    exact (h.raster.trans s'.popRecord_unchanged.raster).trans (State.deliver_raster _ _ nofun)
  next s' bytes he =>
    rw [he] at h
    split
    · exact (h.raster.trans s'.popRecord_unchanged.raster).trans (State.deliver_raster _ _ nofun)
    · exact h.raster.trans (s'.setHead_unchanged _).raster

theorem State.recordBurst_raster (s : State) : Raster s s.recordBurst := by
  unfold State.recordBurst
  split
  · exact .refl s
  · exact s.popRecord_unchanged.raster
  · exact (s.store_unchanged _ _ _).raster.trans (State.popRecord_unchanged _).raster
  · exact (s.store_unchanged _ _ _).raster.trans (State.setHead_unchanged _ _).raster
  · exact s.recordReadBurst_raster _ _ _

theorem State.drain_raster (s : State) (enough : State → Bool) : Raster s (s.drain enough) := by
  have h (n : Nat) (x : State) : Raster x (State.drainUntil enough n x) := by
    induction n generalizing x with
    | zero => exact .refl x
    | succ n ih =>
      unfold State.drainUntil
      split
      · exact .refl x
      · exact (x.admitBlocked_unchanged.raster.trans (State.recordBurst_raster _)).trans (ih _)
  exact (h _ s).trans (State.settle_unchanged _).raster

/-! ## Layouts, and the steps of the frame turn after the layout read -/

theorem State.setLayout_raster (s : State) (l : Layout) : Raster s (s.setLayout l) := .of_feeder rfl rfl rfl rfl

theorem State.adoptLayout_raster (s : State) (l : RawLayout) : Raster s (s.adoptLayout l) := by
  rw [State.adoptLayout_eq]
  refine Raster.trans ?_ (State.raise_unchanged _ _ _ _ _ _).raster
  split
  · exact (s.setLayout_raster _).trans (State.releaseFreeze_unchanged _).raster
  · exact s.setLayout_raster _

theorem State.applyLayout_raster (s : State) (bytes : List Byte) : Raster s (s.applyLayout bytes) := by
  unfold State.applyLayout
  simp only []
  split
  · exact (s.refuseLayout_unchanged _ _ _).raster
  · have h := (s.settleFreeze_unchanged (parseLayout bytes)).raster
    split
    · rename_i t _ e
      rw [e] at h
      exact h.trans (t.refuseLayout_unchanged _ _ _).raster
    · rename_i t e
      rw [e] at h
      exact h.trans (t.adoptLayout_raster _)

theorem State.frameTurnRest_raster (s : State) : Raster s s.frameTurnRest := by
  have h : Raster s s.stepRamps := .of_feeder rfl rfl rfl rfl
  unfold State.frameTurnRest
  split
  · have k := (h.trans (State.moveHold_unchanged _).raster).trans (State.latchSources_unchanged _).raster
    exact ((k.trans (State.countFrame_unchanged _).raster).trans (State.beginLiveFrame_unchanged _).raster).trans
      (State.takeWork_unchanged _).raster
  · exact h.trans (State.countFrame_unchanged _).raster

theorem State.frameTurnJudge_raster (s : State) : Raster s s.frameTurnJudge := by
  unfold State.frameTurnJudge
  split
  · exact ((s.beginScanout_unchanged.raster.trans (State.takeWork_unchanged _).raster).trans (State.judge_unchanged _).raster).trans
      (State.takeWork_unchanged _).raster
  · exact s.beginScanout_unchanged.raster

/-! ## Events that reach the feeder -/

theorem State.leaveLive_raster (s : State) : Raster s s.leaveLive := by
  have h := (s.withdrawStrip_unchanged.raster.trans (State.takeWork_unchanged _).raster).trans (State.releaseFreeze_unchanged _).raster
  unfold State.leaveLive
  simp only []
  generalize s.withdrawStrip.takeWork.releaseFreeze = x at h
  have k : Raster x { x with intake.hold := none, feeder.liveFrame := false, feeder.late := false, feeder.latched := [] } :=
    .of_feeder rfl rfl rfl rfl
  exact ((h.trans k).trans (State.clearRuns_unchanged _).raster).trans (State.recoverAtEntry_unchanged _).raster

theorem State.feederEntry_raster (s : State) (m : Mode) : Raster s (s.feederEntry m) := by
  have h : Raster s { s with feeder.view := m } := .of_feeder rfl rfl rfl rfl
  unfold State.feederEntry
  simp only []
  split
  · exact h.trans (State.leaveLive_raster _)
  · exact (h.trans (State.leaveLive_raster _)).trans (.of_feeder rfl rfl rfl rfl)
  · exact h

theorem State.readOutputMode_outputMode (s : State) (m : Nat) : (s.readOutputMode m).feeder.outputMode = m := by
  unfold State.readOutputMode
  split
  · assumption
  · rfl

theorem State.readOutputMode_frameTurn (s : State) (m : Nat) :
    (s.readOutputMode m).feeder.deferred = s.feeder.deferred ∧ (s.readOutputMode m).feeder.nextStrip = s.feeder.nextStrip := by
  unfold State.readOutputMode
  split <;> exact ⟨rfl, rfl⟩

/-- A frame turn puts the raster into its output mode (R68, R72). -/
theorem State.turnFrame_raster (s : State) (m : Nat) :
    (s.turnFrame m).feeder.deferred = s.feeder.deferred ∧ (s.turnFrame m).feeder.nextStrip = s.feeder.nextStrip
      ∧ (s.turnFrame m).feeder.outputMode = m := by
  have h1 := s.frameTurnJudge_raster
  obtain ⟨h2, h3⟩ := s.frameTurnJudge.readOutputMode_frameTurn m
  have h4 := s.frameTurnJudge.readOutputMode_outputMode m
  unfold State.turnFrame
  simp only []
  generalize s.frameTurnJudge.readOutputMode m = x at h2 h3 h4
  have hx : x.feeder.deferred = s.feeder.deferred ∧ x.feeder.nextStrip = s.feeder.nextStrip ∧ x.feeder.outputMode = m :=
    ⟨h2.trans h1.deferred, h3.trans h1.nextStrip, h4⟩
  split
  · have k := (State.issue_unchanged { x with feeder.layoutRead := .waiting } .feeder .feeder (.read .layout Config.layoutBase [])).raster
    exact ⟨k.deferred.trans hx.1, k.nextStrip.trans hx.2.1, k.outputMode.trans hx.2.2⟩
  · have k := x.frameTurnRest_raster
    exact ⟨k.deferred.trans hx.1, k.nextStrip.trans hx.2.1, k.outputMode.trans hx.2.2⟩

/-- With nothing kept for the feeder while it waits for no read, an event moves the mode to come and leaves the next strip. -/
theorem State.feederTakes_raster (s : State) (e : FeederEvent) (h : s.feeder.layoutRead = .idle → s.feeder.deferred = []) :
    ((s.feederTakes e).feeder.layoutRead = .idle → (s.feederTakes e).feeder.deferred = [])
      ∧ (s.feederTakes e).feeder.nextStrip = s.feeder.nextStrip
      ∧ (s.feederTakes e).feeder.dueMode = e.modeAfter s.feeder.dueMode := by
  have of {t : State} (r : Raster s t) (hl : s.feeder.layoutRead = .idle) :
      (t.feeder.layoutRead = .idle → t.feeder.deferred = []) ∧ t.feeder.nextStrip = s.feeder.nextStrip
        ∧ t.feeder.dueMode = s.feeder.dueMode := ⟨fun _ => r.deferred.trans (h hl), r.nextStrip, r.dueMode⟩
  unfold State.feederTakes
  split
  · rename_i hl
    cases e with
    | scanout k => exact of (s.stripScanout_unchanged k).raster hl
    | turn m =>
      obtain ⟨hd, hn, hm⟩ := s.turnFrame_raster m
      refine ⟨fun _ => hd.trans (h hl), hn, ?_⟩
      show (s.turnFrame m).feeder.dueMode = m
      unfold Feeder.dueMode
      rw [hd, h hl, hm]
      rfl
    | takeLayout => exact of (.of_feeder rfl rfl rfl rfl) hl
    | entry m => exact of (s.feederEntry_raster m) hl
  · rename_i hl
    exact ⟨fun k => absurd k hl, rfl, by simp [Feeder.dueMode]⟩

theorem State.feederAll_raster (es : List FeederEvent) (s : State) (h : s.feeder.layoutRead = .idle → s.feeder.deferred = []) :
    ((State.feederAll es s).feeder.layoutRead = .idle → (State.feederAll es s).feeder.deferred = [])
      ∧ (State.feederAll es s).feeder.nextStrip = s.feeder.nextStrip
      ∧ (State.feederAll es s).feeder.dueMode = es.foldl FeederEvent.modeAfter s.feeder.dueMode := by
  induction es generalizing s with
  | nil => exact ⟨h, rfl, rfl⟩
  | cons e es ih =>
    obtain ⟨h1, h2, h3⟩ := s.feederTakes_raster e h
    have k := (State.takeWork_unchanged (s.feederTakes e)).raster
    obtain ⟨i1, i2, i3⟩ := ih (s.feederTakes e).takeWork fun x => k.deferred.trans (h1 (k.idle x))
    refine ⟨i1, i2.trans (k.nextStrip.trans h2), i3.trans ?_⟩
    rw [k.dueMode, h3]
    rfl

/-- The frame turn that goes on acts on the events kept, which decide the mode as before. -/
theorem State.resumeTurn_rasterOk (s : State) (bytes : Option (List Byte)) (h : s.rasterOk) : (s.resumeTurn bytes).rasterOk := by
  obtain ⟨-, h2⟩ := rasterOk_iff.1 h
  let t : State := { s with feeder.layoutRead := .idle, feeder.posted := false, feeder.deferred := [] }
  let t' : State :=
    match bytes with
    | some b => t.applyLayout b
    | none => t.refuseLayout 6 t.feeder.layout.generation 0
  have ht : Raster t t' := by
    cases bytes with
    | some b => exact t.applyLayout_raster b
    | none => exact (t.refuseLayout_unchanged _ _ _).raster
  have hr := ht.trans t'.frameTurnRest_raster
  obtain ⟨k1, k2, k3⟩ := State.feederAll_raster s.feeder.deferred t'.frameTurnRest fun _ => hr.deferred
  refine rasterOk_iff.2 ⟨k1, ?_⟩
  show (State.feederAll s.feeder.deferred t'.frameTurnRest).feeder.nextStrip
    < stripCount (State.feederAll s.feeder.deferred t'.frameTurnRest).feeder.dueMode
  rw [k2, k3, hr.nextStrip, hr.dueMode]
  exact h2

/-- An event that moves the raster to a strip of the mode to come. -/
theorem State.feederTakes_rasterOk {k : Nat} {e : FeederEvent} (h : s.feeder.layoutRead = .idle → s.feeder.deferred = [])
    (hk : k < stripCount (e.modeAfter s.feeder.dueMode)) : ((s.moveRaster k).feederTakes e).rasterOk := by
  obtain ⟨h1, h2, h3⟩ := (s.moveRaster k).feederTakes_raster e h
  exact rasterOk_iff.2 ⟨h1, by rw [h2, h3]; exact hk⟩

theorem stripCount_pos (m : Nat) : 0 < stripCount m := by
  rw [stripCount_eq]
  split <;> [skip; split] <;> decide

end Sys2Proof.Machine
end

section
/-! SUPPORT. What every command keeps: the pins change by moves alone, and the bounds and the raster's invariant are kept. -/

namespace Sys2Proof.Machine

set_option Elab.async false

variable {s t u : State} {a : List Piece}

/-- The pins of t come from those of s by moves, and the bounds and the raster's invariant are kept. -/
structure Kept (s t : State) : Prop extends Sound s t where
  raster : s.rasterOk → t.rasterOk

theorem Sound.kept (h : Sound s t) (r : Raster s t) : Kept s t := ⟨h, r.rasterOk⟩

theorem Sound.keptOf (h : Sound s t) (k : Unchanged a s t) (d : ∀ p ∈ [Piece.layout, .raster, .frameTurn], p ∉ a := by decide) :
    Kept s t := h.kept (k.raster d)

theorem Kept.refl (s : State) : Kept s s := (Sound.refl s).kept (.refl s)

theorem Kept.trans (h : Kept s t) (k : Kept t u) : Kept s u := ⟨h.toSound.trans k.toSound, k.raster ∘ h.raster⟩

/-- A change that neither the pins nor the bounds nor the raster's invariant speak of. -/
theorem Kept.same (hs : Sound s t := by exact .same) (hr : Raster s t := by exact .of_feeder rfl rfl rfl rfl) : Kept s t := hs.kept hr

/-- Whatever a command answers keeps the invariants. -/
def Answers (s : State) (r : Result) : Prop := ∀ t, r = .next t → Kept s t

theorem Answers.next (h : Kept s t) : Answers s (.next t) := by
  rintro _ ⟨⟩
  exact h

theorem Answers.idle : Answers s (.next s) := .next (.refl s)

theorem Answers.close {s0 : State} (h : Kept s t) : Answers s (.next (s0.close t)) :=
  .next (h.trans ((s0.close_sound t).keptOf (s0.close_unchanged t)))

theorem Answers.closeWork {s0 : State} (h : Kept s t) : Answers s (.next (s0.closeWork t)) :=
  .next (h.trans ((s0.closeWork_sound t).keptOf (s0.closeWork_unchanged t)))

/-! ## Pieces that many commands share -/

theorem State.drain_kept (s : State) (enough : State → Bool) : Kept s (s.drain enough) :=
  (s.drain_sound enough).kept (s.drain_raster enough)

theorem State.shutdownTest_kept (s : State) : Kept s s.shutdownTest := s.shutdownTest_sound.keptOf s.shutdownTest_unchanged

theorem State.dropUnit_kept (s : State) : Kept s s.dropUnit := s.dropUnit_sound.keptOf s.dropUnit_unchanged

theorem State.raise_kept (s : State) (o : Block) (k : EventKind) (n x y : Nat) : Kept s (s.raise o k n x y) :=
  (s.raise_sound o k n x y).keptOf (s.raise_unchanged o k n x y)

theorem State.refuse_kept (s : State) (n : Nat) (w : Word) : Kept s (s.refuse n w) := s.raise_kept _ _ _ _ _

theorem State.issue_kept (s : State) (x y : Block) (op : RecordOp) : Kept s (s.issue x y op) :=
  (s.issue_sound x y op).keptOf (s.issue_unchanged x y op)

theorem State.setCause_kept (s : State) (c : Cause) : Kept s (s.setCause c) := (s.setCause_sound c).keptOf (s.setCause_unchanged c)

theorem State.missCapture_kept (s : State) (r : Nat) : Kept s (s.missCapture r) :=
  (s.missCapture_sound r).keptOf (s.missCapture_unchanged r)

theorem State.chainFault_kept (s : State) (k : Nat) : Kept s (s.chainFault k) := (s.chainFault_sound k).keptOf (s.chainFault_unchanged k)

theorem State.takeEvent_kept (s : State) (k : EventKind) (n x y f : Nat) : Kept s (s.takeEvent k n x y f) :=
  (s.takeEvent_sound k n x y f).keptOf (s.takeEvent_unchanged k n x y f)

theorem State.changeMode_keeps (s : State) (m : Mode) (c : Nat) : Kept s (s.changeMode m c) :=
  (s.changeMode_sound m c).keptOf (s.changeMode_unchanged m c)

theorem State.stopReaction_kept (s : State) : Kept s s.stopReaction := s.stopReaction_sound.keptOf s.stopReaction_unchanged

theorem State.feederTakes_kept {k : Nat} {e : FeederEvent} (h : s.rasterOk → k < stripCount (e.modeAfter s.feeder.dueMode)) :
    Kept s ((s.moveRaster k).feederTakes e) where
  toSound := (Sound.same : Sound s (s.moveRaster k)).trans (State.feederTakes_sound _ _)
  raster r := State.feederTakes_rasterOk (rasterOk_iff.1 r).1 (h r)

/-- An event that is no movement of the raster. -/
theorem State.feederTakes_kept_of_still {e : FeederEvent} (h : ∀ m, e.modeAfter m = m) : Kept s (s.feederTakes e) := by
  refine State.feederTakes_kept (k := s.feeder.nextStrip) fun r => ?_
  rw [h]
  exact (rasterOk_iff.1 r).2

/-- The command of a kind of post word keeps what its owner's act keeps. -/
theorem Answers.takeWord {kind : Nat} {allowed : Mode → Bool} {legal : Nat → Bool} {act : Word → State → State}
    (k : ∀ w x, Kept x (act w x)) : Answers s (s.takeWord kind allowed legal act) := by
  intro t h
  rcases State.takeWord_cases h with rfl | ⟨w, rest, hw, rfl⟩ | ⟨w, -, -, rfl⟩
  · exact .refl _
  · have h1 := (s.wordTaken_sound (headWord_fifo hw)).keptOf (s.wordTaken_unchanged rest)
    have h2 : Kept (s.wordTaken rest) ((s.wordTaken rest).dispatch kind allowed legal act w) := by
      unfold State.dispatch
      split
      · exact State.refuse_kept _ _ _
      · split
        · exact State.refuse_kept _ _ _
        · split
          · exact k w _
          · exact .same
    exact Answers.closeWork (h1.trans h2) _ rfl
  · exact Answers.closeWork ((Kept.same : Kept s s.leaveHand).trans (k w _)) _ rfl

/-! ## Sensor events, acceptance, the page monitor -/

theorem execFrameStart_answers (s : State) : Answers s (execFrameStart s) := by
  unfold execFrameStart
  split
  · exact .idle
  · exact .close (s.beginFrame_sound.keptOf s.beginFrame_unchanged)
  · exact .close (s.beginFrame_sound.keptOf s.beginFrame_unchanged)
  · exact .close ((s.malformedFrame_sound.keptOf s.malformedFrame_unchanged).trans
      ((State.beginFrame_sound _).keptOf (State.beginFrame_unchanged _)))

theorem execFrameEnd_answers (s : State) : Answers s (execFrameEnd s) := by
  unfold execFrameEnd
  split
  · exact .idle
  · exact .idle
  · exact .close .same
  · refine .closeWork ?_
    split
    · exact s.frameComplete_sound.keptOf s.frameComplete_unchanged
    · exact (s.malformedFrame_sound.keptOf s.malformedFrame_unchanged).trans .same

theorem execLineStart_answers (s : State) : Answers s (execLineStart s) := by
  unfold execLineStart
  split
  · refine .close ?_
    split
    · exact s.malformedLine_sound.keptOf s.malformedLine_unchanged
    · exact .same
  · exact .idle

theorem execLineEnd_answers (s : State) : Answers s (execLineEnd s) := by
  unfold execLineEnd
  split
  · refine .close ?_
    split
    · exact .same
    · exact s.malformedLine_sound.keptOf s.malformedLine_unchanged
  · exact .idle

theorem execComponent_answers (v : Byte) (s : State) : Answers s (execComponent v s) := by
  unfold execComponent
  split
  · exact .close ((s.takeComponent_sound v).keptOf (s.takeComponent_unchanged v))
  · exact .idle

theorem execAcceptance_answers (s : State) : Answers s (execAcceptance s) := by
  unfold execAcceptance
  split
  · exact .closeWork ((s.acceptPending_sound ‹_›).keptOf (s.acceptPending_unchanged _))
  · exact .idle

theorem execTileMeansArrival_answers (s : State) : Answers s (execTileMeansArrival s) := by
  unfold execTileMeansArrival
  split
  · exact .closeWork ((Kept.same : Kept s { s with intake.meansOut := _ }).trans
      ((State.takeMeans_sound _ _).keptOf (State.takeMeans_unchanged _ _)))
  · exact .idle

theorem execPatternTimeout_answers (s : State) : Answers s (execPatternTimeout s) := by
  unfold execPatternTimeout
  split
  · exact .close (s.endPattern_sound.keptOf s.endPattern_unchanged)
  · exact .idle

/-! ## Capture unit -/

theorem State.actOnDecision_unchanged (s : State) (d : Decision) : Unchanged capturing s (s.actOnDecision d) := by
  unfold State.actOnDecision
  split
  · exact (s.raise_unchanged _ _ _ _ _).mono
  · exact s.takeDecision_unchanged _ _ _ _

theorem execCaptureDecision_answers (s : State) : Answers s (execCaptureDecision s) := by
  unfold execCaptureDecision
  split
  · exact .closeWork ((Kept.same : Kept s { s with capture.decisions := _ }).trans
      ((State.actOnDecision_sound _ _).keptOf (State.actOnDecision_unchanged _ _)))
  · exact .idle

theorem execSlotWaitExpiry_answers (s : State) : Answers s (execSlotWaitExpiry s) := by
  unfold execSlotWaitExpiry
  split
  · exact .closeWork (s.missCapture_kept _)
  · exact .idle

theorem execDescriptorReadDone_answers (s : State) : Answers s (execDescriptorReadDone s) := by
  unfold execDescriptorReadDone
  split
  · exact .idle
  · have h := s.drain_kept fun x => x.capture.read.settled
    have k (x : State) : Kept x { x with capture.read := .idle } := .same
    dsimp only
    split
    · exact .closeWork ((h.trans (k _)).trans ((State.descriptorRead_sound _ _).keptOf (State.descriptorRead_unchanged _ _)))
    · exact .closeWork ((h.trans (k _)).trans (State.chainFault_kept _ _))
    · exact .idle

theorem execCaptureCredit_answers (s : State) : Answers s (execCaptureCredit s) := by
  refine .takeWord fun w x => ?_
  split
  · exact x.refuse_kept _ _
  · have h : Kept x (x.setCredit (min 255 (x.capture.credit + postArgument w))) :=
      (x.setCredit_sound fun _ => Nat.min_le_left _ _).keptOf (x.setCredit_unchanged _)
    dsimp only
    split
    · exact (h.trans (.same : Kept _ (State.stopCount _))).trans ((State.readHead_sound _).keptOf (State.readHead_unchanged _))
    · exact h

theorem execCaptureRestart_answers (s : State) : Answers s (execCaptureRestart s) := by
  refine .takeWord fun w x => ?_
  split
  · exact x.refuse_kept _ _
  · exact (Kept.same : Kept x { x with post.inHand := some w, post.controlRead := .waiting }).trans (State.issue_kept _ _ _ _)

theorem execControlWordsReadDone_answers (s : State) : Answers s (execControlWordsReadDone s) := by
  unfold execControlWordsReadDone
  split
  · exact .idle
  · have h := s.drain_kept fun x => x.post.controlRead.settled
    have k (x : State) : Kept x { x with post.controlRead := .idle, post.inHand := none } := .same
    dsimp only
    split
    · exact .closeWork (((h.trans (k _)).trans ((State.restartChain_sound _ _).keptOf (State.restartChain_unchanged _ _))).trans
        ((State.resumeCapture_sound _).keptOf (State.resumeCapture_unchanged _)))
    · exact .closeWork ((h.trans (k _)).trans (State.refuse_kept _ _ _))
    · exact .idle

theorem execCaptureNow_answers (s : State) : Answers s (execCaptureNow s) := by
  refine .takeWord fun w x => ?_
  split
  · exact x.refuse_kept _ _
  · split
    · exact x.refuse_kept _ _
    · exact (x.takeDecision_sound _ _ _ _).keptOf (x.takeDecision_unchanged _ _ _ _)

theorem execLessonBegin_answers (s : State) : Answers s (execLessonBegin s) := by
  refine .takeWord fun w x => ?_
  split
  · exact x.refuse_kept _ _
  · split
    · exact x.refuse_kept _ _
    · have h := ((x.setCounter_sound 0).keptOf (x.setCounter_unchanged 0)).trans
        ((State.emptyIndex_sound _).keptOf (State.emptyIndex_unchanged _))
      exact ((h.trans ((State.setLesson_sound _ _).keptOf (State.setLesson_unchanged _ _))).trans .same).trans
        (State.raise_kept _ _ _ _ _ _)

theorem execLessonEnd_answers (s : State) : Answers s (execLessonEnd s) := by
  refine .takeWord fun w x => ?_
  split
  · exact x.refuse_kept _ _
  · have h := ((x.setLesson_sound false).keptOf (x.setLesson_unchanged false)).trans (.same : Kept _ (State.markLesson _))
    exact (h.trans ((State.missWaiting_sound _ _).keptOf (State.missWaiting_unchanged _ _))).trans (State.raise_kept _ _ _ _ _ _)

/-! ## Display feeder -/

theorem execStripScanoutStart_answers (k : Nat) (s : State) : Answers s (execStripScanoutStart k s) := by
  unfold execStripScanoutStart
  split
  · rename_i h
    refine .closeWork (State.feederTakes_kept fun r => ?_)
    show k + 1 < stripCount s.feeder.dueMode
    rw [← Feeder.rasterMode_eq (rasterOk_iff.1 r).1]
    exact h.2
  · exact .idle

theorem execFrameTurn_answers (s : State) : Answers s (execFrameTurn s) := by
  unfold execFrameTurn
  split
  · exact .closeWork (State.feederTakes_kept fun _ => stripCount_pos _)
  · exact .idle

theorem execLayoutReadDone_answers (s : State) : Answers s (execLayoutReadDone s) := by
  unfold execLayoutReadDone
  split
  · exact .idle
  · have h := s.drain_kept fun x => x.feeder.layoutRead.settled
    have k (x : State) (b : Option (List Byte)) : Kept x (x.resumeTurn b) := ⟨x.resumeTurn_sound b, x.resumeTurn_rasterOk b⟩
    dsimp only
    split
    · exact .closeWork ((h.trans (k _ _)).trans (State.shutdownTest_kept _))
    · exact .closeWork ((h.trans (k _ _)).trans (State.shutdownTest_kept _))
    · exact .idle

theorem State.stripFaulted_kept (s : State) (b : Bool) : Kept s (s.stripFaulted b) :=
  (s.stripFaulted_unchanged b).sound.keptOf (s.stripFaulted_unchanged b)

/-- The reads of a unit that ends bring its bytes, or meet an error. -/
theorem State.finishReads_kept {u : EngineUnit} {b : Bool} (h : s.finishReads u = (t, b)) : Kept s t := by
  have k := (s.finishReads_sound u).keptOf (s.finishReads_unchanged u)
  rwa [h] at k

theorem execStripComplete_answers (s : State) : Answers s (execStripComplete s) := by
  unfold execStripComplete
  split
  · split
    · split <;> rename_i h
      · exact .closeWork (((State.finishReads_kept h).trans
          ((State.stripDone_unchanged _ _ _).sound.keptOf (State.stripDone_unchanged _ _ _))).trans (State.dropUnit_kept _))
      · exact .closeWork (((State.finishReads_kept h).trans (State.stripFaulted_kept _ _)).trans (State.dropUnit_kept _))
    · exact .idle
  · exact .idle

theorem execTakeLayout_answers (s : State) : Answers s (execTakeLayout s) :=
  .takeWord fun _ _ => State.feederTakes_kept_of_still fun _ => rfl

/-! ## Pieces of captures and jobs -/

theorem State.finishWrites_kept (s : State) (u : EngineUnit) : Kept s (s.finishWrites u) :=
  (s.finishWrites_sound u).keptOf (s.finishWrites_unchanged u)

/-- A unit ends, and the shutdown's condition is tested. -/
theorem Answers.unitEnds {s0 : State} (h : Kept s t) : Answers s (.next (s0.closeWork t.dropUnit.shutdownTest)) :=
  .closeWork ((h.trans t.dropUnit_kept).trans (State.shutdownTest_kept _))

theorem execCapturePieceComplete_answers (s : State) : Answers s (execCapturePieceComplete s) := by
  unfold execCapturePieceComplete
  split
  · split
    · split <;> rename_i h
      · exact .unitEnds (((State.finishReads_kept h).trans (State.finishWrites_kept _ _)).trans
          ((State.capturePieceDone_sound _).keptOf (State.capturePieceDone_unchanged _)))
      · exact .unitEnds ((State.finishReads_kept h).trans
          ((State.capturePieceFaulted_sound _).keptOf (State.capturePieceFaulted_unchanged _)))
    · exact .idle
  · exact .idle

theorem State.jobPieceFaulted_kept (s : State) : Kept s s.jobPieceFaulted := s.jobPieceFaulted_sound.keptOf s.jobPieceFaulted_unchanged

theorem execJobPieceComplete_answers (s : State) : Answers s (execJobPieceComplete s) := by
  unfold execJobPieceComplete
  split
  · split
    · split <;> rename_i h
      · exact .unitEnds (((State.finishReads_kept h).trans (State.finishWrites_kept _ _)).trans
          ((State.jobPieceDone_sound _).keptOf (State.jobPieceDone_unchanged _)))
      · exact .unitEnds ((State.finishReads_kept h).trans (State.jobPieceFaulted_kept _))
    · exact .idle
  · exact .idle

theorem execSignaturePieceComplete_answers (s : State) : Answers s (execSignaturePieceComplete s) := by
  unfold execSignaturePieceComplete
  split
  · split
    · split <;> rename_i h
      · exact .unitEnds ((State.finishReads_kept h).trans
          ((State.signaturePieceDone_sound _ _).keptOf (State.signaturePieceDone_unchanged _ _)))
      · exact .unitEnds ((State.finishReads_kept h).trans (State.jobPieceFaulted_kept _))
    · exact .idle
  · exact .idle

theorem execJobScanDone_answers (s : State) : Answers s (execJobScanDone s) := by
  unfold execJobScanDone
  split
  · exact .idle
  · dsimp only
    split
    · split
      · exact .closeWork ((s.drain_kept _).trans ((State.endScan_sound _ _).keptOf (State.endScan_unchanged _ _)))
      · exact .idle
    · exact .idle

theorem execJobAdd_answers (s : State) : Answers s (execJobAdd s) :=
  .takeWord fun _ x => (Sound.foldl _ State.addEntry_sound _ x).keptOf (State.forEntries_unchanged _ State.addEntry_unchanged x _)

theorem execJobCancel_answers (s : State) : Answers s (execJobCancel s) :=
  .takeWord fun _ x => (Sound.foldl _ State.cancelEntry_sound _ x).keptOf (State.forEntries_unchanged _ State.cancelEntry_unchanged x _)

/-! ## Memory port -/

theorem State.faultUnit_raster (s : State) (u : EngineUnit) : Raster s (s.faultUnit u) := by
  have h (x : State) : Raster x x.dropUnit.shutdownTest := x.dropUnit_unchanged.raster.trans (State.shutdownTest_unchanged _).raster
  unfold State.faultUnit
  dsimp only
  split
  · exact (s.stripFaulted_unchanged _).raster.trans (h _)
  · exact s.capturePieceFaulted_unchanged.raster.trans (h _)
  · exact s.jobPieceFaulted_unchanged.raster.trans (h _)
  · exact s.jobPieceFaulted_unchanged.raster.trans (h _)

theorem State.engineBurst_raster (s : State) (u : EngineUnit) (b : EngineBurst) : Raster s (s.engineBurst u b) := by
  unfold State.engineBurst
  split
  · exact (State.storeRuns_unchanged _ _ _).raster.trans (State.setUnit_unchanged _ _).raster
  · have h := (s.load_unchanged .engine b.addr b.len).raster
    split <;> rename_i e <;> rw [e] at h
    · exact h.trans (State.setUnit_unchanged _ _).raster
    · exact h.trans (State.faultUnit_raster _ _)

theorem State.burstOf_raster {q : Requester} {b : EngineBurst} (h : s.burstOf q b = some t) : Raster s t := by
  unfold State.burstOf at h
  split at h
  · cases h; exact s.intakeBurst_unchanged.raster
  · cases h; exact s.recordBurst_raster
  · cases h; exact s.hostBurst_unchanged.raster
  · split at h
    · split at h
      · cases h; exact s.engineBurst_raster _ _
      · cases h
    · cases h

theorem execMemoryBurstComplete_answers (l : List Upset) (b : EngineBurst) (s : State) : Answers s (execMemoryBurstComplete l b s) := by
  have h : Kept s (s.befall l) := (s.befall_sound l).keptOf (s.befall_unchanged l)
  unfold execMemoryBurstComplete
  split
  · split
    · exact .closeWork h
    · exact .idle
  · split
    · rename_i e
      have k := (State.burstOf_sound e).kept (State.burstOf_raster e)
      exact .closeWork ((h.trans k).trans ((State.countBurst_unchanged _ _).sound.keptOf (State.countBurst_unchanged _ _)))
    · exact .idle

theorem State.hostAccess_answers (s : State) (x : HostAccess) : Answers s (.next (s.close (s.hostAccess x))) :=
  .close ((s.hostAccess_unchanged x).sound.keptOf (s.hostAccess_unchanged x))

theorem execRecordQueueAdmit_answers (s : State) : Answers s (execRecordQueueAdmit s) := by
  unfold execRecordQueueAdmit
  split
  · exact .idle
  · exact .closeWork (s.admitBlocked_sound.keptOf s.admitBlocked_unchanged)

/-! ## Post port -/

theorem execPostWrite_answers (w : Word) (s : State) : Answers s (execPostWrite w s) := by
  unfold execPostWrite
  split
  · exact .idle
  · exact .idle
  · split
    · rename_i hf
      refine .next (.same (.same rfl fun ⟨hq, hi, hb, hc, hr, _, hs⟩ => ⟨hq, hi, hb, hc, hr, ?_, hs⟩))
      simpa using hf
    · exact .next (s.setCause_kept _)

theorem execPostUnknownKind_answers (s : State) : Answers s (execPostUnknownKind s) := by
  unfold execPostUnknownKind
  split
  · exact .idle
  · split
    · exact .closeWork (((s.wordTaken_sound ‹_›).keptOf (s.wordTaken_unchanged _)).trans (State.refuse_kept _ _ _))
    · exact .idle

theorem execApplySetup_answers (s : State) : Answers s (execApplySetup s) :=
  .takeWord fun w x =>
    (Kept.same : Kept x { x with post.inHand := some w, post.handMode := x.control.mode, post.setupRead := .waiting }).trans
      (State.issue_kept _ _ _ _)

theorem execSetupReadDone_answers (s : State) : Answers s (execSetupReadDone s) := by
  unfold execSetupReadDone
  split
  · exact .idle
  · have h := s.drain_kept fun x => x.post.setupRead.settled
    have k (x : State) : Kept x { x with post.setupRead := .idle, post.inHand := none } := .same
    dsimp only
    split
    · exact .closeWork ((h.trans (k _)).trans ((State.setupRead_sound _ _).keptOf (State.setupRead_unchanged _ _)))
    · exact .closeWork ((h.trans (k _)).trans (State.takeEvent_kept _ _ _ _ _ _))
    · exact .idle

theorem execEventAck_answers (s : State) : Answers s (execEventAck s) := by
  refine .takeWord fun w x => ?_
  split
  · exact (x.acknowledge_sound _ ‹_›).keptOf (x.acknowledge_unchanged _)
  · exact x.refuse_kept _ _

theorem execEventArrival_answers (n : Nat) (s : State) : Answers s (execEventArrival n s) := by
  unfold execEventArrival
  split
  · exact .idle
  · split
    · exact .close ((s.takeRaised_sound _ _).keptOf (s.takeRaised_unchanged _ _))
    · exact .idle

theorem execHoldoffExpiry_answers (s : State) : Answers s (execHoldoffExpiry s) := by
  unfold execHoldoffExpiry
  split
  · exact .next (s.signalReady_sound.keptOf s.signalReady_unchanged)
  · exact .idle

theorem execCauseWrite_answers (v : Word) (s : State) : Answers s (execCauseWrite v s) := by
  unfold execCauseWrite
  split
  · exact .next .same
  · exact .idle

theorem execMaskWrite_answers (v : Word) (s : State) : Answers s (execMaskWrite v s) := by
  unfold execMaskWrite
  split
  · exact .next .same
  · exact .idle

theorem execPageForget_answers (s : State) : Answers s (execPageForget s) := by
  refine .takeWord fun w x => ?_
  split
  · exact (x.setEntryState_sound _ _ _).keptOf (x.setEntryState_unchanged _ _ _)
  · exact x.refuse_kept _ _

theorem execClearInstability_answers (s : State) : Answers s (execClearInstability s) :=
  .takeWord fun _ x => ((x.setInstability_sound fun _ => Nat.zero_le _).keptOf (x.setInstability_unchanged 0)).trans
    ((State.setSuspended_sound _ _).keptOf (State.setSuspended_unchanged _ _))

/-! ## Mode control -/

theorem State.reset_rasterOk : State.reset.rasterOk := rasterOk_iff.2 ⟨fun _ => rfl, stripCount_pos _⟩

theorem State.resetAll_kept (s : State) : Kept s s.resetAll := ⟨s.resetAll_sound, fun _ => State.reset_rasterOk⟩

theorem execResetPin_answers (s : State) : Answers s (execResetPin s) := .next (s.resetAll_kept.trans .same)

theorem execSupplyGoodLoss_answers (s : State) : Answers s (execSupplyGoodLoss s) := .next (s.resetAll_kept.trans .same)

theorem execSoftReset_answers (s : State) : Answers s (execSoftReset s) := by
  unfold execSoftReset
  split
  · exact .next s.resetAll_kept
  · exact .idle

theorem execResetRelease_answers (s : State) : Answers s (execResetRelease s) := by
  unfold execResetRelease
  split
  · exact .next .same
  · exact .idle

theorem execBootClearDone_answers (s : State) : Answers s (execBootClearDone s) := by
  unfold execBootClearDone
  split
  · exact .close (((s.clearControl_unchanged.sound.keptOf s.clearControl_unchanged).trans .same).trans
      ((State.issueWrite_sound _ _ _ _).keptOf (State.issueWrite_unchanged _ _ _ _)))
  · exact .idle

theorem State.endBoot_raster (s : State) : Raster s s.endBoot := by
  have h1 : Raster s { s with port.boot := .none, control.warned := false, feeder.rasterOn := true } := .of_feeder rfl rfl rfl rfl
  have h2 (x : State) (m : Mode) (i : IntakeState) : Raster x
      { ({ x with control.announcements := [] } : State).setViews m with intake.state := i } := .of_feeder rfl rfl rfl rfl
  exact (((h1.trans (State.releaseHost_unchanged _).raster).trans (State.leaveBoot_unchanged _ _).raster).trans (h2 _ _ _)).trans
    (State.shutdownTest_unchanged _).raster

theorem execBootEnd_answers (s : State) : Answers s (execBootEnd s) := by
  unfold execBootEnd
  split
  · exact .closeWork ((s.drain_kept _).trans ((State.endBoot_sound _).kept (State.endBoot_raster _)))
  · exact .idle

theorem execModeRequestStandby_answers (s : State) : Answers s (execModeRequestStandby s) := by
  unfold execModeRequestStandby
  split
  · exact .closeWork (s.stopReaction_kept.trans (State.changeMode_keeps _ _ _))
  · exact .idle

theorem execModeRequestLive_answers (s : State) : Answers s (execModeRequestLive s) := by
  unfold execModeRequestLive
  split
  · exact .closeWork (s.changeMode_keeps _ _)
  · exact .next s.stopReaction_kept
  · exact .idle

theorem State.blockEntry_kept (s : State) (b : Block) (m : Mode) : Kept s (s.blockEntry b m) := by
  cases b with
  | intake => exact (s.intakeEntry_sound m).keptOf (s.intakeEntry_unchanged m)
  | monitor => exact (s.monitorEntry_sound m).keptOf (s.monitorEntry_unchanged m)
  | feeder => exact State.feederTakes_kept_of_still fun _ => rfl
  | capture => exact (s.captureEntry_sound m).keptOf (s.captureEntry_unchanged m)
  | jobs => exact (s.jobsEntry_sound m).keptOf (s.jobsEntry_unchanged m)
  | _ => exact .refl s

theorem execModeEntry_answers (b : Block) (s : State) : Answers s (execModeEntry b s) := by
  unfold execModeEntry
  split
  · exact .closeWork (((Kept.same : Kept s (s.dropAnnouncement _)).trans (State.blockEntry_kept _ _ _)).trans
      (State.shutdownTest_kept _))
  · exact .idle

theorem execReactionTimerExpiry_answers (s : State) : Answers s (execReactionTimerExpiry s) := by
  unfold execReactionTimerExpiry
  split
  · exact .closeWork ((s.stopReaction_kept.trans (State.changeMode_keeps _ _ _)).trans (State.raise_kept _ _ _ _ _ _))
  · exact .idle

theorem execPowerWarn_answers (s : State) : Answers s (execPowerWarn s) := by
  have h : Kept s { s with control.warnLevel := true } := .same
  unfold execPowerWarn
  split
  · exact .next .same
  · exact .closeWork (h.trans (State.changeMode_keeps _ _ _))
  · exact .closeWork (h.trans (State.changeMode_keeps _ _ _))
  · exact .next h

theorem execSafeAssert_answers (s : State) : Answers s (execSafeAssert s) := by
  unfold execSafeAssert
  split
  · exact .closeWork (((s.drain_kept _).trans .same).trans (State.setCause_kept _ _))
  · exact .idle

/-! ## Every command, and every step -/

theorem exec_answers (c : Instr) (s : State) : Answers s (exec c s) := by
  cases c with
  | frameStart => exact execFrameStart_answers s
  | frameEnd => exact execFrameEnd_answers s
  | lineStart => exact execLineStart_answers s
  | lineEnd => exact execLineEnd_answers s
  | component v => exact execComponent_answers v s
  | acceptance => exact execAcceptance_answers s
  | tileMeansArrival => exact execTileMeansArrival_answers s
  | patternTimeout => exact execPatternTimeout_answers s
  | captureDecision => exact execCaptureDecision_answers s
  | slotWaitExpiry => exact execSlotWaitExpiry_answers s
  | descriptorReadDone => exact execDescriptorReadDone_answers s
  | stripScanoutStart k => exact execStripScanoutStart_answers k s
  | frameTurn => exact execFrameTurn_answers s
  | layoutReadDone => exact execLayoutReadDone_answers s
  | stripComplete => exact execStripComplete_answers s
  | capturePieceComplete => exact execCapturePieceComplete_answers s
  | jobPieceComplete => exact execJobPieceComplete_answers s
  | signaturePieceComplete => exact execSignaturePieceComplete_answers s
  | jobScanDone => exact execJobScanDone_answers s
  | memoryBurstComplete l b => exact execMemoryBurstComplete_answers l b s
  | hostMemoryRead addr => exact s.hostAccess_answers _
  | hostMemoryWrite addr d e => exact s.hostAccess_answers _
  | recordQueueAdmit => exact execRecordQueueAdmit_answers s
  | postWrite w => exact execPostWrite_answers w s
  | postUnknownKind => exact execPostUnknownKind_answers s
  | applySetup => exact execApplySetup_answers s
  | setupReadDone => exact execSetupReadDone_answers s
  | takeLayout => exact execTakeLayout_answers s
  | captureCredit => exact execCaptureCredit_answers s
  | captureRestart => exact execCaptureRestart_answers s
  | controlWordsReadDone => exact execControlWordsReadDone_answers s
  | captureNow => exact execCaptureNow_answers s
  | lessonBegin => exact execLessonBegin_answers s
  | lessonEnd => exact execLessonEnd_answers s
  | jobAdd => exact execJobAdd_answers s
  | jobCancel => exact execJobCancel_answers s
  | eventAck => exact execEventAck_answers s
  | pageForget => exact execPageForget_answers s
  | clearInstability => exact execClearInstability_answers s
  | eventArrival n => exact execEventArrival_answers n s
  | holdoffExpiry => exact execHoldoffExpiry_answers s
  | causeWrite v => exact execCauseWrite_answers v s
  | maskWrite v => exact execMaskWrite_answers v s
  | softReset => exact execSoftReset_answers s
  | modeRequestStandby => exact execModeRequestStandby_answers s
  | modeRequestLive => exact execModeRequestLive_answers s
  | registerWriteOther r v => exact .idle
  | modeEntry b => exact execModeEntry_answers b s
  | reactionTimerExpiry => exact execReactionTimerExpiry_answers s
  | powerWarn => exact execPowerWarn_answers s
  | safeAssert => exact execSafeAssert_answers s
  | resetPin => exact execResetPin_answers s
  | supplyGoodLoss => exact execSupplyGoodLoss_answers s
  | resetRelease => exact execResetRelease_answers s
  | bootClearDone => exact execBootClearDone_answers s
  | bootEnd => exact execBootEnd_answers s
  | powerWarnInactive => exact .next .same

theorem step_kept (h : step s = .next t) : Kept s t := by
  unfold step at h
  split at h
  · cases h; exact .refl s
  · exact (Kept.same : Kept s { s with pending := _ }).trans (exec_answers _ _ _ h)

/-- What every move keeps, moves keep. -/
theorem PinView.moves_keep {P : PinView → Prop} (hP : ∀ v w, PinView.Move v w → P v → P w) {v w : PinView}
    (h : Relation.ReflTransGen PinView.Move v w) (p : P v) : P w := by
  induction h with
  | refl => exact p
  | tail _ m ih => exact hP _ _ m ih

/-! ## The raster always goes on (R68) -/

theorem closeWork_nextStrip (s0 x : State) : (s0.closeWork x).feeder.nextStrip = x.feeder.nextStrip :=
  (s0.closeWork_unchanged x).raster.nextStrip

/-- What an event does after the raster has moved on leaves it there. -/
theorem State.moved_nextStrip {k : Nat} {e : FeederEvent} (h : s.rasterOk) :
    (s.closeWork ((s.moveRaster k).feederTakes e)).feeder.nextStrip = k := by
  rw [closeWork_nextStrip]
  exact ((s.moveRaster k).feederTakes_raster e (rasterOk_iff.1 h).1).2.1

end Sys2Proof.Machine
end

section
open Sys2Proof Sys2Proof.Machine

/-- Settles O56: every command changes the pins by moves, and every move keeps both invariants. -/
theorem noStepPinsAThirdSlot : Obligations.NoStepPinsAThirdSlot := by
  refine ⟨fun s t h k => pinsOk_iff.2 ?_, fun s t h k => slotsOk_iff.2 ?_⟩
  · exact PinView.moves_keep (fun _ _ m => m.pinsOk) (step_kept k).pins (pinsOk_iff.1 h)
  · exact PinView.moves_keep (fun _ _ m => m.slotsOk) (step_kept k).pins (slotsOk_iff.1 h)

/-- Settles O58: every command keeps the bounds, and the raster comes to a strip of the mode it runs in. -/
theorem everyStepKeepsQueuesInBounds : Obligations.EveryStepKeepsQueuesInBounds := by
  refine ⟨fun s t hq hb h => (step_kept h).bounds ⟨hq, hb⟩, fun s t hr h => (step_kept h).raster hr, fun s hr hon => ⟨fun hl => ?_, fun hl => ?_⟩⟩
  · refine ⟨_, if_pos ?_, State.moved_nextStrip hr⟩
    rw [s.frameStrips_eq] at hl
    simp [State.rasterAt, hon, ← hl]
  · refine ⟨_, if_pos ?_, State.moved_nextStrip hr⟩
    have hn := hr.2
    rw [s.frameStrips_eq] at hl hn
    exact ⟨by simp [State.rasterAt, hon], by omega⟩

end

section
/-! SUPPORT. The state after reset. -/

namespace Sys2Proof.Machine

set_option Elab.async false

theorem State.reset_slot (n : Nat) : State.reset.intake.slot n = {} := by
  show (List.replicate 5 ({} : Slot)).getD n {} = {}
  rw [List.getD_eq_getElem?_getD, List.getElem?_replicate]
  split <;> rfl

theorem State.reset_entry (n : Nat) : State.reset.monitor.entry n = {} := by
  show (List.replicate 64 ({} : IndexEntry)).getD n {} = {}
  rw [List.getD_eq_getElem?_getD, List.getElem?_replicate]
  split <;> rfl

theorem State.reset_pinsOk : State.reset.pinsOk := ⟨by decide, rfl, nofun, nofun, nofun, nofun⟩

theorem State.reset_slotsOk : State.reset.slotsOk := by
  have h (o : PinOwner) (n : Nat) : (State.reset.intake.slot n).pinOf o ≠ true := by
    rw [State.reset_slot]
    cases o <;> decide
  refine ⟨rfl, fun n k => ?_, fun n _ k => absurd k (h .freeze n), fun n k => absurd k (h .capture n), fun _ => rfl,
    fun n k => absurd k (h .job n), nofun, nofun⟩
  rw [State.reset_slot] at k
  rcases k with k | k | k <;> cases k

theorem State.reset_provisionalOk : State.reset.provisionalOk := by
  intro n h
  rw [State.reset_entry] at h
  cases h

theorem State.reset_pagesOk : State.reset.pagesOk :=
  ⟨fun n _ _ h => absurd (congrArg IndexEntry.state (State.reset_entry n)) h,
    fun n h => absurd (congrArg IndexEntry.state (State.reset_entry n)) h, nofun⟩

/-- What a reset leaves: shared memory with its errors, the host access and the inputs (R180). -/
theorem State.resetAll_eq (s : State) :
    s.resetAll =
      { State.reset with
        control := { State.reset.control with
          warnLevel := s.control.warnLevel, pinActive := s.control.pinActive, supplyGood := s.control.supplyGood }
        port := { State.reset.port with
          bridge := s.port.bridge, response := s.port.response, weak := s.port.weak, bad := s.port.bad }
        mem := s.mem, pending := s.pending } := rfl

end Sys2Proof.Machine
end

section
open Sys2Proof Sys2Proof.Machine

/-- Settles O3: the three resets differ in the inputs alone, and the values after reset are read off. -/
theorem resetsGiveTheTablesValues : Obligations.ResetsGiveTheTablesValues := by
  refine ⟨?_, fun s h => if_neg (by simp [State.registersAnswer, h]), ?_⟩
  · rintro c s (rfl | rfl | ⟨rfl, h⟩)
    · exact ⟨_, rfl, rfl, rfl, rfl, rfl, rfl, rfl, rfl, by simp [State.resetAll_eq], rfl, fun _ => rfl⟩
    · exact ⟨_, rfl, rfl, rfl, rfl, rfl, rfl, rfl, rfl, by simp [State.resetAll_eq], rfl, fun _ => rfl⟩
    · exact ⟨_, if_pos (by simp [State.registersAnswer, h]), rfl, rfl, rfl, rfl, rfl, rfl, rfl,
        by simp [State.resetAll_eq], rfl, fun _ => rfl⟩
  · and_intros
    all_goals decide +kernel

/-- Settles O60: each invariant is read off the state after reset. -/
theorem resetHasTheInvariants : Obligations.ResetHasTheInvariants :=
  ⟨State.reset_pinsOk, State.reset_mem_wf, State.reset_queueOk, State.reset_boundsOk, State.reset_provisionalOk, nofun,
    State.reset_slotsOk, State.reset_pagesOk, State.reset_rasterOk⟩

end

section
/-! SUPPORT. Steps that send nothing, and what the intake does with frames, lines and components (R1 to R12). -/

namespace Sys2Proof.Machine

set_option Elab.async false

variable {s t u : State} {changed : List Piece}

/-! ## Steps that issue no operation and raise no event -/

/-- An effect that leaves the record queue and the events waiting issued nothing and raised nothing. -/
theorem Unchanged.quiet (h : Unchanged changed s u) (hr : Piece.records ∉ changed) (ha : Piece.raised ∉ changed) :
    u.ops = s.ops ++ [] ∧ u.news = s.news ++ [] ∧ Stamped s u := by
  obtain ⟨hq, hb, -⟩ := h .records hr
  have he : u.post.raised = s.post.raised := h .raised ha
  exact ⟨by simp [State.ops, hq, hb], by simp [State.news, he], .of_raised he⟩

theorem DidOnly.quiet (h : Unchanged changed s u) (hr : Piece.records ∉ changed := by decide)
    (ha : Piece.raised ∉ changed := by decide) : DidOnly changed [] [] s (s.close u) :=
  .close (h.mono (List.subset_append_left _ _)) fun _ => h.quiet hr ha

theorem Did.quiet (h : Unchanged changed s u) (hr : Piece.records ∉ changed := by decide)
    (ha : Piece.raised ∉ changed := by decide) : Did changed [] [] s (s.closeWork u) :=
  .closeWork (h.mono (List.subset_append_left _ _)) fun _ => h.quiet hr ha

/-! ## Slots -/

@[simp] theorem State.modifySlot_slots (s : State) (n : Nat) (f : Slot → Slot) :
    (s.modifySlot n f).intake.slots = s.intake.slots.modify n f := rfl

/-- A change of one slot leaves the others. -/
theorem SlotsKept.of_modify {n : Nat} {f : Slot → Slot} (h : t.intake.slots = s.intake.slots.modify n f) : SlotsKept (· = n) s t := by
  refine ⟨by rw [h, List.length_modify], fun m hm => ?_⟩
  unfold Intake.slot
  rw [h, getD_modify, if_neg fun k => hm k.1.symm]

theorem slot_of_modify {n : Nat} {f : Slot → Slot} (h : t.intake.slots = s.intake.slots.modify n f) (hn : n < s.intake.slots.length) :
    t.intake.slot n = f (s.intake.slot n) := by
  unfold Intake.slot
  rw [h, getD_modify, if_pos ⟨rfl, hn⟩]

/-- The lowest-numbered fillable slot is the one chosen (R9). -/
theorem Intake.choice_eq {i : Intake} {n : Nat} (hn : n < 5) (hf : i.fillable n = true) (hl : ∀ m, m < n → i.fillable m = false) :
    i.choice = some n := by
  unfold Intake.choice
  exact List.find?_range_eq_some.2 ⟨hf, List.mem_range.2 hn, fun m hm => by simp [hl m hm]⟩

theorem State.chooseSlot_of_choice {n : Nat} (h : s.intake.choice = some n) :
    s.chooseSlot =
      { s with intake := { s.intake with
          slots := s.intake.slots.modify n fun x => { x with fill := .filling, geometry := some s.intake.frameGeometry }
          target := .slot n } } := by
  unfold State.chooseSlot
  rw [h]
  rfl

/-- With at most two slots pinned, at most one newest and at most one held, one of the five is none of these (R9, R10). -/
theorem exists_fillable {slots : List Slot} {newest hold : Option Nat} (hl : slots.length = 5) (hp : slots.countP Slot.pinned ≤ 2) :
    ∃ n, n < 5 ∧ newest ≠ some n ∧ hold ≠ some n ∧ (slots.getD n {}).pinned = false := by
  by_contra hall
  push Not at hall
  have hc : ((Finset.range 5).filter fun n => (slots.getD n {}).pinned = true).card ≤ 2 := by
    match slots, hl with
    | [a, b, c, d, e], _ =>
      simp only [Finset.card_filter, Finset.sum_range_succ, Finset.sum_range_zero]
      simp only [List.countP_cons, List.countP_nil] at hp
      simpa [add_comm, add_left_comm, add_assoc] using hp
  have hs : Finset.range 5 ⊆ newest.toFinset ∪ hold.toFinset ∪ (Finset.range 5).filter fun n => (slots.getD n {}).pinned = true := by
    intro n hn
    have := hall n (Finset.mem_range.1 hn)
    simp only [Finset.mem_union, Option.mem_toFinset, Option.mem_def, Finset.mem_filter]
    by_cases h1 : newest = some n
    · exact .inl (.inl h1)
    · by_cases h2 : hold = some n
      · exact .inl (.inr h2)
      · exact .inr ⟨hn, by simpa using this h1 h2⟩
  have one (o : Option Nat) : o.toFinset.card ≤ 1 := by cases o <;> simp
  have := Finset.card_le_card hs
  have := Finset.card_union_le (newest.toFinset ∪ hold.toFinset) ((Finset.range 5).filter fun n => (slots.getD n {}).pinned = true)
  have := Finset.card_union_le newest.toFinset hold.toFinset
  have := one newest
  have := one hold
  simp only [Finset.card_range] at *
  omega

/-! ## Components (R3, R5, R12) -/

theorem Intake.frameGeometry_eq {i : Intake} {g : Geometry} (h : i.geometry = some g) : i.frameGeometry = g := by
  simp [Intake.frameGeometry, h]

theorem addSample_length (sums : List Nat) (w h x y v : Nat) : (addSample sums w h x y v).length = sums.length := by
  unfold addSample
  split <;> simp

/-- A sample is added to the sum of its tile alone (R12). -/
theorem addSample_getD {sums : List Nat} (hl : sums.length = 192) (w h x y v : Nat) {n : Nat} (hn : n < 192) :
    (addSample sums w h x y v).getD n 0
      = sums.getD n 0 + if x / (w / 16) = n % 16 ∧ y / (h / 12) = n / 16 then v else 0 := by
  unfold addSample tileOf
  generalize x / (w / 16) = c, y / (h / 12) = r
  simp only []
  split <;> rename_i e <;> split at e
  · cases e
    rename_i hc
    simp only [List.getD_eq_getElem?_getD, List.getElem?_modify]
    rw [List.getElem?_eq_getElem (by omega), Option.map_eq_map, Option.map_some, Option.getD_some, Option.getD_some]
    by_cases k : r * 16 + c = n
    · rw [if_pos k, if_pos (by omega)]
    · rw [if_neg k, if_neg (by omega), add_zero]
  · cases e
  · cases e
  · rw [if_neg (by omega), add_zero]

theorem State.takeComponent_of_room {g : Geometry} (hg : s.intake.geometry = some g) (hk : s.intake.lineCount < 2 * g.w)
    (hb : s.intake.target = .standby ∨ s.intake.buffer.length < 8192) (v : Byte) : s.takeComponent v = s.storeComponent v := by
  unfold State.takeComponent
  rw [Intake.frameGeometry_eq hg, if_neg (by omega), if_neg]
  rintro ⟨h1, h2⟩
  rcases hb with hb | hb
  · exact h1 hb
  · exact absurd hb (Nat.not_lt.2 h2)

theorem State.storeComponent_unchanged (s : State) (v : Byte) : Unchanged [.shape, .buffer] s (s.storeComponent v) := by
  intro p hp
  cases p <;> simp_all [same, State.storeComponent]

theorem State.storeComponent_sums {g : Geometry} (hg : s.intake.geometry = some g) (v : Byte) :
    (s.storeComponent v).intake.sums =
      if s.intake.lineCount % 2 = 0 then addSample s.intake.sums g.w g.h (s.intake.lineCount / 2) s.intake.linesDone v.toNat
      else s.intake.sums := by
  simp only [State.storeComponent, componentPlace, Intake.frameGeometry_eq hg]
  by_cases h : s.intake.lineCount % 2 = 0 <;> simp [h]

theorem State.storeComponent_buffer {g : Geometry} (hg : s.intake.geometry = some g) (v : Byte) :
    (s.storeComponent v).intake.buffer =
      if s.intake.target = .standby then s.intake.buffer
      else s.intake.buffer ++
        [if s.intake.lineCount % 2 = 0 then ⟨false, false, s.intake.linesDone * g.w + s.intake.lineCount / 2, v⟩
         else ⟨false, true, g.w * g.h + s.intake.linesDone * g.w + s.intake.lineCount / 2, v⟩] := by
  simp only [State.storeComponent, componentPlace, Intake.frameGeometry_eq hg]
  by_cases h : s.intake.lineCount % 2 = 0 <;> simp [h]

/-! ## The sensor commands by the intake's state -/

theorem execFrameStart_of_idle (h : s.intake.state = .waiting ∨ s.intake.state = .discarding) :
    execFrameStart s = .next (s.close s.beginFrame) := by
  unfold execFrameStart
  rcases h with h | h <;> rw [h]

theorem execFrameStart_of_receiving (h : s.intake.state = .receiving) :
    execFrameStart s = .next (s.close s.malformedFrame.beginFrame) := by
  unfold execFrameStart
  rw [h]

theorem execFrameEnd_of_receiving (h : s.intake.state = .receiving) :
    execFrameEnd s = .next (s.closeWork
      (if s.intake.frameWhole then s.frameComplete else { s.malformedFrame with intake.state := .waiting })) := by
  unfold execFrameEnd
  rw [h]

theorem execLineStart_of_receiving {g : Geometry} (h : s.intake.state = .receiving) (hg : s.intake.geometry = some g) :
    execLineStart s = .next (s.close
      (if s.intake.linesDone = g.h then s.malformedLine else { s with intake.lineOpen := true, intake.lineCount := 0 })) := by
  unfold execLineStart
  rw [h, Intake.frameGeometry_eq hg]

theorem execLineEnd_of_open {g : Geometry} (h : s.intake.state = .receiving) (hl : s.intake.lineOpen = true)
    (hg : s.intake.geometry = some g) :
    execLineEnd s = .next (s.close
      (if s.intake.lineCount = 2 * g.w then { s with intake.lineOpen := false, intake.linesDone := s.intake.linesDone + 1 }
       else s.malformedLine)) := by
  unfold execLineEnd
  rw [h, hl, Intake.frameGeometry_eq hg]

theorem execComponent_of_open (h : s.intake.state = .receiving) (hl : s.intake.lineOpen = true) (v : Byte) :
    execComponent v s = .next (s.close (s.takeComponent v)) := by
  unfold execComponent
  rw [h, hl]

theorem State.lineOpened_unchanged (s : State) (b : Bool) (j k : Nat) :
    Unchanged [.shape] s { s with intake.lineOpen := b, intake.linesDone := j, intake.lineCount := k } := by
  intro p hp
  cases p <;> simp_all [same]

end Sys2Proof.Machine
end

section
open Sys2Proof Sys2Proof.Machine

/-- Settles O26: the cases of the frame start, and a count of the slots that are pinned, newest or held. -/
theorem frameStartsBeginFrames : Obligations.FrameStartsBeginFrames := by
  refine ⟨fun s => ⟨fun h => ?_, fun h => ?_⟩, fun i hl hf hp => ?_⟩
  · show execFrameStart s = _
    unfold execFrameStart
    rw [h]
  · have hx : exec .frameStart s = .next (s.close s.beginFrame) := execFrameStart_of_idle h
    refine ⟨fun hv => ⟨_, hx, ?_⟩, fun hv p hp => ⟨_, hx, ?_⟩, fun hv hp hl n hn hf hm => ⟨_, hx, ?_⟩⟩
    · have hb : s.beginFrame = s.openFrame := by rw [State.beginFrame_eq, if_neg (by simp [hv])]
      rw [hb]
      refine ⟨by simp [State.openFrame, noSums], by simp [State.openFrame], .quiet ?_⟩
      intro q hq
      cases q <;> simp_all [same, State.openFrame]
    · have hb : s.beginFrame = { s.openFrame with intake.target := .deferred } := by
        rw [State.beginFrame_eq, if_pos hv, if_pos (by simp [hp])]
      rw [hb]
      refine ⟨by simp [State.openFrame, noSums], by simp, .quiet ?_⟩
      intro q hq
      cases q <;> simp_all [same, State.openFrame]
    · have hb : s.beginFrame = s.openFrame.chooseSlot := by
        rw [State.beginFrame_eq, if_pos hv, if_neg (by simp [hp])]
      have hc := State.chooseSlot_of_choice (s := s.openFrame) (Intake.choice_eq hn hf hm)
      have hu := s.beginFrame_unchanged
      rw [hb] at hu ⊢
      have hs : (s.close s.openFrame.chooseSlot).intake.slots
          = s.intake.slots.modify n fun x =>
              { x with fill := .filling, geometry := some ⟨s.post.setup.width, s.post.setup.height⟩ } := by
        rw [State.close_intake, hc]
        rfl
      refine ⟨?_, by simp [hc], slot_of_modify hs (by omega), .of_modify hs, .quiet ?_⟩
      · simp only [State.close_intake, hc]
        exact ⟨rfl, rfl, rfl, rfl, rfl, rfl, rfl, rfl⟩
      · exact hu.mono (by simp)
  · obtain ⟨n, hn, h1, h2, h3⟩ := exists_fillable (newest := i.newest) (hold := i.hold) hl
      (by rw [List.countP_eq_length_filter]; exact hp)
    replace h3 : (i.slot n).pinned = false := h3
    have hsome : (i.choice).isSome := List.find?_isSome.2 ⟨n, List.mem_range.2 hn, by simp [Intake.fillable, hf n hn, h1, h2, h3]⟩
    obtain ⟨m, hc⟩ := Option.isSome_iff_exists.1 hsome
    obtain ⟨hmf, hm, hlow⟩ := List.find?_range_eq_some.1 hc
    replace hm := List.mem_range.1 hm
    have hparts := hmf
    simp only [Intake.fillable, Slot.pinned, Bool.and_eq_true, decide_eq_true_eq, Bool.not_eq_true', Bool.or_eq_false_iff] at hparts
    obtain ⟨⟨⟨-, k1⟩, k2⟩, ⟨k3, k4⟩, k5⟩ := hparts
    refine ⟨m, hm, hc, k1, k2, k3, k4, k5, fun k hk => ?_⟩
    have := hlow k hk
    by_contra hno
    simp only [not_or] at hno
    simp [Intake.fillable, hf k (by omega), hno] at this

/-- Settles O27: each command by the intake's state, the line and the buffer. -/
theorem linesAndComponentsAreTaken : Obligations.LinesAndComponentsAreTaken := by
  intro s g value hg
  refine ⟨fun h => ?_, fun h hl => ?_, fun h hj => ⟨_, execLineStart_of_receiving h hg, ?_⟩,
    fun h hl hk => ⟨_, execLineEnd_of_open h hl hg, ?_⟩, fun h hl hk hn hb => ⟨_, execComponent_of_open h hl value, ?_⟩⟩
  · refine ⟨?_, ?_, ?_⟩
    · show execLineStart s = _
      unfold execLineStart
      split <;> simp_all
    · show execLineEnd s = _
      unfold execLineEnd
      split <;> simp_all
    · show execComponent value s = _
      unfold execComponent
      split <;> simp_all
  · refine ⟨?_, ?_⟩
    · show execLineEnd s = _
      unfold execLineEnd
      split <;> simp_all
    · show execComponent value s = _
      unfold execComponent
      split <;> simp_all
  · rw [if_neg (by omega)]
    exact ⟨by simp, .quiet (s.lineOpened_unchanged true _ 0)⟩
  · rw [if_pos hk]
    exact ⟨by simp, .quiet (s.lineOpened_unchanged false (s.intake.linesDone + 1) _)⟩
  · rw [State.takeComponent_of_room hg hk hb]
    have hs := State.storeComponent_sums hg value
    have hbuf := State.storeComponent_buffer hg value
    refine ⟨by simp [State.storeComponent], by simp [State.storeComponent], by simpa [State.storeComponent] using hl,
      by simpa [State.storeComponent] using h, by simp [State.storeComponent], by simp [State.storeComponent], ?_, fun n hlt => ?_, ?_,
      by simp [State.storeComponent], .quiet (s.storeComponent_unchanged value)⟩
    · rw [State.close_intake, hs]
      split
      · rw [addSample_length, hn]
      · exact hn
    · rw [State.close_intake, hs]
      split
      · rw [addSample_getD hn _ _ _ _ _ hlt]
        simp_all
      · simp_all
    · rw [State.close_intake, hbuf]

end

section
/-! SUPPORT. Frames judged bad (R4, R5, R14, R15), and post words that pass their checks (R168). -/

namespace Sys2Proof.Machine

set_option Elab.async false

variable {s t u : State} {changed : List Piece}

/-! ## The instability counter -/

theorem State.bumpInstability_intake (s : State) (c : Nat) :
    (s.bumpInstability c).intake =
      { s.intake with
        instability := min 32 (s.intake.instability + 1)
        suspended := s.intake.suspended || decide (s.intake.instability + 1 = 32) } := by
  unfold State.bumpInstability satInc
  dsimp only
  split
  · rename_i h
    simp [h.1]
  · rename_i h
    by_cases k : s.intake.instability + 1 = 32
    · have hs : s.intake.suspended = true := by simpa [k] using h
      simp [hs]
    · simp [k]

/-- The counter's live field, and, where it reaches 32 with the flag clear, the flag's with SENSOR_UNSTABLE (R14, R15). -/
theorem State.bumpInstability_room {c : Nat} (h : s.roomFor (badOps s).length) :
    (s.bumpInstability c).ops = s.ops ++ badOps s
      ∧ (s.bumpInstability c).news = s.news ++
          (if s.intake.instability + 1 = 32 ∧ s.intake.suspended = false then
            [(.intake, .sensorUnstable, c, s.intake.malformed, s.intake.drops)] else [])
      ∧ Stamped s (s.bumpInstability c) := by
  unfold State.bumpInstability satInc
  unfold badOps at h ⊢
  dsimp only
  split <;> rename_i hc
  · rw [if_pos hc, List.length_append, Nat.add_comm] at h
    obtain ⟨h1, h2⟩ := State.setInstability_room _ h
    have hf : fieldChange ((s.setInstability (min 32 (s.intake.instability + 1))).intake.suspended = true) 0x0E 1 (boolByte true)
        = [fieldWrite 0x0E 1 1] := by simp [fieldChange, hc.2, boolByte]
    obtain ⟨h3, h4⟩ := State.setSuspended_room (s := s.setInstability (min 32 (s.intake.instability + 1))) (k := 0) true
      (by rw [hf]; exact h2)
    refine ⟨?_, ?_, ?_⟩
    · rw [State.raise_ops h4.1, h3, h1, hf, List.append_assoc]
    · rw [State.raise_news _ _ _ _ _ _ (State.not_waiting h4.1 _)]
      simp
    · exact Stamped.raise (.of_raised (by simp)) (by simp) h4.1 _ _ _ _ _
  · rw [if_neg hc, List.append_nil] at h
    obtain ⟨h1, h2⟩ := State.setInstability_room (k := 0) _ (by simpa using h)
    exact ⟨by rw [h1, List.append_nil], by simp, .of_raised (by simp)⟩

/-! ## The frame in hand leaves no trace -/

/-- The slots with the one of the frame in hand FREE (R4, R5). -/
def State.freedSlots (s : State) : List Slot :=
  match s.intake.target with
  | .slot n => s.intake.slots.modify n fun x => { x with fill := .free }
  | _ => s.intake.slots

theorem State.freeTarget_eq (s : State) : s.freeTarget = { s with intake.slots := s.freedSlots } := by
  unfold State.freeTarget State.freedSlots
  cases s.intake.target <;> rfl

theorem State.discardFrame_eq (s : State) :
    s.discardFrame =
      { s with intake := { s.intake with
          slots := s.freedSlots, buffer := s.intake.buffer.filter BufferByte.ofPending, target := .standby, sums := []
          lineOpen := false } } := by
  unfold State.discardFrame
  rw [State.freeTarget_eq]

theorem State.freedSlots_length (s : State) : s.freedSlots.length = s.intake.slots.length := by
  unfold State.freedSlots
  split <;> simp

theorem State.freedSlots_getD (s : State) (m : Nat) :
    s.freedSlots.getD m {} =
      if s.intake.target = .slot m ∧ m < s.intake.slots.length then { s.intake.slot m with fill := .free } else s.intake.slot m := by
  unfold State.freedSlots
  split
  · rename_i n h
    rw [getD_modify, h]
    simp [Intake.slot]
  · rename_i h
    rw [if_neg fun k => h m k.1]
    rfl

/-- The slot of the frame in hand is FREE and every other as before. -/
theorem freed_of_slots (h : t.intake.slots = s.freedSlots) :
    SlotsKept (fun n => s.intake.target = .slot n) s t
      ∧ ∀ n, s.intake.target = .slot n → n < s.intake.slots.length → t.intake.slot n = { s.intake.slot n with fill := .free } := by
  have hs (n : Nat) : t.intake.slot n = s.freedSlots.getD n {} := by rw [← h]; rfl
  refine ⟨⟨by rw [h, s.freedSlots_length], fun n hn => ?_⟩, fun n hn hl => ?_⟩
  · rw [hs, s.freedSlots_getD, if_neg fun k => hn k.1]
  · rw [hs, s.freedSlots_getD, if_pos ⟨hn, hl⟩]

/-- The frame in hand discarded and counted, before the instability counter rises: malformed (cause 0) or dropped (cause 1). -/
def State.countBad (s : State) (cause : Nat) : State :=
  if cause = 0 then { s.discardFrame with intake.malformed := min 4294967295 (s.intake.malformed + 1) }
  else { s.discardFrame with intake.drops := min 4294967295 (s.intake.drops + 1), intake.state := .discarding }

theorem State.malformedFrame_eq (s : State) : s.malformedFrame = (s.countBad 0).bumpInstability 0 := by
  unfold State.malformedFrame State.countBad satInc
  rw [State.discardFrame_eq]
  rfl

theorem State.dropFrame_eq (s : State) : s.dropFrame = (s.countBad 1).bumpInstability 1 := by
  unfold State.dropFrame State.countBad satInc
  rw [State.discardFrame_eq]
  rfl

theorem State.countBad_port (s : State) (c : Nat) : (s.countBad c).port = s.port ∧ (s.countBad c).post = s.post := by
  unfold State.countBad
  rw [State.discardFrame_eq]
  split <;> exact ⟨rfl, rfl⟩

theorem State.countBad_intake (s : State) (c : Nat) :
    (s.countBad c).intake =
      { s.intake with
        slots := s.freedSlots, buffer := s.intake.buffer.filter BufferByte.ofPending, target := .standby, sums := []
        lineOpen := false
        malformed := if c = 0 then min 4294967295 (s.intake.malformed + 1) else s.intake.malformed
        drops := if c = 0 then s.intake.drops else min 4294967295 (s.intake.drops + 1)
        state := if c = 0 then s.intake.state else .discarding } := by
  unfold State.countBad
  rw [State.discardFrame_eq]
  split <;> rfl

/-- What a frame judged bad leaves of the intake. -/
theorem State.countBad_bump_intake (s : State) (c : Nat) :
    ((s.countBad c).bumpInstability c).intake =
      { (s.countBad c).intake with
        instability := min 32 (s.intake.instability + 1)
        suspended := s.intake.suspended || decide (s.intake.instability + 1 = 32) } := by
  rw [State.bumpInstability_intake, State.countBad_intake]

/-- A frame is judged bad by what its step leaves of the counters, the bytes and the marks. -/
theorem JudgedBad.of_intake {c : Nat} (hc : c = 0 ∨ c = 1) {i : Intake} (hi : i = ((s.countBad c).bumpInstability c).intake)
    (h : t.intake.malformed = i.malformed ∧ t.intake.drops = i.drops ∧ t.intake.instability = i.instability
      ∧ t.intake.suspended = i.suspended ∧ t.intake.buffer = i.buffer ∧ t.intake.pendingFrame = i.pendingFrame
      ∧ t.intake.newest = i.newest ∧ t.intake.hold = i.hold) : JudgedBad c s t := by
  obtain ⟨h1, h2, h3, h4, h5, h6, h7, h8⟩ := h
  rw [State.countBad_bump_intake, State.countBad_intake] at hi
  subst hi
  unfold JudgedBad
  rw [h1, h2, h3, h4, h5, h6, h7, h8]
  rcases hc with rfl | rfl <;> exact ⟨rfl, rfl, rfl, rfl, rfl, rfl, rfl, rfl⟩

/-- What a frame judged bad sends: the steps that follow in its command send nothing. -/
theorem State.countBad_bump_room {c : Nat} (h : s.roomFor (badOps s).length)
    (hp : u.port = ((s.countBad c).bumpInstability c).port) (hr : u.post = ((s.countBad c).bumpInstability c).post)
    (hi : u.intake.malformed = ((s.countBad c).bumpInstability c).intake.malformed
      ∧ u.intake.drops = ((s.countBad c).bumpInstability c).intake.drops ∧ u.intake.frameNumber = s.intake.frameNumber) :
    u.ops = s.ops ++ badOps s ∧ u.news = s.news ++ badNews c s u ∧ Stamped s u := by
  obtain ⟨p1, p2⟩ := s.countBad_port c
  have e : badOps (s.countBad c) = badOps s := by
    unfold badOps
    rw [s.countBad_intake c]
  have hroom : (s.countBad c).roomFor (badOps (s.countBad c)).length := by
    rw [e]
    unfold State.roomFor State.noneWait
    rw [p1]
    exact h
  obtain ⟨h1, h2, h3⟩ := State.bumpInstability_room (c := c) hroom
  obtain ⟨i1, i2, i3⟩ := hi
  refine ⟨?_, ?_, fun x hx => ?_⟩
  · rw [e] at h1
    unfold State.ops at h1 ⊢
    rw [hp, h1, p1]
  · unfold State.news at h2 ⊢
    unfold badNews
    rw [hr, h2, p2, i1, i2, State.bumpInstability_intake, State.countBad_intake]
  · rw [hr] at hx
    have := h3 x (by rw [p2]; exact hx)
    rw [this, i3, State.bumpInstability_intake, State.countBad_intake]

/-! ## Post words that pass their checks (R168) -/

/-- A word that its owner can answer at once, in a mode and with an argument that pass, is taken and acted on (R168). -/
theorem takeWord_of_holds {kind : Nat} {w : Word} {rest : List Word} {allowed : Mode → Bool} {legal : Nat → Bool}
    {act : Word → State → State} (h : s.holdsWord kind w rest) (hr : s.control.mode ≠ .reset) (hb : s.control.mode ≠ .boot)
    (ha : allowed s.control.mode = true) (hl : legal (postArgument w) = true) :
    s.takeWord kind allowed legal act = .next (s.closeWork (act w (s.wordTaken rest))) := by
  obtain ⟨hw, ho⟩ := h
  have hc : (s.wordTaken rest).control.mode = s.control.mode := (s.wordTaken_unchanged rest) .mode (by decide)
  have hf : (s.wordTaken rest).ownersFree kind = s.ownersFree kind := by
    unfold State.ownersFree State.wordTaken
    dsimp only
    split <;> rfl
  unfold State.takeWord
  rw [headWord_some hw hr hb]
  unfold State.dispatch
  simp [hc, ha, hl, hf, ho]

theorem State.wordTaken_eq (s : State) (rest : List Word) :
    s.wordTaken rest =
      { s with
        post.fifo := rest
        control.timerOn := if s.control.mode.takesWords = true then false else s.control.timerOn } := by
  unfold State.wordTaken State.stopReaction
  dsimp only
  split <;> rfl

theorem State.wordTaken_took (s : State) (rest : List Word) : Took rest s (s.wordTaken rest) := by
  rw [State.wordTaken_eq]
  unfold Took Mode.takesWords
  cases s.control.mode <;> simp

theorem Took.of_same {rest : List Word} (h : Took rest s t) (hf : u.post.fifo = t.post.fifo) (hc : u.control = t.control) : Took rest s u := by
  unfold Took at h ⊢
  rw [hf, hc]
  exact h

end Sys2Proof.Machine
end

section
/-! SUPPORT. The ways a frame ends badly, and the frame start that ends one and begins the next (R2 to R5, R9). -/

namespace Sys2Proof.Machine

set_option Elab.async false

variable {s t u : State} {changed : List Piece}

theorem countBad_bump_slots (s : State) (c : Nat) : ((s.countBad c).bumpInstability c).intake.slots = s.freedSlots := by
  rw [State.countBad_bump_intake, State.countBad_intake]

/-- The frame in hand is judged bad, and the intake goes on in a state. -/
def State.endedBad (s : State) (c : Nat) (st : IntakeState) : State := { (s.countBad c).bumpInstability c with intake.state := st }

theorem State.malformedLine_eq (s : State) : s.malformedLine = s.endedBad 0 .discarding := by
  unfold State.malformedLine State.endedBad
  rw [State.malformedFrame_eq]

theorem State.dropFrame_endedBad (s : State) : s.dropFrame = s.endedBad 1 .discarding := by
  have h : ((s.countBad 1).bumpInstability 1).intake.state = .discarding := by
    rw [State.countBad_bump_intake, State.countBad_intake]
    rfl
  rw [State.dropFrame_eq]
  unfold State.endedBad
  rw [← h]

theorem State.endedBad_frameNumber (s : State) (c : Nat) (st : IntakeState) :
    (s.endedBad c st).intake.frameNumber = s.intake.frameNumber := by
  unfold State.endedBad
  dsimp only
  rw [State.countBad_bump_intake, State.countBad_intake]

/-- What a frame judged bad is to the host: the counters, the events and the slot of the frame. -/
theorem State.endedBad_judged {c : Nat} {st : IntakeState} (hc : c = 0 ∨ c = 1) (h : t.intake = (s.endedBad c st).intake) :
    JudgedBad c s t ∧ t.intake.state = st
      ∧ SlotsKept (fun n => s.intake.target = .slot n) s t
      ∧ ∀ n, s.intake.target = .slot n → n < s.intake.slots.length → t.intake.slot n = { s.intake.slot n with fill := .free } := by
  refine ⟨.of_intake hc rfl (by rw [h]; exact ⟨rfl, rfl, rfl, rfl, rfl, rfl, rfl, rfl⟩), by rw [h]; rfl, freed_of_slots ?_⟩
  rw [h]
  exact countBad_bump_slots s c

theorem State.endedBad_unchanged (s : State) {c : Nat} (hc : c = 0 ∨ c = 1) (st : IntakeState) : Unchanged discarding s (s.endedBad c st) := by
  have set (x : State) : Unchanged [.shape] x { x with intake.state := st } := by
    intro p hp
    cases p <;> simp_all [same]
  rcases hc with rfl | rfl
  · exact .comp (by rw [← State.malformedFrame_eq]; exact s.malformedFrame_unchanged) (set _)
  · exact .comp (by rw [← State.dropFrame_eq]; exact s.dropFrame_unchanged) (set _)

theorem State.endedBad_room {c : Nat} {st : IntakeState} (h : s.roomFor (badOps s).length) :
    (s.endedBad c st).ops = s.ops ++ badOps s ∧ (s.endedBad c st).news = s.news ++ badNews c s (s.endedBad c st)
      ∧ Stamped s (s.endedBad c st) :=
  State.countBad_bump_room h rfl rfl ⟨rfl, rfl, s.endedBad_frameNumber c st⟩

/-- A frame judged bad, when the arbiter alone closes the step. -/
theorem State.endedBad_didOnly {c : Nat} (hc : c = 0 ∨ c = 1) (st : IntakeState) :
    DidOnly [.shape, .buffer, .slots, .badFrames, .instability] (badOps s) (badNews c s (s.endedBad c st)) s
      (s.close (s.endedBad c st)) :=
  .close ((s.endedBad_unchanged hc st).mono (by simp)) State.endedBad_room

theorem badNews_congr {c : Nat} (h : t.intake = u.intake) : badNews c s t = badNews c s u := by
  unfold badNews
  rw [h]

/-- What a step that judges the frame in hand bad, and passes over the rest of it, leaves. -/
theorem State.passedOver {c : Nat} (hc : c = 0 ∨ c = 1) (h : u = s.endedBad c .discarding) :
    JudgedBad c s (s.close u) ∧ (s.close u).intake.state = .discarding
      ∧ (SlotsKept (fun n => s.intake.target = .slot n) s (s.close u)
        ∧ ∀ n, s.intake.target = .slot n → n < s.intake.slots.length →
            (s.close u).intake.slot n = { s.intake.slot n with fill := .free })
      ∧ DidOnly [.shape, .buffer, .slots, .badFrames, .instability] (badOps s) (badNews c s (s.close u)) s (s.close u) := by
  subst h
  obtain ⟨h1, h2, h3⟩ := State.endedBad_judged (t := s.close (s.endedBad c .discarding)) hc (s.close_intake _)
  rw [badNews_congr (s.close_intake _)]
  exact ⟨h1, h2, h3, State.endedBad_didOnly hc _⟩

/-! ## A frame start within a frame (R2, R3) -/

/-- The intake's state does not matter to the frame that begins. -/
theorem State.beginFrame_endedBad (s : State) : s.malformedFrame.beginFrame = (s.endedBad 0 .discarding).beginFrame := by
  rw [State.malformedFrame_eq]
  rfl

theorem State.endedBad_post (s : State) (st : IntakeState) : (s.endedBad 0 st).post.setup = s.post.setup :=
  (s.endedBad_unchanged (.inl rfl) st .setup (by decide)).1

theorem State.endedBad_intake (s : State) (st : IntakeState) :
    (s.endedBad 0 st).intake =
      { s.intake with
        slots := s.freedSlots, buffer := s.intake.buffer.filter BufferByte.ofPending, target := .standby, sums := []
        lineOpen := false, malformed := min 4294967295 (s.intake.malformed + 1), state := st
        instability := min 32 (s.intake.instability + 1)
        suspended := s.intake.suspended || decide (s.intake.instability + 1 = 32) } := by
  unfold State.endedBad
  dsimp only
  rw [State.countBad_bump_intake, State.countBad_intake]
  rfl

/-- What the frame start within a frame leaves of the intake, but for the slot it goes to. -/
theorem restarted_intake {tgt : Target} {slots : List Slot}
    (h : t.intake = { (s.endedBad 0 .discarding).openFrame.intake with target := tgt, slots := slots }) :
    JudgedBad 0 s t ∧ t.intake.state = .receiving
      ∧ t.intake.geometry = some ⟨s.post.setup.width, s.post.setup.height⟩ ∧ t.intake.linesDone = 0
      ∧ t.intake.lineOpen = false ∧ t.intake.lineCount = 0 ∧ t.intake.sums = List.replicate 192 0 := by
  have hp := s.endedBad_post .discarding
  refine ⟨.of_intake (.inl rfl) rfl ?_, by rw [h]; rfl, ?_, by rw [h]; rfl, by rw [h]; rfl, by rw [h]; rfl, by rw [h]; rfl⟩
  · rw [h]
    exact ⟨rfl, rfl, rfl, rfl, rfl, rfl, rfl, rfl⟩
  · rw [h, ← hp]
    rfl

/-- What the frame start within a frame sends. -/
theorem restarted_didOnly (s : State) :
    DidOnly [.shape, .buffer, .slots, .badFrames, .instability] (badOps s)
      (badNews 0 s (s.close (s.endedBad 0 .discarding).beginFrame)) s (s.close (s.endedBad 0 .discarding).beginFrame) := by
  have hu := (s.endedBad 0 .discarding).beginFrame_unchanged
  have hi : (s.endedBad 0 .discarding).beginFrame.intake.malformed = (s.endedBad 0 .discarding).intake.malformed
      ∧ (s.endedBad 0 .discarding).beginFrame.intake.drops = (s.endedBad 0 .discarding).intake.drops := hu .badFrames (by decide)
  have hs := hu .statistics (by decide)
  have hb : (s.endedBad 0 .discarding).beginFrame.port = (s.endedBad 0 .discarding).port
      ∧ (s.endedBad 0 .discarding).beginFrame.post = (s.endedBad 0 .discarding).post := by
    rw [State.beginFrame_eq]
    split
    · split
      · exact ⟨rfl, rfl⟩
      · unfold State.chooseSlot
        split <;> exact ⟨rfl, rfl⟩
    · exact ⟨rfl, rfl⟩
  rw [badNews_congr (s.close_intake _)]
  refine .close (.comp (s.endedBad_unchanged (.inl rfl) _) hu (by simp) (by simp)) fun h => ?_
  exact State.countBad_bump_room h hb.1 hb.2 ⟨hi.1, hi.2, hs.2.1.trans (s.endedBad_frameNumber _ _)⟩

theorem State.endedBad_slot (s : State) (m : Nat) :
    (s.endedBad 0 .discarding).intake.slot m =
      if s.intake.target = .slot m ∧ m < s.intake.slots.length then { s.intake.slot m with fill := .free } else s.intake.slot m := by
  rw [← State.freedSlots_getD, State.endedBad_intake]
  rfl

/-- A slot is fillable once the malformed frame's slot is FREE (R8, R9). -/
theorem State.endedBad_fillable (s : State) {m : Nat} (hm : m < s.intake.slots.length) :
    (s.endedBad 0 .discarding).intake.fillable m = true ↔
      ((s.intake.slot m).fill ≠ .filling ∨ s.intake.target = .slot m) ∧ s.intake.newest ≠ some m ∧ s.intake.hold ≠ some m
        ∧ (s.intake.slot m).pinFreeze = false ∧ (s.intake.slot m).pinCapture = false ∧ (s.intake.slot m).pinJob = false := by
  unfold Intake.fillable
  rw [State.endedBad_slot, State.endedBad_intake]
  by_cases h : s.intake.target = .slot m <;> simp [h, hm, Slot.pinned, and_assoc]

end Sys2Proof.Machine
end

section
open Sys2Proof Sys2Proof.Machine

/-- Settles O28: each judgement discards the frame and bumps the counter, and the restart chooses among the slots that it leaves. -/
theorem badFramesAreCountedAndDiscarded : Obligations.BadFramesAreCountedAndDiscarded := by
  refine ⟨fun s g value hg hs => ?_, fun s w rest hm hw => ?_⟩
  · have hstart : exec .frameStart s = .next (s.close (s.endedBad 0 .discarding).beginFrame) := by
      rw [← State.beginFrame_endedBad]
      exact execFrameStart_of_receiving hs
    have he := s.endedBad_intake .discarding
    refine ⟨fun hl => ⟨_, execLineStart_of_receiving hs hg, ?_⟩, fun ho hk => ⟨_, execLineEnd_of_open hs ho hg, ?_⟩,
      fun ho hk => ⟨_, execComponent_of_open hs ho value, ?_⟩, fun ho hk ht hb => ⟨_, execComponent_of_open hs ho value, ?_⟩,
      fun hn => ⟨_, execFrameEnd_of_receiving hs, ?_⟩, fun hv => ⟨_, hstart, ?_⟩,
      fun hv => ⟨fun p hp => ⟨_, hstart, ?_⟩, fun hp hl n hn hf hlow => ⟨_, hstart, ?_⟩⟩⟩
    · rw [if_pos hl]
      exact State.passedOver (.inl rfl) s.malformedLine_eq
    · rw [if_neg hk]
      exact State.passedOver (.inl rfl) s.malformedLine_eq
    · have h : s.takeComponent value = s.malformedLine := by
        unfold State.takeComponent
        rw [Intake.frameGeometry_eq hg, if_pos hk]
      rw [h]
      exact State.passedOver (.inl rfl) s.malformedLine_eq
    · have h : s.takeComponent value = s.dropFrame := by
        unfold State.takeComponent
        rw [Intake.frameGeometry_eq hg, if_neg (by omega), if_pos ⟨ht, hb⟩]
      rw [h]
      exact State.passedOver (.inr rfl) s.dropFrame_endedBad
    · have h : (if s.intake.frameWhole then s.frameComplete else { s.malformedFrame with intake.state := .waiting })
          = s.endedBad 0 .waiting := by
        rw [if_neg, State.malformedFrame_eq]
        · rfl
        · rw [Intake.frameWhole, Intake.frameGeometry_eq hg]
          rcases hn with hn | hn <;> simp [hn]
      rw [h]
      obtain ⟨h1, h2, h3⟩ := State.endedBad_judged (t := s.closeWork (s.endedBad 0 .waiting)) (.inl rfl) (s.closeWork_intake _)
      refine ⟨h1, h2, h3, ?_⟩
      rw [badNews_congr (s.closeWork_intake _)]
      exact .closeWork ((s.endedBad_unchanged (.inl rfl) _).mono (by simp)) State.endedBad_room
    · have hb : (s.endedBad 0 .discarding).beginFrame = (s.endedBad 0 .discarding).openFrame := by
        rw [State.beginFrame_eq, if_neg (by rw [he]; simp [hv])]
      have hi : (s.close (s.endedBad 0 .discarding).beginFrame).intake
          = { (s.endedBad 0 .discarding).openFrame.intake with target := .standby } := by rw [State.close_intake, hb]; rfl
      obtain ⟨h1, h2, h3, h4, -, -, h7⟩ := restarted_intake (slots := (s.endedBad 0 .discarding).openFrame.intake.slots) hi
      exact ⟨h1, h2, by rw [hi], h4, h3, h7, restarted_didOnly s⟩
    · have hb : (s.endedBad 0 .discarding).beginFrame = { (s.endedBad 0 .discarding).openFrame with intake.target := .deferred } := by
        rw [State.beginFrame_eq, if_pos (by rw [he]; exact hv), if_pos (by rw [he]; simp [hp])]
      have hi : (s.close (s.endedBad 0 .discarding).beginFrame).intake
          = { (s.endedBad 0 .discarding).openFrame.intake with target := .deferred } := by rw [State.close_intake, hb]
      obtain ⟨h1, h2, h3, h4, h5, h6, h7⟩ := restarted_intake (slots := (s.endedBad 0 .discarding).openFrame.intake.slots) hi
      refine ⟨⟨h1, h2, h3, h4, h5, h6, h7, restarted_didOnly s⟩, freed_of_slots ?_, by rw [hi]⟩
      rw [hi]
      exact congrArg Intake.slots he
    · have hfill (m : Nat) (hm : m < 5) := s.endedBad_fillable (m := m) (by omega)
      have hb : (s.endedBad 0 .discarding).beginFrame = (s.endedBad 0 .discarding).openFrame.chooseSlot := by
        rw [State.beginFrame_eq, if_pos (by rw [he]; exact hv), if_neg (by rw [he]; simp [hp])]
      have hc := State.chooseSlot_of_choice (s := (s.endedBad 0 .discarding).openFrame) (n := n)
        (Intake.choice_eq hn ((hfill n hn).2 hf) fun m hm => by
          rw [← Bool.not_eq_true]
          exact fun k => hlow m hm ((hfill m (by omega)).1 k))
      have hi : (s.close (s.endedBad 0 .discarding).beginFrame).intake
          = { (s.endedBad 0 .discarding).openFrame.intake with
              target := .slot n
              slots := s.freedSlots.modify n fun x =>
                { x with fill := .filling, geometry := some ⟨s.post.setup.width, s.post.setup.height⟩ } } := by
        rw [State.close_intake, hb, hc, ← s.endedBad_post .discarding, ← countBad_bump_slots s 0]
        rfl
      obtain ⟨h1, h2, h3, h4, h5, h6, h7⟩ := restarted_intake hi
      have hslot (m : Nat) : (s.close (s.endedBad 0 .discarding).beginFrame).intake.slot m
          = if n = m ∧ m < 5 then
              { s.freedSlots.getD m {} with fill := .filling, geometry := some ⟨s.post.setup.width, s.post.setup.height⟩ }
            else s.freedSlots.getD m {} := by
        rw [hi, ← hl, ← s.freedSlots_length]
        exact getD_modify
      refine ⟨⟨h1, h2, h3, h4, h5, h6, h7, restarted_didOnly s⟩, by rw [hi], ?_, ⟨?_, fun m hm => ?_⟩, fun m hm ht h5 => ?_⟩
      · rw [hslot, if_pos ⟨rfl, hn⟩, s.freedSlots_getD]
        split <;> rfl
      · rw [hi, List.length_modify, s.freedSlots_length]
      · rw [hslot, if_neg fun k => hm (.inl k.1.symm), s.freedSlots_getD, if_neg fun k => hm (.inr k.1)]
      · rw [hslot, if_neg fun k => hm k.1.symm, s.freedSlots_getD, if_pos ⟨ht, by omega⟩]
  · have hr : s.control.mode ≠ .reset := by rcases hm with h | h <;> simp [h]
    have hb : s.control.mode ≠ .boot := by rcases hm with h | h <;> simp [h]
    have ha : Mode.takesWords s.control.mode = true := by rcases hm with h | h <;> simp [h, Mode.takesWords]
    refine ⟨_, takeWord_of_holds hw hr hb ha rfl, ?_⟩
    have hi : (s.wordTaken rest).intake = s.intake := by rw [State.wordTaken_eq]
    have hh : (s.wordTaken rest).post.inHand = none := by rw [State.wordTaken_eq]; exact hw.1.2.2.1
    have ho : (s.wordTaken rest).ops = s.ops := by rw [State.wordTaken_eq]; rfl
    refine ⟨.of_same (s.wordTaken_took rest) (by simp) (by simp), by simp [hh], by simp, by simp, .closeWork ?_ fun room => ?_⟩
    · exact .comp (.comp (s.wordTaken_unchanged rest) (State.setInstability_unchanged _ _) (c := [.fifo, .timer, .instability, .records, .arbiter]))
        (State.setSuspended_unchanged _ _)
    · rw [List.length_append, Nat.add_comm] at room
      obtain ⟨h1, h2⟩ := State.setInstability_room (s := s.wordTaken rest) 0 (by rw [hi, State.wordTaken_eq]; exact room)
      obtain ⟨h3, -⟩ := State.setSuspended_room (k := 0) false
        (s := (s.wordTaken rest).setInstability 0) (by simpa [hi, boolByte] using h2)
      refine ⟨?_, by simp [(s.wordTaken_unchanged rest).news], .of_raised (by simp [State.wordTaken_eq])⟩
      rw [h3, h1, ho]
      simp [hi, boolByte]

end

section
/-! SUPPORT. The acceptance of a frame (R6, R7, R12 to R14, R114). -/

namespace Sys2Proof.Machine

set_option Elab.async false

variable {s t u x : State} {changed a b : List Piece}

theorem State.countSlotWait_intake (s : State) : s.countSlotWait.intake = s.intake := by
  unfold State.countSlotWait
  split <;> rfl

theorem State.acceptMeans_intake (s : State) (m : List Nat) (g : Geometry) :
    (s.acceptMeans m g).intake =
      { s.intake with
        frameNumber := wrapInc s.intake.frameNumber
        held := some ⟨m, wrapInc s.intake.frameNumber, g⟩
        instability := s.intake.instability - 1
        meansOut := s.intake.meansOut ++ [⟨m, wrapInc s.intake.frameNumber, g⟩] } := by
  unfold State.acceptMeans
  dsimp only
  rw [State.countSlotWait_intake]
  simp

theorem State.acceptMeans_accepted (s : State) (m : List Nat) (g : Geometry) : AcceptedMeans s (s.acceptMeans m g) m g := by
  have hi := s.acceptMeans_intake m g
  refine ⟨by rw [hi]; rfl, by rw [hi]; rfl, by rw [hi]; rfl, by rw [hi], by rw [hi], ?_⟩
  unfold State.acceptMeans State.countSlotWait
  dsimp only
  by_cases h : s.capture.slotWaiting = true <;> simp [h]

/-- What an acceptance speaks of, carried over steps that leave it. -/
theorem AcceptedMeans.carry {m : List Nat} {g : Geometry} (h : AcceptedMeans x u m g) (hs : Unchanged a s x) (ht : Unchanged b u t)
    (ka : ∀ p ∈ [Piece.statistics, .instability, .slotWait, .setup], p ∉ a := by decide)
    (kb : ∀ p ∈ [Piece.statistics, .instability, .slotWait], p ∉ b := by decide) : AcceptedMeans s t m g := by
  have a1 := hs .statistics (ka _ (by simp))
  have a2 := hs .instability (ka _ (by simp))
  have a3 := hs .slotWait (ka _ (by simp))
  have a4 := hs .setup (ka _ (by simp))
  have b1 := ht .statistics (kb _ (by simp))
  have b2 := ht .instability (kb _ (by simp))
  have b3 := ht .slotWait (kb _ (by simp))
  simp only [same] at a1 a2 a3 a4 b1 b2 b3
  unfold AcceptedMeans at h ⊢
  simpa only [a1, a2, a3, a4, b1, b2, b3] using h

theorem State.acceptMeans_room {m : List Nat} {g : Geometry} (h : s.roomFor (acceptOps s).length) :
    (s.acceptMeans m g).ops = s.ops ++ acceptOps s := by
  obtain ⟨h1, -⟩ := State.setInstability_room (k := 0)
    (s := { s with intake.frameNumber := wrapInc s.intake.frameNumber, intake.held := some ⟨m, wrapInc s.intake.frameNumber, g⟩ })
    (s.intake.instability - 1) (by rw [Nat.zero_add]; exact h)
  unfold State.acceptMeans State.countSlotWait
  dsimp only
  split <;> exact h1

/-- What an acceptance sends, where the rest of its step sends nothing. -/
theorem acceptMeans_sends {m : List Nat} {g : Geometry} (hs : Unchanged a s x) (ht : Unchanged b (x.acceptMeans m g) u)
    (hr : s.roomFor (acceptOps s).length) (ka : ∀ p ∈ [Piece.records, .raised, .instability], p ∉ a := by decide)
    (kb : ∀ p ∈ [Piece.records, .raised], p ∉ b := by decide) :
    u.ops = s.ops ++ acceptOps s ∧ u.news = s.news ++ [] ∧ Stamped s u := by
  obtain ⟨q1, q2, q3⟩ := hs .records (ka _ (by simp))
  obtain ⟨r1, r2, -⟩ := ht .records (kb _ (by simp))
  have hi := (hs .instability (ka _ (by simp))).1
  have h1 : u.post.raised = (x.acceptMeans m g).post.raised := ht .raised (kb _ (by simp))
  have h2 : (x.acceptMeans m g).post.raised = x.post.raised := x.acceptMeans_unchanged m g .raised (by decide)
  have h3 : x.post.raised = s.post.raised := hs .raised (ka _ (by simp))
  have he := (h1.trans h2).trans h3
  have ho : acceptOps x = acceptOps s := by
    unfold acceptOps
    rw [hi]
  have hx : x.roomFor (acceptOps x).length := by
    rw [ho]
    unfold State.roomFor State.noneWait at hr ⊢
    rw [q1, q2, q3]
    exact hr
  refine ⟨?_, by simp [State.news, he], .of_raised he⟩
  have := State.acceptMeans_room (m := m) (g := g) hx
  unfold State.ops at this ⊢
  rw [r1, r2, this, ho, q1, q2]

/-! ## The pending frame (R6, R7) -/

/-- With no byte of the pending frame left in the buffer, nothing is delivered. -/
theorem State.deliverPending_none (h : ∀ c ∈ s.intake.buffer, c.ofPending = false) (p : PendingFrame) : s.deliverPending p = s := by
  have hc (k : Bool) : s.intake.planeBytes true k = [] := by
    unfold Intake.planeBytes
    exact List.filter_eq_nil_iff.2 fun c hc => by simp [h c hc]
  have hp : s.intake.pendingCells p.slot = [] := by
    unfold Intake.pendingCells
    rw [hc, hc]
    rfl
  have hb : s.intake.buffer.filter (fun c => !c.ofPending) = s.intake.buffer := List.filter_eq_self.2 fun c hc => by simp [h c hc]
  unfold State.deliverPending
  rw [hp]
  show { s with intake.buffer := s.intake.buffer.filter fun c => !c.ofPending } = s
  rw [hb]

/-- The newest mark after the acceptance (R6, R16; assumption log 39). -/
def State.newestAfter (s : State) (p : PendingFrame) : Option Nat :=
  if p.noMark = true ∨ s.intake.view = .standby then s.intake.newest else some p.slot

/-- The pending frame's slot is COMPLETE, with its mark, and nothing is pending. -/
def State.completed (s : State) (p : PendingFrame) : State :=
  { s with intake := { s.intake with
      slots := s.intake.slots.modify p.slot fun y => { y with fill := .complete }
      newest := s.newestAfter p
      pendingFrame := none } }

theorem State.completeSlot_eq (s : State) (p : PendingFrame) : { s.completeSlot p with intake.pendingFrame := none } = s.completed p := by
  unfold State.completeSlot State.completed State.newestAfter
  dsimp only
  split <;> rfl

theorem State.completed_unchanged (s : State) (p : PendingFrame) : Unchanged [.slots, .buffer] s (s.completed p) := by
  intro q hq
  cases q <;> simp_all [same, State.completed]

theorem State.acceptPending_eq (h : ∀ c ∈ s.intake.buffer, c.ofPending = false) (p : PendingFrame) :
    s.acceptPending p = ((s.completed p).acceptMeans p.means p.geometry).deferredChoice := by
  unfold State.acceptPending
  dsimp only
  rw [State.deliverPending_none h, State.completeSlot_eq]

theorem Intake.fillable_iff {i : Intake} {n : Nat} :
    i.fillable n = true ↔
      (i.slot n).fill ≠ .filling ∧ i.newest ≠ some n ∧ i.hold ≠ some n ∧ (i.slot n).pinFreeze = false
        ∧ (i.slot n).pinCapture = false ∧ (i.slot n).pinJob = false := by
  simp [Intake.fillable, Slot.pinned, and_assoc]

/-- A slot is fillable once the accepted frame's is COMPLETE and the newest mark has moved (R7, R8). -/
theorem State.completed_fillable (s : State) (p : PendingFrame) (m : Nat) :
    ((s.completed p).acceptMeans p.means p.geometry).intake.fillable m = true ↔
      ((s.intake.slots.modify p.slot fun y => { y with fill := .complete }).getD m {}).fill ≠ .filling
        ∧ s.newestAfter p ≠ some m ∧ s.intake.hold ≠ some m
        ∧ ((s.intake.slots.modify p.slot fun y => { y with fill := .complete }).getD m {}).pinFreeze = false
        ∧ ((s.intake.slots.modify p.slot fun y => { y with fill := .complete }).getD m {}).pinCapture = false
        ∧ ((s.intake.slots.modify p.slot fun y => { y with fill := .complete }).getD m {}).pinJob = false := by
  rw [Intake.fillable_iff, State.acceptMeans_intake]
  rfl

theorem execAcceptance_of_pending {p : PendingFrame} (h : s.intake.pendingFrame = some p) :
    execAcceptance s = .next (s.closeWork (s.acceptPending p)) := by
  unfold execAcceptance
  rw [h]

/-! ## The frame end (R2, R6) -/

theorem Intake.frameWhole_of {g : Geometry} (hg : s.intake.geometry = some g) (hl : s.intake.linesDone = g.h)
    (ho : s.intake.lineOpen = false) : s.intake.frameWhole = true := by
  simp [Intake.frameWhole, Intake.frameGeometry_eq hg, hl, ho]

theorem Intake.frameMeans_eq {g : Geometry} (hg : s.intake.geometry = some g) :
    s.intake.frameMeans = s.intake.sums.map fun y => y / (g.w / 16 * (g.h / 12)) := by
  unfold Intake.frameMeans tileMeans
  rw [Intake.frameGeometry_eq hg]

/-- A whole frame with a slot waits for its last bytes (R6). -/
def State.pend (s : State) (p : PendingFrame) : State :=
  { s with intake := { s.intake with
      state := .waiting, pendingFrame := some p, buffer := s.intake.buffer.map fun c => { c with ofPending := true }
      target := .standby, sums := [] } }

theorem State.pend_unchanged (s : State) (p : PendingFrame) : Unchanged [.shape, .buffer] s (s.pend p) := by
  intro q hq
  cases q <;> simp_all [same, State.pend]

/-- A whole frame without a slot has nothing to wait for. -/
def State.frameOver (s : State) : State := { s with intake.state := .waiting, intake.sums := [] }

theorem State.frameOver_unchanged (s : State) : Unchanged [.shape] s s.frameOver := by
  intro q hq
  cases q <;> simp_all [same, State.frameOver]

end Sys2Proof.Machine
end

section
open Sys2Proof Sys2Proof.Machine

/-- Settles O29: the frame end by where the frame goes, and the acceptance by whether a choice waits for it. -/
theorem completeFramesAreAccepted : Obligations.CompleteFramesAreAccepted := by
  intro s g hg
  refine ⟨fun hs hl ho => ?_, fun hs => ?_, fun p hp hb hslot => ?_⟩
  · have hx : exec .frameEnd s = .next (s.closeWork s.frameComplete) := by
      refine (execFrameEnd_of_receiving hs).trans ?_
      rw [if_pos (Intake.frameWhole_of hg hl ho)]
    have hm := Intake.frameMeans_eq hg
    have hG := Intake.frameGeometry_eq hg
    refine ⟨fun ht => ⟨_, hx, ?_⟩, fun n ht => ⟨_, hx, ?_⟩⟩
    · have hf : s.frameComplete = s.frameOver.acceptMeans (s.intake.sums.map fun y => y / (g.w / 16 * (g.h / 12))) g := by
        unfold State.frameComplete
        rw [ht]
        dsimp only
        rw [hm, hG]
        rfl
      rw [hf]
      refine ⟨(State.acceptMeans_accepted _ _ _).carry s.frameOver_unchanged (s.closeWork_unchanged _), ?_, .closeWork ?_ fun hr => ?_⟩
      · rw [State.closeWork_intake, State.acceptMeans_intake]
        rfl
      · exact .comp s.frameOver_unchanged (State.acceptMeans_unchanged _ _ _)
      · exact acceptMeans_sends s.frameOver_unchanged (.refl _ : Unchanged [] _ _) hr
    · have hf : s.frameComplete = s.pend ⟨n, g, s.intake.sums.map fun y => y / (g.w / 16 * (g.h / 12)), false⟩ := by
        unfold State.frameComplete
        rw [ht]
        dsimp only
        rw [hm, hG]
        rfl
      rw [hf]
      refine ⟨?_, ?_, ?_, ?_, .quiet (s.pend_unchanged _)⟩ <;> rw [State.closeWork_intake] <;> unfold State.pend
      · rfl
      · rfl
      · exact List.length_map _
      · intro c hc
        obtain ⟨d, -, rfl⟩ := List.mem_map.1 hc
        rfl
  · refine ⟨s.close { s with intake.state := .waiting }, ?_, State.close_intake _ _, .quiet fun q hq => ?_⟩
    · show execFrameEnd s = _
      unfold execFrameEnd
      rw [hs]
    · cases q <;> simp_all [same]
  · have hx : exec .acceptance s = .next (s.closeWork ((s.completed p).acceptMeans p.means p.geometry).deferredChoice) := by
      rw [← State.acceptPending_eq hb]
      exact execAcceptance_of_pending hp
    have hc := s.completed_unchanged p
    have hi := (s.completed p).acceptMeans_intake p.means p.geometry
    refine ⟨fun ht => ⟨_, hx, ?_⟩, fun ht hl n hn hf hlow => ⟨_, hx, ?_⟩⟩
    · have hd : ((s.completed p).acceptMeans p.means p.geometry).deferredChoice = (s.completed p).acceptMeans p.means p.geometry := by
        unfold State.deferredChoice
        rw [if_neg]
        rw [hi]
        exact ht
      rw [hd]
      have hs : (s.closeWork ((s.completed p).acceptMeans p.means p.geometry)).intake.slots
          = s.intake.slots.modify p.slot fun y => { y with fill := .complete } := by
        rw [State.closeWork_intake, hi]
        rfl
      refine ⟨(State.acceptMeans_accepted _ _ _).carry hc (s.closeWork_unchanged _), ?_, ?_, slot_of_modify hs hslot, .of_modify hs,
        ?_, ?_, .closeWork ?_ fun hr => ?_⟩
      · rw [State.closeWork_intake, hi]
        rfl
      · rw [State.closeWork_intake, hi]
        rfl
      · rw [State.closeWork_intake, hi]
        rfl
      · rw [State.closeWork_intake, hi]
        rfl
      · exact .comp hc (State.acceptMeans_unchanged _ _ _)
      · exact acceptMeans_sends hc (.refl _ : Unchanged [] _ _) hr
    · have hfill (m : Nat) := s.completed_fillable p m
      have hG : ((s.completed p).acceptMeans p.means p.geometry).intake.frameGeometry = g := by
        rw [hi]
        exact Intake.frameGeometry_eq hg
      have hch := State.chooseSlot_of_choice (s := (s.completed p).acceptMeans p.means p.geometry) (n := n)
        (Intake.choice_eq hn ((hfill n).2 hf) fun m hm => by
          rw [← Bool.not_eq_true]
          exact fun k => hlow m hm ((hfill m).1 k))
      have hd : ((s.completed p).acceptMeans p.means p.geometry).deferredChoice
          = ((s.completed p).acceptMeans p.means p.geometry).chooseSlot := by
        unfold State.deferredChoice
        rw [if_pos]
        rw [hi]
        exact ht
      have hI : (s.closeWork ((s.completed p).acceptMeans p.means p.geometry).chooseSlot).intake =
          { (s.completed p).intake with
            frameNumber := wrapInc s.intake.frameNumber
            held := some ⟨p.means, wrapInc s.intake.frameNumber, p.geometry⟩
            instability := s.intake.instability - 1
            meansOut := s.intake.meansOut ++ [⟨p.means, wrapInc s.intake.frameNumber, p.geometry⟩]
            slots := (s.completed p).intake.slots.modify n fun y => { y with fill := .filling, geometry := some g }
            target := .slot n } := by
        rw [State.closeWork_intake, hch, hG, hi]
        rfl
      have hu := ((s.completed p).acceptMeans p.means p.geometry).chooseSlot_unchanged
      have hc4 := AcceptedMeans.carry (State.acceptMeans_accepted (s.completed p) p.means p.geometry) hc
        (hu.comp (s.closeWork_unchanged _) (c := [.slots, .shape] ++ takingWork) (by decide) (by decide))
      rw [hd]
      refine ⟨hc4, (congrArg Intake.pendingFrame hI :), (congrArg Intake.buffer hI :), (congrArg Intake.newest hI :),
        (congrArg Intake.hold hI :),
        (congrArg Intake.target hI :), (congrArg Intake.slots hI :), (congrArg Intake.state hI :), (congrArg Intake.geometry hI :),
        (congrArg Intake.linesDone hI :), (congrArg Intake.lineOpen hI :), (congrArg Intake.lineCount hI :), (congrArg Intake.sums hI :),
        .closeWork ?_ fun hr => ?_⟩
      · exact .comp (.comp hc (State.acceptMeans_unchanged _ _ _) (c := [.slots, .buffer, .statistics, .instability, .records, .slotWait,
          .arbiter])) hu
      · exact acceptMeans_sends hc hu hr

end

section
/-! SUPPORT. The freeze pin of a layout (R10, R11, R79). -/

namespace Sys2Proof.Machine

set_option Elab.async false

variable {s t u : State} {o m : Nat} {l : RawLayout}

namespace PinView

variable {v : PinView}

theorem grants_of_few (h : v.slots.countP Slot.pinned < 2) : v.grants m = true := by simp [grants, h]

theorem grants_of_pinned (h : (v.slot m).pinned = true) : v.grants m = true := by simp [grants, h]

theorem capturePin_grants (h : m < v.slots.length) : (v.capturePin m).grants m = true := by
  refine grants_of_pinned ?_
  rw [show (v.capturePin m).slot m = _ from pin_slot_self h]
  exact Slot.pinned_withPin_true _ _

theorem capturePin_endCapture_grants (h : v.slots.countP Slot.pinned < 2) : ((v.capturePin m).endCapture).grants m = true := by
  rw [endCapture_capturePin]
  exact grants_of_few (Nat.lt_of_le_of_lt count_pin_false_le h)

end PinView

/-! ## The pin taken off a slot and set again -/

theorem Slot.pinned_dropFreeze (x : Slot) : (x.withPin .freeze false).pinned = (x.pinCapture || x.pinJob) := by
  simp [Slot.withPin, Slot.pinned]

theorem Slot.withPin_of_freeze {x : Slot} (h : x.pinFreeze = true) : (x.withPin .freeze false).withPin .freeze true = x := by
  cases x
  cases h
  rfl

/-- A freeze pin taken off and set again leaves the slots as they were. -/
theorem State.givePin_dropPin (h : (s.intake.slot o).pinFreeze = true) : (s.dropPin o .freeze).givePin o .freeze = s := by
  have he : (s.intake.slots.modify o fun x => x.withPin .freeze false).modify o (fun x => x.withPin .freeze true)
      = s.intake.slots := by
    rw [List.modify_modify_eq]
    refine List.ext_getElem (List.length_modify _ _ _) fun k h1 h2 => ?_
    rw [List.getElem_modify]
    split
    · rename_i hk
      subst hk
      have hs : s.intake.slot o = s.intake.slots[o] := by
        unfold Intake.slot
        rw [List.getD_eq_getElem?_getD, List.getElem?_eq_getElem h2, Option.getD_some]
      rw [hs] at h
      exact Slot.withPin_of_freeze h
    · rfl
  show { s with intake.slots := (s.intake.slots.modify o fun x => x.withPin .freeze false).modify o fun x => x.withPin .freeze true } = s
  rw [he]

/-- A slot that another owner keeps pinned is pinned after the freeze pin is taken off, and counts as before (R11). -/
theorem dropPin_kept (hp : (s.intake.slot o).pinFreeze = true)
    (hk : (s.intake.slot o).pinCapture = true ∨ (s.intake.slot o).pinJob = true) :
    ((s.dropPin o .freeze).intake.slot o).pinned = true
      ∧ (s.dropPin o .freeze).intake.pinnedCount = s.intake.pinnedCount
      ∧ s.releasePin o .freeze = s.dropPin o .freeze := by
  have ho : o < s.pins.slots.length := PinView.lt_of_pinOf (o := .freeze) hp
  have h1 : ((s.dropPin o .freeze).intake.slot o).pinned = true := by
    rw [show (s.dropPin o .freeze).intake.slot o = _ from PinView.pin_slot_self (v := s.pins) ho, Slot.pinned_dropFreeze]
    rcases hk with hk | hk
    · simp [show (s.pins.slot o).pinCapture = true from hk]
    · simp [show (s.pins.slot o).pinJob = true from hk]
  refine ⟨h1, ?_, ?_⟩
  · have hc := PinView.count_pin (o := .freeze) (on := false) ho
    have h2 : (s.pins.slot o).pinned = true := Slot.pinned_iff.2 ⟨.freeze, hp⟩
    have h3 : ((s.pins.pin o .freeze false).slot o).pinned = true := h1
    rw [if_pos h2, if_pos h3] at hc
    exact Nat.add_right_cancel hc
  · unfold State.releasePin
    dsimp only
    rw [if_neg (by simp [h1])]

/-- A slot that no other owner pins is left unpinned, with one slot fewer pinned. -/
theorem dropPin_freed (hp : (s.intake.slot o).pinFreeze = true) (hc : (s.intake.slot o).pinCapture = false)
    (hj : (s.intake.slot o).pinJob = false) :
    ((s.dropPin o .freeze).intake.slot o).pinned = false
      ∧ (s.dropPin o .freeze).intake.pinnedCount + 1 = s.intake.pinnedCount := by
  have ho : o < s.pins.slots.length := PinView.lt_of_pinOf (o := .freeze) hp
  have h1 : ((s.dropPin o .freeze).intake.slot o).pinned = false := by
    rw [show (s.dropPin o .freeze).intake.slot o = _ from PinView.pin_slot_self (v := s.pins) ho, Slot.pinned_dropFreeze]
    simp [show (s.pins.slot o).pinCapture = false from hc, show (s.pins.slot o).pinJob = false from hj]
  exact ⟨h1, PinView.count_pin_off (v := s.pins) hp h1⟩

/-! ## The settling (R79) -/

theorem State.newestForFreeze_live (hv : s.feeder.view = .live) (hn : s.intake.newest = some m) : s.newestForFreeze = some m := by
  unfold State.newestForFreeze
  rw [if_pos hv, hn]

theorem State.newestForFreeze_none (h : s.intake.newest = none ∨ s.feeder.view = .standby) : s.newestForFreeze = none := by
  unfold State.newestForFreeze
  rcases h with h | h <;> simp [h]

theorem State.settleFreeze_first (hl : l.firstFreeze ≠ none) (hf : s.intake.freezeSlot = none) (hn : s.newestForFreeze = some m) :
    s.settleFreeze l = s.requestFreeze m none := by
  unfold State.settleFreeze
  rw [if_neg hl, hf, hn]

theorem State.settleFreeze_keep (hl : l.firstFreeze ≠ none) (hf : s.intake.freezeSlot = some o) (hr : l.refreeze = false) :
    s.settleFreeze l = (s, none) := by
  unfold State.settleFreeze
  rw [if_neg hl, hf]
  simp [hr]

theorem State.settleFreeze_move (hl : l.firstFreeze ≠ none) (hf : s.intake.freezeSlot = some o) (hr : l.refreeze = true)
    (hn : s.newestForFreeze = some m) : s.settleFreeze l = (s.releasePin o .freeze).requestFreeze m (some o) := by
  unfold State.settleFreeze
  rw [if_neg hl, hf, hn]
  simp [hr]

theorem State.settleFreeze_noFrame (hl : l.firstFreeze ≠ none) (hf : s.intake.freezeSlot = none ∨ l.refreeze = true)
    (hn : s.newestForFreeze = none) : s.settleFreeze l = (s, some 4) := by
  unfold State.settleFreeze
  rw [if_neg hl, hn]
  cases he : s.intake.freezeSlot with
  | none => rfl
  | some o =>
    have hr : l.refreeze = true := by simpa [he] using hf
    simp [hr]

theorem State.requestFreeze_granted {old : Option Nat} (h : s.intake.poolGrants m = true) :
    s.requestFreeze m old = (s.givePin m .freeze, none) := if_pos h

theorem State.requestFreeze_refused {old : Option Nat} (h : s.intake.poolGrants m = false) :
    s.requestFreeze m old = match old with | some k => (s.givePin k .freeze, some 5) | none => (s, some 5) :=
  if_neg (by simp [h])

theorem poolGrants_iff {i : Intake} : i.poolGrants m = true ↔ (i.slot m).pinned = true ∨ i.pinnedCount < 2 := by
  simp [Intake.poolGrants]

end Sys2Proof.Machine
end

section
open Sys2Proof Sys2Proof.Machine

/-- Settles O53: the settling by the pin held, the refreeze flag, and what the release leaves for the request. -/
theorem freezePinsAreSettled : Obligations.FreezePinsAreSettled := by
  refine ⟨fun s l i hl hn hf => State.settleFreeze_noFrame (by simp [hl]) hf (State.newestForFreeze_none hn),
    fun s l m i hl hv hn h5 hm => ?_⟩
  have hl' : l.firstFreeze ≠ none := by simp [hl]
  have hn' := State.newestForFreeze_live hv hn
  refine ⟨fun hf hg => ?_, fun hf hp hc => ?_, fun o hf hr => State.settleFreeze_keep hl' hf hr, fun o hf hr hk hp hc => ?_,
    fun o hf hr hk hg => ?_, fun o hf hr hc hj hw hcount => ?_, fun o hf hr hc hj hw hcount => ?_⟩
  · rw [State.settleFreeze_first hl' hf hn', State.requestFreeze_granted (poolGrants_iff.2 hg)]
    rfl
  · rw [State.settleFreeze_first hl' hf hn', State.requestFreeze_refused]
    rw [← Bool.not_eq_true, poolGrants_iff]
    simp [hp]
    omega
  · obtain ⟨h1, h2, h3⟩ := dropPin_kept (freezeSlot_some hf) hk
    have hne : o ≠ m := by
      rintro rfl
      rw [Slot.pinned_iff.2 ⟨.freeze, freezeSlot_some hf⟩] at hp
      cases hp
    have hm' : (s.dropPin o .freeze).intake.slot m = s.intake.slot m := getD_modify.trans (if_neg fun k => hne k.1)
    rw [State.settleFreeze_move hl' hf hr hn', h3, State.requestFreeze_refused]
    · dsimp only
      rw [State.givePin_dropPin (freezeSlot_some hf)]
    · rw [← Bool.not_eq_true, poolGrants_iff, hm', h2]
      simp [hp]
      omega
  · obtain ⟨h1, h2, h3⟩ := dropPin_kept (freezeSlot_some hf) hk
    have hg' : (s.dropPin o .freeze).intake.poolGrants m = true := by
      rw [poolGrants_iff, h2]
      by_cases hne : o = m
      · exact .inl (hne ▸ h1)
      · rwa [show (s.dropPin o .freeze).intake.slot m = s.intake.slot m from getD_modify.trans (if_neg fun k => hne k.1)]
    rw [State.settleFreeze_move hl' hf hr hn', h3, State.requestFreeze_granted hg']
    rfl
  · obtain ⟨h1, h2⟩ := dropPin_freed (freezeSlot_some hf) hc hj
    have h3 : s.releasePin o .freeze = (s.dropPin o .freeze).capturePinned m := by
      unfold State.releasePin
      dsimp only
      rw [if_pos ⟨by simp [h1], hw⟩, show (s.dropPin o .freeze).intake.newest = some m from hn]
    have hg : ((s.dropPin o .freeze).capturePinned m).intake.poolGrants m = true := by
      show ((s.dropPin o .freeze).capturePinned m).pins.grants m = true
      have hlen : m < (s.dropPin o .freeze).pins.slots.length := by
        rw [State.dropPin_pins, PinView.pin_length]
        show m < s.intake.slots.length
        omega
      rcases (s.dropPin o .freeze).capturePinned_pins m with e | e <;> rw [e]
      · exact PinView.capturePin_grants hlen
      · exact PinView.capturePin_endCapture_grants (show (s.dropPin o .freeze).intake.pinnedCount < 2 by omega)
    rw [State.settleFreeze_move hl' hf hr hn', h3, State.requestFreeze_granted hg]
    rfl
  · obtain ⟨h1, h2⟩ := dropPin_freed (freezeSlot_some hf) hc hj
    have h3 : s.releasePin o .freeze = s.dropPin o .freeze := by
      unfold State.releasePin
      dsimp only
      exact if_neg fun k => hw k.2
    rw [State.settleFreeze_move hl' hf hr hn', h3, State.requestFreeze_granted (poolGrants_iff.2 (.inr (by omega)))]
    rfl

end

section
/-! SUPPORT. The entries of a mode at the intake and the page monitor (R16, R17, R25, R182). -/

namespace Sys2Proof.Machine

set_option Elab.async false

variable {s t u x : State} {changed a b : List Piece} {m : Mode}

/-! ## MODE_ENTRY (R182, R187) -/

/-- A step that leaves what the test of R187 asks for leaves the part up. -/
theorem shutdownTest_of_staysUp (h : s.staysUp) (hu : Unchanged a s t)
    (k : ∀ p ∈ [Piece.mode, .announcements, .frameTurn, .context, .runningJob, .records], p ∉ a := by decide) : t.shutdownTest = t := by
  have h1 := hu .mode (k _ (by simp))
  have h2 := hu .announcements (k _ (by simp))
  have h3 := hu .frameTurn (k _ (by simp))
  have h4 := hu .context (k _ (by simp))
  have h5 := hu .runningJob (k _ (by simp))
  have h6 := hu .records (k _ (by simp))
  simp only [same] at h1 h2 h3 h4 h5 h6
  unfold State.shutdownTest
  refine if_neg fun ⟨k1, k2, k3, k4, k5, k6⟩ => ?_
  have e : t.entriesDone = s.entriesDone := by simp [State.entriesDone, h2, h3.2.2]
  have f (c : Block) : t.free c = s.free c := by simp [State.free, State.waiting, h6]
  rw [h1] at k1
  rw [e] at k2
  rw [h4] at k3
  rw [h5] at k4
  rw [f] at k5 k6
  rcases h with h | h
  · rcases h with h | h | h | h <;> simp_all
  · rcases h with h | h | h | h <;> simp_all

theorem takesEntry_of_ready {c : Block} (h : s.readyForEntry c) : s.takesEntry c = true := by
  have ho : s.owesAnswer c = false := by
    unfold State.owesAnswer State.dispatched
    split
    · rename_i w hw
      split at hw
      · rename_i hr
        simpa using h.2 w ⟨hw, hr.1, hr.2⟩
      · cases hw
    · rfl
  simp [State.takesEntry, h.1, ho]

/-- A block that is ready takes its announcement, and the part stays up where the entry leaves the test of R187 unmet. -/
theorem execModeEntry_of_ready {c : Block} (ha : s.control.announced c = some ⟨c, m⟩) (hr : s.readyForEntry c)
    (hs : (s.dropAnnouncement ⟨c, m⟩).staysUp) (hu : Unchanged a (s.dropAnnouncement ⟨c, m⟩) ((s.dropAnnouncement ⟨c, m⟩).blockEntry c m))
    (k : ∀ p ∈ [Piece.mode, .announcements, .frameTurn, .context, .runningJob, .records], p ∉ a := by decide) :
    execModeEntry c s = .next (s.closeWork ((s.dropAnnouncement ⟨c, m⟩).blockEntry c m)) := by
  unfold execModeEntry
  rw [ha, takesEntry_of_ready hr]
  dsimp only
  rw [shutdownTest_of_staysUp hs hu k]

/-! ## The intake's entries (R16, R17) -/

/-- The frame in hand is passed over, uncounted, and the intake goes on in a state (R16, R17). -/
def State.passedTo (s : State) (st : IntakeState) : Intake :=
  { s.intake with
    slots := s.freedSlots, buffer := s.intake.buffer.filter BufferByte.ofPending, target := .standby, sums := [], lineOpen := false
    state := st }

/-- The entry to STANDBY leaves no newest mark, and the pending frame will take none (R16). -/
def Intake.unmarked (i : Intake) : Intake :=
  { i with view := .standby, newest := none, pendingFrame := i.pendingFrame.map fun p => { p with noMark := true } }

theorem State.intakeEntry_standby_passed (hr : s.intake.state = .receiving) (ht : s.intake.target ≠ .standby) :
    (s.intakeEntry .standby).intake = (s.passedTo .discarding).unmarked := by
  unfold State.intakeEntry State.passOver State.unmarkPending
  dsimp only
  rw [if_pos ⟨hr, ht⟩, State.discardFrame_eq]
  rfl

theorem State.intakeEntry_standby_kept (h : s.intake.state ≠ .receiving ∨ s.intake.target = .standby) :
    (s.intakeEntry .standby).intake =
      { s.intake with state := if s.intake.state = IntakeState.stopped then .waiting else s.intake.state }.unmarked := by
  unfold State.intakeEntry State.passOver State.unmarkPending
  dsimp only
  rw [if_neg (by tauto)]
  rfl

theorem State.intakeEntry_shutting (s : State) :
    (s.intakeEntry .shutting).intake = { s.passedTo .stopped with view := .shutting } := by
  unfold State.intakeEntry
  dsimp only
  rw [State.discardFrame_eq]
  rfl

theorem State.intakeEntry_other (h : m ≠ .standby) (k : m ≠ .shutting) : (s.intakeEntry m).intake = { s.intake with view := m } := by
  unfold State.intakeEntry
  dsimp only
  split
  · exact absurd rfl h
  · exact absurd rfl k
  · rfl

/-- Whatever the mode, the entry counts no frame, and leaves the display hold. -/
theorem State.intakeEntry_kept (s : State) (m : Mode) :
    (s.intakeEntry m).intake.view = m ∧ (s.intakeEntry m).intake.malformed = s.intake.malformed
      ∧ (s.intakeEntry m).intake.drops = s.intake.drops ∧ (s.intakeEntry m).intake.hold = s.intake.hold := by
  by_cases h : m = .standby
  · subst h
    by_cases k : s.intake.state = .receiving ∧ s.intake.target ≠ .standby
    · rw [State.intakeEntry_standby_passed k.1 k.2]
      exact ⟨rfl, rfl, rfl, rfl⟩
    · rw [State.intakeEntry_standby_kept (by tauto)]
      exact ⟨rfl, rfl, rfl, rfl⟩
  · by_cases k : m = .shutting
    · subst k
      rw [State.intakeEntry_shutting]
      exact ⟨rfl, rfl, rfl, rfl⟩
    · rw [State.intakeEntry_other h k]
      exact ⟨rfl, rfl, rfl, rfl⟩

/-! ## The monitor's entries (R25) -/

theorem raise_of_free {o : Block} (h : s.waiting o = false) (k : EventKind) (n y z : Nat) :
    s.raise o k n y z =
      { s with post.raised := s.post.raised ++ [⟨o, k, n, y, z, s.intake.frameNumber, decide (o ≠ .mode)⟩] } := by
  simp [State.raise, State.emit, h, State.put]

/-- An effect that leaves the record queue and raises events with the input frame number. -/
theorem Unchanged.raises {l : List RaisedEvent} (hu : Unchanged a s u) (hr : Piece.records ∉ a)
    (he : u.post.raised = s.post.raised ++ l) (hf : ∀ e ∈ l, e.frame = u.intake.frameNumber) :
    u.ops = s.ops ++ [] ∧ u.news = s.news ++ l.map (fun e => (e.owner, e.kind, e.small, e.a, e.b)) ∧ Stamped s u := by
  obtain ⟨hq, hb, -⟩ := hu .records hr
  refine ⟨by simp [State.ops, hq, hb], by simp [State.news, he], fun e h => ?_⟩
  rw [he, List.drop_left] at h
  exact hf e h

/-- The pattern has ended with nothing of it left, and the previous means are unloaded (R25). -/
def State.settled (s : State) (m : Mode) : State :=
  { s with monitor := { s.monitor with
      view := m, pageState := .settled, motionRun := 0, stillRun := 0, patternAge := 0, timeoutDue := false, previous := none } }

/-- PATTERN_TIMEOUT of a pattern whose timeout is due (R23; assumption log 8). -/
def State.timeoutNews (s : State) : List RaisedEvent :=
  if s.monitor.timeoutDue = true then
    [⟨.monitor, .patternTimeout, if s.monitor.pageState = .settling then 1 else 0, s.monitor.patternAge, s.monitor.motionRun,
      s.intake.frameNumber, true⟩]
  else []

theorem State.endPattern_eq (hf : s.waiting .monitor = false) :
    s.endPattern =
      { { s.setPattern settledPattern with monitor.timeoutDue := false } with
        post.raised := s.post.raised ++
          [⟨.monitor, .patternTimeout, if s.monitor.pageState = .settling then 1 else 0, s.monitor.patternAge, s.monitor.motionRun,
            s.intake.frameNumber, true⟩] } :=
  raise_of_free (s := { s.setPattern settledPattern with monitor.timeoutDue := false }) hf _ _ _ _

theorem State.monitorEntry_eq (hf : s.waiting .monitor = false) (hm : m = .live ∨ m = .standby ∨ m = .shutting) :
    s.monitorEntry m = { s.settled m with post.raised := s.post.raised ++ s.timeoutNews } := by
  have e : s.monitorEntry m
      = { { s with monitor.view := m }.resolveTimeout.setPattern settledPattern with monitor.previous := none } := by
    rcases hm with rfl | rfl | rfl <;> rfl
  rw [e]
  unfold State.resolveTimeout State.timeoutNews
  split
  · rw [State.endPattern_eq (s := { s with monitor.view := m }) hf]
    rfl
  · rename_i h
    have h' : s.monitor.timeoutDue = false := Bool.eq_false_iff.2 h
    rw [List.append_nil]
    unfold State.settled
    rw [← h']
    rfl

theorem State.settled_unchanged (s : State) (m : Mode) (l : List RaisedEvent) :
    Unchanged [.views, .pattern, .raised] s { s.settled m with post.raised := l } := by
  intro p hp
  cases p <;> simp_all [same, State.settled]

end Sys2Proof.Machine
end

section
open Sys2Proof Sys2Proof.Machine

/-- Settles O7: what the entry leaves of the intake by its mode, and of the monitor with a timeout that was due. -/
theorem entriesReachIntakeAndMonitor : Obligations.EntriesReachIntakeAndMonitor := by
  intro s m
  refine ⟨fun ha hr hs => ?_, fun ha hr hs => ?_⟩
  · have hu := (s.dropAnnouncement ⟨.intake, m⟩).intakeEntry_unchanged m
    have hx : exec (.modeEntry .intake) s = .next (s.closeWork ((s.dropAnnouncement ⟨.intake, m⟩).intakeEntry m)) :=
      execModeEntry_of_ready ha hr hs hu
    refine ⟨_, hx, ?_⟩
    obtain ⟨h1, h2, h3, h4⟩ := (s.dropAnnouncement ⟨.intake, m⟩).intakeEntry_kept m
    have hann := hu .announcements (by decide)
    simp only [State.closeWork_intake, State.closeWork_control]
    refine ⟨h1, hann, h2, h3, h4, ?_, ?_, ?_, .quiet (.comp (s.dropAnnouncement_unchanged _) hu)⟩
    · rintro rfl
      by_cases k : s.intake.state = .receiving ∧ s.intake.target ≠ .standby
      · have hI := State.intakeEntry_standby_passed (s := s.dropAnnouncement ⟨.intake, .standby⟩) k.1 k.2
        obtain ⟨f1, f2⟩ := freed_of_slots (s := s) (t := s.closeWork ((s.dropAnnouncement ⟨.intake, .standby⟩).intakeEntry .standby))
          (by rw [State.closeWork_intake]; exact congrArg Intake.slots hI)
        simp only [State.closeWork_intake, hI] at f2
        rw [hI]
        refine ⟨rfl, fun h => ?_, fun _ _ => ⟨⟨rfl, rfl, rfl, f1, f2⟩, rfl⟩, fun h => absurd k (by tauto), fun h => ?_,
          fun p h => ?_⟩
        · rw [k.1] at h
          cases h
        · exact congrArg (Option.map _) h
        · exact congrArg (Option.map _) h
      · rw [State.intakeEntry_standby_kept (by show s.intake.state ≠ _ ∨ s.intake.target = _; tauto)]
        refine ⟨rfl, fun h => if_pos h, fun h1 h2 => absurd ⟨h1, h2⟩ k, fun _ => ⟨rfl, rfl, rfl, rfl, rfl, fun h => if_neg h⟩,
          fun h => ?_, fun p h => ?_⟩
        · exact congrArg (Option.map _) h
        · exact congrArg (Option.map _) h
    · rintro rfl
      have hI := (s.dropAnnouncement ⟨.intake, .shutting⟩).intakeEntry_shutting
      obtain ⟨f1, f2⟩ := freed_of_slots (s := s) (t := s.closeWork ((s.dropAnnouncement ⟨.intake, .shutting⟩).intakeEntry .shutting))
        (by rw [State.closeWork_intake]; exact congrArg Intake.slots hI)
      simp only [State.closeWork_intake, hI] at f2
      rw [hI]
      exact ⟨rfl, rfl, rfl, rfl, rfl, rfl, f1, f2⟩
    · rintro rfl
      exact State.intakeEntry_other (by decide) (by decide)
  · by_cases hm : m = .live ∨ m = .standby ∨ m = .shutting
    · have hf : (s.dropAnnouncement ⟨.monitor, m⟩).waiting .monitor = false := by
        have h : s.waiting .monitor = false := by simpa [State.free] using hr.1
        exact h
      have hq := State.monitorEntry_eq hf hm
      have hu := (s.dropAnnouncement ⟨.monitor, m⟩).settled_unchanged m
        ((s.dropAnnouncement ⟨.monitor, m⟩).post.raised ++ (s.dropAnnouncement ⟨.monitor, m⟩).timeoutNews)
      rw [← hq] at hu
      have hx : exec (.modeEntry .monitor) s = .next (s.closeWork ((s.dropAnnouncement ⟨.monitor, m⟩).monitorEntry m)) :=
        execModeEntry_of_ready ha hr hs hu
      refine ⟨_, hx, ?_⟩
      have hd := (s.dropAnnouncement_unchanged ⟨.monitor, m⟩).comp hu (c := [.announcements, .views, .pattern, .raised])
        (by simp) (by simp)
      rw [hq] at hd ⊢
      simp only [State.closeWork_monitor, State.closeWork_control]
      refine ⟨rfl, rfl, fun _ => ⟨rfl, rfl, rfl, rfl, rfl, rfl, ?_⟩⟩
      have hn : (if s.monitor.timeoutDue = true then
            [(Block.monitor, EventKind.patternTimeout, if s.monitor.pageState = .settling then 1 else 0, s.monitor.patternAge,
              s.monitor.motionRun)] else [])
          = (s.dropAnnouncement ⟨.monitor, m⟩).timeoutNews.map fun e => (e.owner, e.kind, e.small, e.a, e.b) := by
        unfold State.timeoutNews
        show _ = List.map _ (if s.monitor.timeoutDue = true then _ else [])
        split <;> rfl
      rw [hn]
      refine .closeWork (hd.mono (by simp)) fun _ => hd.raises (by decide) rfl fun e he => ?_
      unfold State.timeoutNews at he
      split at he
      · rw [List.mem_singleton] at he
        rw [he]
        rfl
      · cases he
    · have hq : (s.dropAnnouncement ⟨.monitor, m⟩).blockEntry .monitor m = { s.dropAnnouncement ⟨.monitor, m⟩ with monitor.view := m } := by
        cases m with
        | live => exact absurd (.inl rfl) hm
        | standby => exact absurd (.inr (.inl rfl)) hm
        | shutting => exact absurd (.inr (.inr rfl)) hm
        | _ => rfl
      have hu : Unchanged [.views] (s.dropAnnouncement ⟨.monitor, m⟩) ((s.dropAnnouncement ⟨.monitor, m⟩).blockEntry .monitor m) := by
        rw [hq]
        intro p hp
        cases p <;> simp_all [same]
      refine ⟨_, execModeEntry_of_ready ha hr hs hu, ?_⟩
      rw [hq]
      refine ⟨by rw [State.closeWork_monitor], by rw [State.closeWork_control]; rfl, fun h => absurd h hm⟩

end

section
/-! SUPPORT. The events that the post port takes (R13, R174, R176), and the step that takes one. -/

namespace Sys2Proof.Machine

set_option Elab.async false

variable {s t u x : State} {changed a b : List Piece}

/-! ## Causes and moderation (R166, R176) -/

/-- A cause is set in a register beside those set already. -/
theorem withCause_bit (r : BitVec 6) (c : Cause) (i : Nat) : (withCause r c).getLsbD i = (r.getLsbD i || decide (i = c.bit)) := by
  have hc : c.bit < 6 := by cases c <;> decide
  rw [withCause, BitVec.getLsbD_or, BitVec.getLsbD_shiftLeft, BitVec.getLsbD_one]
  by_cases h : i = c.bit
  · subst h
    simp [hc]
  · have : ¬ (i < 6 ∧ c.bit ≤ i ∧ i - c.bit = 0) := by omega
    simp [h]
    omega

/-- A post port that does not wait sets its cause at once. -/
theorem emitCause_of_free (h : s.waiting .post = false) (c : Cause) : s.emit .post (.cause c) = s.setCause c := by
  simp [State.emit, h, State.put]

/-- A cause is set now or, behind a wait, later: of the post port's fields CAUSE alone can change. -/
theorem State.emitCause_post (s : State) (c : Cause) : ∃ r, (s.emit .post (.cause c)).post = { s.post with cause := r } := by
  unfold State.emit
  split
  · exact ⟨s.post.cause, rfl⟩
  · exact ⟨_, rfl⟩

theorem State.signalReady_post (s : State) :
    ∃ r, s.signalReady.post = { s.post with timer := none, holdoffDue := false, unsignalled := 0, cause := r } :=
  State.emitCause_post _ _

theorem signalReady_of_free (h : s.waiting .post = false) :
    s.signalReady = { s.stopTimer with post.unsignalled := 0 }.setCause .eventsReady :=
  emitCause_of_free (s := { s.stopTimer with post.unsignalled := 0 }) h _

/-- The moderation changes its own fields and CAUSE. -/
theorem State.moderate_post (s : State) :
    ∃ y d n r, s.moderate.post = { s.post with timer := y, holdoffDue := d, unsignalled := n, cause := r } := by
  unfold State.moderate
  split
  · obtain ⟨r, h⟩ := s.signalReady_post
    exact ⟨_, _, _, _, h⟩
  · split <;> exact ⟨_, _, _, _, rfl⟩

/-- With nobody waiting for room, the moderation issues nothing. -/
theorem State.moderate_port (h : s.noneWait) : s.moderate.port = s.port := by
  unfold State.moderate
  split
  · rw [signalReady_of_free (State.not_waiting h _)]
    rfl
  · split <;> rfl

theorem moderated_moderate (h : s.noneWait) : Moderated s s.moderate := by
  unfold State.moderate
  split
  · rename_i hw
    rw [signalReady_of_free (State.not_waiting h _)]
    exact (if_pos hw).mpr ⟨fun i => withCause_bit _ _ _, rfl, rfl⟩
  · rename_i hw
    split
    · rename_i hu
      exact (if_neg hw).mpr ⟨rfl, rfl, (if_pos hu).symm⟩
    · rename_i hu
      exact (if_neg hw).mpr ⟨rfl, rfl, (if_neg hu).symm⟩

/-- What the moderation reads of the state before it is CAUSE, the unsignalled count and the timer. -/
theorem Moderated.of_same (h : Moderated x t) (hc : x.post.cause = s.post.cause) (hu : x.post.unsignalled = s.post.unsignalled)
    (ht : x.post.timer = s.post.timer) : Moderated s t := by
  unfold Moderated at *
  rwa [hc, hu, ht] at h

/-- It reads the setup and the queue of the state behind it. -/
theorem Moderated.of_post (h : Moderated s x) (hp : t.post = x.post) : Moderated s t := by
  unfold Moderated at *
  rwa [hp]

/-! ## An event written or lost (R174) -/

/-- The state with the record of an event issued, before its put index. -/
def State.recorded (s : State) (kind : EventKind) (small a b frame : Nat) : State :=
  { s.issueWrite .post .post [(Config.eventBase + 16 * s.post.put, eventBytes kind.value small s.post.sequence frame a b)] with
    post := { s.post with fill := s.post.fill + 1, sequence := (s.post.sequence + 1) % 65536 } }

theorem State.writeEvent_eq (s : State) (k : EventKind) (n y z f : Nat) :
    s.writeEvent k n y z f = ((s.recorded k n y z f).publishPut (ringNext s.post.setup.queueSize s.post.put)).moderate := by
  have h : s.recorded k n y z f
      = { s.issueWrite .post .post [(Config.eventBase + 16 * s.post.put, eventBytes k.value n s.post.sequence f y z)] with
          post := { (s.issueWrite .post .post
              [(Config.eventBase + 16 * s.post.put, eventBytes k.value n s.post.sequence f y z)]).post with
            fill := s.post.fill + 1, sequence := (s.post.sequence + 1) % 65536 } } := by
    rw [State.issueWrite_post]
    rfl
  rw [h]
  rfl

theorem State.publishPut_post (s : State) (n : Nat) : (s.publishPut n).post = { s.post with put := n } := State.issueWrite_post _ _ _ _

theorem State.publishPut_room {m : Nat} (h : s.roomFor (m + 1)) (n : Nat) :
    (s.publishPut n).ops = s.ops ++ [fieldWrite 0x04 2 n] ∧ (s.publishPut n).roomFor m :=
  State.liveField_room (s := { s with post.put := n }) h _ _ _ _

/-- The fill level, the sequence number and the put index move; what else changes is the moderation and CAUSE. -/
theorem State.writeEvent_post (s : State) (k : EventKind) (n y z f : Nat) :
    ∃ w d c r, (s.writeEvent k n y z f).post =
      { s.post with
        fill := s.post.fill + 1, sequence := (s.post.sequence + 1) % 65536, put := ringNext s.post.setup.queueSize s.post.put
        timer := w, holdoffDue := d, unsignalled := c, cause := r } := by
  rw [State.writeEvent_eq]
  obtain ⟨w, d, c, r, h⟩ := ((s.recorded k n y z f).publishPut (ringNext s.post.setup.queueSize s.post.put)).moderate_post
  rw [h, State.publishPut_post]
  exact ⟨w, d, c, r, rfl⟩

/-- With room for the record and its put index, both join the queue, and the record is moderated at once. -/
theorem State.writeEvent_room {m : Nat} (h : s.roomFor (m + 2)) (k : EventKind) (n y z f : Nat) :
    (s.writeEvent k n y z f).ops
        = s.ops ++ [s.eventOp k.value n y z f, fieldWrite 0x04 2 (ringNext s.post.setup.queueSize s.post.put)]
      ∧ (s.writeEvent k n y z f).roomFor m ∧ Moderated s (s.writeEvent k n y z f) := by
  obtain ⟨o1, r1⟩ := State.issueWrite_room (n := m + 1) h .post .post
    [(Config.eventBase + 16 * s.post.put, eventBytes k.value n s.post.sequence f y z)]
  obtain ⟨o2, r2⟩ := State.publishPut_room (s := s.recorded k n y z f) (m := m) r1 (ringNext s.post.setup.queueSize s.post.put)
  have hp := State.moderate_port (s := (s.recorded k n y z f).publishPut (ringNext s.post.setup.queueSize s.post.put)) r2.1
  rw [State.writeEvent_eq]
  refine ⟨?_, ?_, ?_⟩
  · unfold State.ops at *
    rw [hp]
    refine o2.trans ?_
    show (State.issueWrite _ _ _ _).port.queue ++ (State.issueWrite _ _ _ _).port.blocked.map Wait.op ++ _ = _
    rw [o1, List.append_assoc]
    rfl
  · unfold State.roomFor State.noneWait at *
    rw [hp]
    exact r2
  · refine (moderated_moderate r2.1).of_same ?_ ?_ ?_ <;>
    · rw [State.publishPut_post]
      rfl

/-- A lost event is counted; what else changes is CAUSE. -/
theorem State.loseEvent_post (s : State) : ∃ r, s.loseEvent.post = { s.post with lost := min 65535 (s.post.lost + 1), cause := r } := by
  obtain ⟨r, h⟩ := (s.setLost (satInc 65535 s.post.lost)).emitCause_post .eventsLost
  refine ⟨r, ?_⟩
  unfold State.loseEvent
  rw [h, State.setLost_post]
  rfl

/-- With room for it, the count is written where it changes, and EVENTS_LOST is set at once. -/
theorem State.loseEvent_room (h : s.roomFor 1) :
    s.loseEvent.ops = s.ops ++ fieldChange (s.post.lost = min 65535 (s.post.lost + 1)) 0x08 2 (min 65535 (s.post.lost + 1))
      ∧ s.loseEvent.noneWait ∧ s.loseEvent.post.cause = withCause s.post.cause .eventsLost := by
  have hl : (fieldChange (s.post.lost = satInc 65535 s.post.lost) 0x08 2 (satInc 65535 s.post.lost)).length ≤ 1 := by
    unfold fieldChange
    split <;> simp
  have hr : s.roomFor (0 + (fieldChange (s.post.lost = satInc 65535 s.post.lost) 0x08 2 (satInc 65535 s.post.lost)).length) :=
    ⟨h.1, by have := h.2; omega⟩
  obtain ⟨o, r⟩ := s.setLost_room (satInc 65535 s.post.lost) hr
  unfold State.loseEvent
  rw [emitCause_of_free (State.not_waiting r.1 _)]
  refine ⟨o, r.1, ?_⟩
  show withCause (s.setLost _).post.cause _ = _
  rw [State.setLost_post]

/-! ## The taking of an event (R13, R174, R187) -/

/-- The oldest event can be taken, and one behind it that was raised together with all before it, by other blocks. -/
theorem eligible_of {l : List RaisedEvent} {n : Nat} {e : RaisedEvent} (he : l[n]? = some e)
    (h : ∀ i x, l[i]? = some x → (0 < i → i ≤ n → x.linked = true) ∧ (i < n → x.owner ≠ e.owner)) : eligible l n = true := by
  unfold eligible
  rw [he]
  simp only [Bool.and_eq_true, List.all_eq_true, decide_eq_true_eq]
  refine ⟨fun x hx => ?_, fun x hx => ?_⟩
  · obtain ⟨i, hi⟩ := List.mem_iff_getElem?.1 hx
    rw [List.getElem?_drop, List.getElem?_take] at hi
    split at hi
    · exact (h _ x hi).1 (by omega) (by omega)
    · cases hi
  · obtain ⟨i, hi⟩ := List.mem_iff_getElem?.1 hx
    rw [List.getElem?_take] at hi
    split at hi
    · exact (h _ x hi).2 ‹_›
    · cases hi

/-- The post port takes the event (R174). -/
theorem execEventArrival_of_eligible {n : Nat} {e : RaisedEvent} (he : s.post.raised[n]? = some e)
    (h : eligible s.post.raised n = true) (hf : s.free .post = true) :
    exec (.eventArrival n) s = .next (s.close (s.takeRaised n e)) := by
  show execEventArrival n s = _
  unfold execEventArrival
  rw [he]
  exact if_pos ⟨h, hf⟩

/-- Besides POWER_SAFE no event makes mode control wait. -/
theorem watchSafe_of_ne {k : EventKind} (h : k ≠ .powerSafe) : s.watchSafe k = s := if_neg h

/-- The wait for SAFE alone can change with an event taken. -/
theorem State.watchSafe_post (s : State) (k : EventKind) : (s.watchSafe k).post = s.post := by
  unfold State.watchSafe State.emit
  split
  · split <;> rfl
  · rfl

theorem State.watchSafe_control (s : State) (k : EventKind) :
    (s.watchSafe k).control = { s.control with safeAfter := (s.watchSafe k).control.safeAfter } := by
  unfold State.watchSafe State.emit
  split
  · split <;> rfl
  · rfl

/-- With nobody waiting for room, POWER_SAFE makes mode control wait for what stands issued (assumption log 46). -/
theorem watchSafe_of_noneWait (h : s.noneWait) : s.watchSafe .powerSafe = { s with control.safeAfter := some s.ops.length } := by
  unfold State.watchSafe State.emit
  rw [if_pos rfl, if_neg (by simp [State.not_waiting h])]
  simp [State.put, State.ops]

theorem watchSafe_ops (h : s.noneWait) (k : EventKind) : (s.watchSafe k).ops = s.ops := by
  by_cases hk : k = .powerSafe
  · subst hk
    rw [watchSafe_of_noneWait h]
    rfl
  · rw [watchSafe_of_ne hk]

/-- The events waiting with one taken off. -/
def State.without (s : State) (n : Nat) : State := { s with post.raised := s.post.raised.eraseIdx n }

theorem State.without_unchanged (s : State) (n : Nat) : Unchanged [.raised] s (s.without n) := by
  intro p hp
  cases p <;> simp_all [same, State.without]

/-- With no expiry due, an event is written where the queue has room for it, and is lost otherwise. -/
theorem takeEvent_of_settled (hd : s.post.holdoffDue = false) (k : EventKind) (n y z f : Nat) :
    s.takeEvent k n y z f = if s.post.fill < s.post.setup.queueSize then s.writeEvent k n y z f else s.loseEvent := by
  have h : s.resolveHoldoff = s := if_neg (by simp [hd])
  show (if s.resolveHoldoff.post.fill < s.resolveHoldoff.post.setup.queueSize then _ else _) = _
  rw [h]

/-- An expiry that is due is taken with the event, as it would have been before it (R176; assumption log 9). -/
def State.expired (s : State) : State :=
  { s with post.holdoffDue := false, post.timer := none, post.unsignalled := 0, post.cause := s.post.cause ||| 1#6 }

theorem resolveHoldoff_of_due (hd : s.post.holdoffDue = true) (hf : s.waiting .post = false) : s.resolveHoldoff = s.expired := by
  have h : s.resolveHoldoff = s.signalReady := if_pos hd
  rw [h, signalReady_of_free hf]
  rfl

theorem State.takeRaised_eq (s : State) (n : Nat) (e : RaisedEvent) :
    s.takeRaised n e = ((s.without n).takeEvent e.kind e.small e.a e.b e.frame).watchSafe e.kind := rfl

theorem takeRaised_of_due {n : Nat} {e : RaisedEvent} (hd : s.post.holdoffDue = true) (hf : s.waiting .post = false) :
    s.takeRaised n e = s.expired.takeRaised n e := by
  have h1 : (s.without n).resolveHoldoff = (s.without n).expired := resolveHoldoff_of_due hd hf
  have h2 : (s.expired.without n).resolveHoldoff = (s.without n).expired := if_neg Bool.false_ne_true
  rw [State.takeRaised_eq, State.takeRaised_eq, State.takeEvent, State.takeEvent, h1, h2]

/-! ## The step that takes an event -/

/-- The end of the step leaves the post port as the event was written or lost: it raised no event. -/
theorem closeTaken_post {n : Nat} (hr : x.post.raised = s.post.raised.eraseIdx n) (k : EventKind) :
    (s.close (x.watchSafe k)).post = x.post := by
  have hl : unlinkAt s.post.raised.length x.post.raised = x.post.raised := by
    rw [hr]
    exact List.modify_eq_self (List.length_eraseIdx_le _ _)
  rw [State.close_post, State.watchSafe_post, hl]

theorem closeTaken_ops (h : x.noneWait) (k : EventKind) : (s.close (x.watchSafe k)).ops = x.ops := by
  rw [State.close_ops, watchSafe_ops h]

/-- Mode control waits for SAFE behind POWER_SAFE alone, and nothing else changes in it (R187). -/
theorem closeTaken_control (hu : Unchanged a s x) (ha : Piece.safety ∉ a) (k : EventKind) :
    (k ≠ .powerSafe → (s.close (x.watchSafe k)).control.safeAfter = s.control.safeAfter)
      ∧ (k = .powerSafe → x.noneWait → (s.close (x.watchSafe k)).control.safeAfter = some (s.close (x.watchSafe k)).ops.length)
      ∧ (s.close (x.watchSafe k)).control.safe = s.control.safe
      ∧ (s.close (x.watchSafe k)).control.shuttingFrames = s.control.shuttingFrames := by
  obtain ⟨h1, h2, h3⟩ := hu .safety ha
  refine ⟨fun hk => ?_, fun hk hw => ?_, ?_, ?_⟩
  · rw [State.close_control, watchSafe_of_ne hk, h2]
  · subst hk
    rw [closeTaken_ops hw, State.close_control, watchSafe_of_noneWait hw]
  · rw [State.close_control, State.watchSafe_control]
    exact h1
  · rw [State.close_control, State.watchSafe_control]
    exact h3

theorem closeTaken_unchanged (hu : Unchanged a s x) (k : EventKind) (h : a ⊆ (b ++ [.safety, .records]) ++ closing) :
    Unchanged ((b ++ [.safety, .records]) ++ closing) s (s.close (x.watchSafe k)) :=
  hu.comp ((x.watchSafe_unchanged k).comp (s.close_unchanged _) (c := [.safety, .records] ++ closing) (by simp) (by simp)) h
    (fun p hp => by simp only [List.mem_append] at hp ⊢; tauto)

end Sys2Proof.Machine
end

section
open Sys2Proof Sys2Proof.Machine

/-- Settles O17: the event written or lost, with an expiry that is due taken first. -/
theorem anEventIsWrittenOrLost : Obligations.AnEventIsWrittenOrLost := by
  intro s n e he h hf
  have hw : s.waiting .post = false := by simpa [State.free] using hf
  have hl := eligible_of he h
  have hx := execEventArrival_of_eligible he hl hf
  refine ⟨fun hd => ?_, fun hd => ⟨_, hx, ?_⟩⟩
  · rw [hx, takeRaised_of_due hd hw]
    exact (execEventArrival_of_eligible (s := s.expired) he hl hf).symm
  rw [State.takeRaised_eq, takeEvent_of_settled (s := s.without n) hd]
  by_cases hq : s.post.fill < s.post.setup.queueSize
  · rw [if_pos (show (s.without n).post.fill < (s.without n).post.setup.queueSize from hq)]
    obtain ⟨w, d, c, r, hp⟩ := (s.without n).writeEvent_post e.kind e.small e.a e.b e.frame
    have hu := (s.without_unchanged n).comp ((s.without n).writeEvent_unchanged e.kind e.small e.a e.b e.frame)
      (c := [.events, .moderation, .cause, .records, .arbiter, .raised]) (by simp) (by simp)
    have hr := congrArg PostPort.raised hp
    obtain ⟨c1, c2, c3, c4⟩ := closeTaken_control hu (by decide) e.kind
    have room (k : s.roomFor 2) := State.writeEvent_room (s := s.without n) (m := 0) k e.kind e.small e.a e.b e.frame
    have ht := closeTaken_post (s := s) hr e.kind
    refine ⟨by rw [ht, hr]; rfl, by rw [ht, hp]; rfl, fun _ => ⟨by rw [ht, hp]; rfl, by rw [ht, hp]; rfl, by rw [ht, hp]; rfl,
      by rw [ht, hp]; rfl, fun k => ⟨?_, ?_⟩, ?_⟩, fun k => absurd hq (by omega), c1, fun k m => c2 k (room m).2.1.1, c3, c4⟩
    · rw [closeTaken_ops (room k).2.1.1, (room k).1, ht, hp]
      rfl
    · exact ((room k).2.2.of_same (s := s) rfl rfl rfl).of_post ht
    · exact closeTaken_unchanged (b := [.events, .moderation, .cause]) hu _ (by simp)
  · rw [if_neg (show ¬ (s.without n).post.fill < (s.without n).post.setup.queueSize from hq)]
    obtain ⟨r, hp⟩ := (s.without n).loseEvent_post
    have hu := (s.without_unchanged n).comp (s.without n).loseEvent_unchanged
      (c := [.lost, .cause, .records, .arbiter, .raised]) (by simp) (by simp)
    have hr := congrArg PostPort.raised hp
    obtain ⟨c1, c2, c3, c4⟩ := closeTaken_control hu (by decide) e.kind
    have room (k : s.roomFor 1) := State.loseEvent_room (s := s.without n) k
    have ht := closeTaken_post (s := s) hr e.kind
    refine ⟨by rw [ht, hr]; rfl, by rw [ht, hp]; rfl, fun k => absurd k hq, fun _ => ⟨by rw [ht, hp]; rfl, by rw [ht, hp]; rfl,
      by rw [ht, hp]; rfl, by rw [ht, hp]; rfl, fun k => ⟨?_, fun i => ?_⟩, ?_⟩, c1, fun k m => c2 k (room ⟨m.1, ?_⟩).2.1, c3, c4⟩
    · rw [closeTaken_ops (room k).2.1, (room k).1, ht, hp]
      rfl
    · rw [ht, (room k).2.2]
      exact withCause_bit _ _ _
    · exact closeTaken_unchanged (b := [.lost, .cause]) hu _ (by simp)
    · have := m.2
      omega

end

section
/-! SUPPORT. The end of BOOT (R154, R181, R182, R187). -/

namespace Sys2Proof.Machine

set_option Elab.async false

variable {s t u x : State} {changed a b : List Piece} {m : Mode}

/-! ## MODE_CHANGED with nobody waiting for room (R174, R182) -/

/-- A piece that a change leaves as it was need not be named. -/
theorem Unchanged.except {q : Piece} (h : Unchanged (q :: a) s t) (hq : same s t q) : Unchanged a s t := by
  intro p hp
  by_cases e : p = q
  · rw [e]
    exact hq
  · exact h p (by simp [e, hp])

theorem State.moderate_is (h : s.noneWait) : s.moderate = { s with post := s.moderate.post } := by
  unfold State.moderate
  split
  · rw [signalReady_of_free (State.not_waiting h _)]
    rfl
  · split <;> rfl

/-- No expiry falls due with a record. -/
theorem State.moderate_holdoffDue (h : s.post.holdoffDue = false) : s.moderate.post.holdoffDue = false := by
  unfold State.moderate
  split
  · obtain ⟨r, hr⟩ := s.signalReady_post
    rw [hr]
  · split
    · rfl
    · exact h

theorem State.issueWrite_is (s : State) (x y : Block) (r : List (Nat × List Byte)) :
    s.issueWrite x y r = { s with port := (s.issueWrite x y r).port } := by
  obtain ⟨q, b, w, g, l, p, h⟩ := s.issue_is x y (.write (r.flatMap burstsOf))
  unfold State.issueWrite
  rw [h]

/-- With room for it, a record changes the post port and the record queue. -/
theorem State.writeEvent_is (h : s.roomFor 2) (k : EventKind) (n y z f : Nat) :
    s.writeEvent k n y z f = { s with post := (s.writeEvent k n y z f).post, port := (s.writeEvent k n y z f).port } := by
  obtain ⟨o1, r1⟩ := State.issueWrite_room (n := 1) h .post .post
    [(Config.eventBase + 16 * s.post.put, eventBytes k.value n s.post.sequence f y z)]
  obtain ⟨o2, r2⟩ := State.publishPut_room (s := s.recorded k n y z f) (m := 0) r1 (ringNext s.post.setup.queueSize s.post.put)
  rw [State.writeEvent_eq, State.moderate_is r2.1]
  unfold State.publishPut State.liveField
  rw [State.issueWrite_is]
  unfold State.recorded
  rw [State.issueWrite_is]

theorem State.writeEvent_holdoffDue (hd : s.post.holdoffDue = false) (k : EventKind) (n y z f : Nat) :
    (s.writeEvent k n y z f).post.holdoffDue = false := by
  rw [State.writeEvent_eq]
  refine State.moderate_holdoffDue ?_
  rw [State.publishPut_post]
  exact hd

theorem State.enterMode_is (s : State) (m : Mode) :
    s.enterMode m = { s with control := (s.enterMode m).control, port := (s.enterMode m).port } := by
  unfold State.enterMode State.liveField
  dsimp only
  rw [State.issueWrite_is]

@[simp] theorem State.enterMode_post (s : State) (m : Mode) : (s.enterMode m).post = s.post := State.liveField_post _ _ _ _ _

/-- MODE_CHANGED of the end of BOOT is written at once (assumption log 24). -/
theorem State.leaveBoot_eq (hd : s.post.holdoffDue = false) (hq : s.post.fill < s.post.setup.queueSize) (m : Mode) :
    s.leaveBoot m = (s.enterMode m).writeEvent .modeChanged m.value s.control.mode.value 0 s.intake.frameNumber := by
  unfold State.leaveBoot
  rw [takeEvent_of_settled (by rw [State.enterMode_post]; exact hd)]
  exact if_pos (by rw [State.enterMode_post]; exact hq)

theorem State.leaveBoot_is {n : Nat} (h : s.roomFor (n + 3)) (hd : s.post.holdoffDue = false)
    (hq : s.post.fill < s.post.setup.queueSize) (m : Mode) :
    s.leaveBoot m =
      { s with control := (s.enterMode m).control, post := (s.leaveBoot m).post, port := (s.leaveBoot m).port } := by
  have r1 := (State.enterMode_room h m).2.2.1
  rw [State.leaveBoot_eq hd hq, State.writeEvent_is ⟨r1.1, by have := r1.2; omega⟩, State.enterMode_is]

/-- The mode field, the record and the put index are issued, and the record is moderated. -/
theorem State.leaveBoot_room {n : Nat} (h : s.roomFor (n + 3)) (hd : s.post.holdoffDue = false)
    (hq : s.post.fill < s.post.setup.queueSize) (m : Mode) :
    (s.leaveBoot m).ops = s.ops ++
        [fieldWrite 0 1 m.value, s.eventOp 1 m.value s.control.mode.value 0 s.intake.frameNumber,
          fieldWrite 0x04 2 (ringNext s.post.setup.queueSize s.post.put)]
      ∧ (s.leaveBoot m).roomFor n ∧ Moderated s (s.leaveBoot m) := by
  obtain ⟨o1, -, r1, -⟩ := State.enterMode_room (n := n + 2) h m
  obtain ⟨o2, r2, hm⟩ := State.writeEvent_room r1 .modeChanged m.value s.control.mode.value 0 s.intake.frameNumber
  rw [State.leaveBoot_eq hd hq]
  refine ⟨?_, r2, hm.of_same (by simp) (by simp) (by simp)⟩
  rw [o2, o1, List.append_assoc]
  unfold State.eventOp
  rw [State.enterMode_post]
  rfl

/-- The event queue moves on by the record. -/
theorem State.leaveBoot_post (hd : s.post.holdoffDue = false) (hq : s.post.fill < s.post.setup.queueSize) (m : Mode) :
    ∃ w c r, (s.leaveBoot m).post =
      { s.post with
        fill := s.post.fill + 1, sequence := (s.post.sequence + 1) % 65536, put := ringNext s.post.setup.queueSize s.post.put
        timer := w, holdoffDue := false, unsignalled := c, cause := r } := by
  rw [State.leaveBoot_eq hd hq]
  have h := State.writeEvent_holdoffDue (s := s.enterMode m) (by rw [State.enterMode_post]; exact hd) .modeChanged m.value
    s.control.mode.value 0 s.intake.frameNumber
  obtain ⟨w, d, c, r, hp⟩ := (s.enterMode m).writeEvent_post .modeChanged m.value s.control.mode.value 0 s.intake.frameNumber
  rw [hp] at h ⊢
  rw [State.enterMode_post] at h ⊢
  exact ⟨w, c, r, by rw [show d = false from h]⟩

/-! ## BOOT_END (R154, R181) -/

/-- BOOT is over, and the raster starts. -/
def State.bootOver (s : State) : State := { s with port.boot := .none, control.warned := false, feeder.rasterOn := true }

/-- The held access goes on, or ends with ACCESS set (R154; assumption log 17). -/
theorem State.releaseHost_is (s : State) :
    ∃ b r c, s.releaseHost = { s with port.bridge := b, port.response := r, post.cause := c }
      ∧ (s.port.bridge = none → b = none ∧ r = s.port.response ∧ c = s.post.cause)
      ∧ ∀ h, s.port.bridge = some h →
          (h.ending = none → b = some h ∧ r = s.port.response ∧ c = s.post.cause)
          ∧ ∀ q, h.ending = some q → b = none ∧ r = q ∧ c = withCause s.post.cause .access := by
  unfold State.releaseHost
  split
  · rename_i h hb
    unfold State.admitHost
    split
    · rename_i r hr
      refine ⟨none, r, _, rfl, fun k => ?_, fun h' k => ?_⟩
      · rw [hb] at k
        cases k
      · obtain rfl := Option.some.inj (hb.symm.trans k)
        exact ⟨fun e => absurd (hr.symm.trans e) nofun, fun q e => ⟨rfl, Option.some.inj (hr.symm.trans e), rfl⟩⟩
    · rename_i hr
      refine ⟨some h, s.port.response, s.post.cause, rfl, fun k => ?_, fun h' k => ?_⟩
      · rw [hb] at k
        cases k
      · obtain rfl := Option.some.inj (hb.symm.trans k)
        exact ⟨fun _ => ⟨rfl, rfl, rfl⟩, fun q e => by rw [hr] at e; cases e⟩
  · rename_i hb
    exact ⟨none, s.port.response, s.post.cause, by rw [← hb], fun _ => ⟨rfl, rfl, rfl⟩, fun h k => by rw [hb] at k; cases k⟩

/-- The blocks begin in the mode in which BOOT ends, with no announcement of it left (assumption log 16). -/
def State.begunIn (s : State) (m : Mode) : State :=
  { { s with control.announcements := [] }.setViews m with
    intake.state := if m = Mode.standby then IntakeState.waiting else IntakeState.stopped }

theorem State.endBoot_eq (s : State) :
    s.endBoot = ((s.bootOver.releaseHost.leaveBoot s.control.bootTarget).begunIn s.control.bootTarget).shutdownTest := rfl

/-- The status write has been performed, so BOOT ends with what the arbiter settles (R181). -/
theorem execBootEnd_eq (hm : s.control.mode = .boot) (hb : s.port.boot = .status) (hq : s.port.queue = []) (hw : s.noneWait) :
    exec .bootEnd s = .next (s.closeWork s.settle.endBoot) := by
  have h : s.drain State.recordsDone = s.settle := State.drain_done (by simp [State.recordsDone, hq, hw.1])
  show execBootEnd s = _
  unfold execBootEnd
  rw [if_pos ⟨hm, hb⟩, h]

theorem shutdownTest_of_ne (h : s.control.mode ≠ .shutting) : s.shutdownTest = s := if_neg fun k => h k.1

/-- With nothing to wait for, the part enters POWERDOWN and raises POWER_SAFE (R187). -/
theorem shutdownTest_of_done (hm : s.control.mode = .shutting) (ha : s.control.announcements = []) (hd : s.feeder.deferred = [])
    (hc : s.capture.context.state = .idle) (hj : s.jobs.running = none) (hw : s.noneWait) :
    s.shutdownTest =
      (s.changeMode .powerdown 5).raise .mode .powerSafe 0 s.control.shuttingFrames s.capture.counter := by
  have f (c : Block) : s.free c = true := by simp [State.free, State.not_waiting hw]
  exact if_pos ⟨hm, by simp [State.entriesDone, ha, hd], hc, hj, f _, f _⟩

theorem shutdownTest_room {n : Nat} (h : s.roomFor (n + 1)) (hm : s.control.mode = .shutting) (ha : s.control.announcements = [])
    (hd : s.feeder.deferred = []) (hc : s.capture.context.state = .idle) (hj : s.jobs.running = none) :
    s.shutdownTest.ops = s.ops ++ [fieldWrite 0 1 5]
      ∧ s.shutdownTest.news = s.news ++
          [(.mode, .modeChanged, 5, 4, 5), (.mode, .powerSafe, 0, s.control.shuttingFrames, s.capture.counter)]
      ∧ Stamped s s.shutdownTest := by
  obtain ⟨ho, hn, hr, hs⟩ := State.changeMode_room h .powerdown 5
  rw [shutdownTest_of_done hm ha hd hc hj h.1]
  refine ⟨?_, ?_, hs.raise ?_ hr.1 _ _ _ _ _⟩
  · rw [State.raise_ops hr.1, ho]
    rfl
  · rw [State.raise_news _ _ _ _ _ _ (State.not_waiting hr.1 _), hn, hm, List.append_assoc]
    rfl
  · unfold State.changeMode
    rw [State.raise_room (State.enterMode_room h .powerdown).2.2.1.1]
    simp

/-! ## The state that BOOT leaves -/

/-- The host access released, with BOOT over. -/
def State.booted (s : State) : State := s.settle.bootOver.releaseHost

/-- What stands of the state before: the flag of the power warning, the raster, the host access and ACCESS change, and the arbiter may
have settled. -/
theorem State.booted_is (s : State) :
    ∃ g l p b r c, s.booted =
        { s with
          control.warned := false, feeder.rasterOn := true, post.cause := c
          port := { s.port with boot := .none, grant := g, last := l, pass := p, bridge := b, response := r } }
      ∧ (s.port.bridge = none → b = none ∧ r = s.port.response ∧ c = s.post.cause)
      ∧ ∀ h, s.port.bridge = some h →
          (h.ending = none → b = some h ∧ r = s.port.response ∧ c = s.post.cause)
          ∧ ∀ q, h.ending = some q → b = none ∧ r = q ∧ c = withCause s.post.cause .access := by
  obtain ⟨g, l, p, hs⟩ := s.settle_is
  obtain ⟨b, r, c, hx, h1, h2⟩ := s.settle.bootOver.releaseHost_is
  rw [hs] at hx h1 h2
  refine ⟨g, l, p, b, r, c, ?_, h1, h2⟩
  unfold State.booted
  rw [hs, hx]
  rfl

/-- The state in which the test for the end of the shutdown is made. -/
def State.begun (s : State) : State := (s.booted.leaveBoot s.control.bootTarget).begunIn s.control.bootTarget

theorem State.settle_endBoot (s : State) : s.settle.endBoot = s.begun.shutdownTest := by
  rw [State.endBoot_eq, s.settle_control]
  rfl

/-- The host access and what else of the port the end of BOOT changes. -/
theorem State.begun_port (s : State) :
    s.begun.port.boot = .none ∧ s.begun.port.bridge = s.booted.port.bridge ∧ s.begun.port.response = s.booted.port.response := by
  have hu := s.booted.leaveBoot_unchanged s.control.bootTarget
  obtain ⟨g, l, p, b, r, c, hx, -⟩ := s.booted_is
  refine ⟨?_, (hu .host (by decide)).1, (hu .host (by decide)).2⟩
  have hb : s.booted.port.boot = .none := by rw [hx]
  exact Eq.trans (hu .boot (by decide)) hb

/-- What the end of BOOT needs of the record queue and of the event queue. -/
structure BootReady (s : State) : Prop where
  queue : s.port.queue = []
  waits : s.noneWait
  due : s.post.holdoffDue = false
  fill : s.post.fill < s.post.setup.queueSize

section
variable (h : BootReady s)
include h

theorem BootReady.booted : s.booted.roomFor 4 ∧ s.booted.post.holdoffDue = false
    ∧ s.booted.post.fill < s.booted.post.setup.queueSize := by
  obtain ⟨g, l, p, b, r, c, hx, -⟩ := s.booted_is
  rw [hx]
  exact ⟨⟨h.waits, by rw [h.queue]; decide⟩, h.due, h.fill⟩

/-- Every block begins in the new mode. -/
theorem BootReady.begun_blocks :
    s.begun.intake = { s.intake with
        view := s.control.bootTarget
        state := if s.control.bootTarget = .standby then IntakeState.waiting else IntakeState.stopped }
      ∧ s.begun.feeder = { s.feeder with view := s.control.bootTarget, rasterOn := true }
      ∧ s.begun.monitor.view = s.control.bootTarget ∧ s.begun.capture = { s.capture with view := s.control.bootTarget }
      ∧ s.begun.jobs = { s.jobs with view := s.control.bootTarget } := by
  obtain ⟨g, l, p, b, r, c, hx, -⟩ := s.booted_is
  obtain ⟨k1, k2, k3⟩ := h.booted
  unfold State.begun
  rw [State.leaveBoot_is (n := 1) k1 k2 k3, hx]
  exact ⟨rfl, rfl, rfl, rfl, rfl⟩

theorem BootReady.begun_control :
    s.begun.control = { s.control with
      warned := false, mode := s.control.bootTarget, announcements := []
      timerOn := s.control.timerOn && decide (s.control.bootTarget ≠ .shutting)
      shuttingFrames := if s.control.bootTarget = .shutting then 0 else s.control.shuttingFrames } := by
  obtain ⟨g, l, p, b, r, c, hx, -⟩ := s.booted_is
  obtain ⟨k1, k2, k3⟩ := h.booted
  unfold State.begun
  rw [State.leaveBoot_is (n := 1) k1 k2 k3, hx]
  unfold State.begunIn State.setViews
  dsimp only
  rw [State.enterMode_control]

theorem BootReady.begun_room :
    s.begun.ops = s.ops ++
        [fieldWrite 0 1 s.control.bootTarget.value, s.eventOp 1 s.control.bootTarget.value s.control.mode.value 0 s.intake.frameNumber,
          fieldWrite 0x04 2 (ringNext s.post.setup.queueSize s.post.put)]
      ∧ s.begun.roomFor 1 ∧ s.begun.post.raised = s.post.raised := by
  obtain ⟨g, l, p, b, r, c, hx, -⟩ := s.booted_is
  obtain ⟨k1, k2, k3⟩ := h.booted
  obtain ⟨ho, hr, -⟩ := State.leaveBoot_room (n := 1) k1 k2 k3 s.control.bootTarget
  obtain ⟨w, n, q, hp⟩ := State.leaveBoot_post k2 k3 s.control.bootTarget
  refine ⟨?_, hr, ?_⟩
  · show (s.booted.leaveBoot _).ops = _
    rw [ho, hx]
    rfl
  · show (s.booted.leaveBoot _).post.raised = _
    rw [hp, hx]

/-- The event queue and its moderation behind the record, and the causes. -/
theorem BootReady.begun_post :
    s.begun.post.put = ringNext s.post.setup.queueSize s.post.put ∧ s.begun.post.get = s.post.get
      ∧ s.begun.post.fill = s.post.fill + 1 ∧ s.begun.post.sequence = (s.post.sequence + 1) % 65536
      ∧ s.begun.post.holdoffDue = false ∧ s.begun.post.setup = s.post.setup ∧ s.begun.post.lost = s.post.lost
      ∧ Moderated s.booted s.begun := by
  obtain ⟨g, l, p, b, r, c, hx, -⟩ := s.booted_is
  obtain ⟨k1, k2, k3⟩ := h.booted
  obtain ⟨w, n, q, hp⟩ := State.leaveBoot_post k2 k3 s.control.bootTarget
  have hm := (State.leaveBoot_room (n := 1) k1 k2 k3 s.control.bootTarget).2.2
  have e : s.begun.post = (s.booted.leaveBoot s.control.bootTarget).post := rfl
  refine ⟨?_, ?_, ?_, ?_, ?_, ?_, ?_, hm.of_post e⟩ <;>
  · rw [e, hp, hx]

/-- What changes by the end of BOOT: no event is lost. -/
theorem BootReady.unchanged :
    Unchanged [.timer, .safety, .boot, .inputs, .layout, .mode, .announcements, .views, .shape, .host, .cause, .events, .moderation,
      .records, .arbiter, .raised] s s.begun.shutdownTest := by
  have hall := (State.settle_unchanged s).comp s.settle.endBoot_unchanged
    (c := [.lost, .timer, .safety, .boot, .inputs, .layout, .mode, .announcements, .views, .shape, .host, .cause, .events,
      .moderation, .records, .arbiter, .raised]) (by simp) (by simp)
  rw [State.settle_endBoot] at hall
  obtain ⟨-, -, -, -, -, -, hl, -⟩ := h.begun_post
  exact hall.except (Eq.trans (s.begun.shutdownTest_unchanged .lost (by decide)) hl)

/-- Into STANDBY BOOT ends with no more. -/
theorem BootReady.standby (hT : s.control.bootTarget = .standby) :
    s.begun.shutdownTest = s.begun ∧ s.begun.control.mode = .standby ∧ s.begun.control.announcements = []
      ∧ Unchanged [.boot, .inputs, .layout, .mode, .announcements, .views, .shape, .host, .cause, .events, .moderation, .records,
          .arbiter, .raised] s s.begun := by
  have hc := h.begun_control
  have hu := h.unchanged
  rw [hT] at hc
  rw [shutdownTest_of_ne (by rw [hc]; simp)] at hu ⊢
  refine ⟨rfl, by rw [hc], by rw [hc], (hu.except ?_).except ?_⟩
  · simp only [same, hc]
    simp
  · simp only [same, hc]
    simp

/-- Warned, with nothing to wait for, the part goes on to POWERDOWN. -/
theorem BootReady.powerdown (hT : s.control.bootTarget = .shutting)
    (hi : s.capture.context.state = .idle) (hj : s.jobs.running = none) (hd : s.feeder.deferred = []) :
    (s.begun.shutdownTest.ops = s.begun.ops ++ [fieldWrite 0 1 5]
        ∧ s.begun.shutdownTest.news = s.begun.news ++ [(.mode, .modeChanged, 5, 4, 5), (.mode, .powerSafe, 0, 0, s.capture.counter)]
        ∧ Stamped s.begun s.begun.shutdownTest)
      ∧ s.begun.shutdownTest.intake = s.begun.intake ∧ s.begun.shutdownTest.feeder = s.begun.feeder
      ∧ s.begun.shutdownTest.control = { s.begun.control with
          mode := .powerdown, announcements := announcedBlocks.map (Announcement.mk · .powerdown) } := by
  obtain ⟨-, b2, -, b4, b5⟩ := h.begun_blocks
  have hc := h.begun_control
  rw [hT] at hc
  have c1 : s.begun.control.mode = .shutting := by rw [hc]
  have c2 : s.begun.control.announcements = [] := by rw [hc]
  have c3 : s.begun.feeder.deferred = [] := by rw [b2]; exact hd
  have c4 : s.begun.capture.context.state = .idle := by rw [b4]; exact hi
  have c5 : s.begun.jobs.running = none := by rw [b5]; exact hj
  have c6 : s.begun.control.shuttingFrames = 0 := by rw [hc]; rfl
  have c7 : s.begun.capture.counter = s.capture.counter := by rw [b4]
  obtain ⟨-, hr, -⟩ := h.begun_room
  have hroom := shutdownTest_room (n := 0) hr c1 c2 c3 c4 c5
  rw [c6, c7] at hroom
  refine ⟨hroom, ?_⟩
  rw [shutdownTest_of_done c1 c2 c3 c4 c5 hr.1]
  refine ⟨by simp, by simp, ?_⟩
  rw [State.raise_control, State.changeMode_control, c2]
  simp

end

theorem Moderated.recorded (h : Moderated x t) (hs : t.post.setup = s.post.setup) (hf : t.post.fill = s.post.fill + 1)
    (hu : x.post.unsignalled = s.post.unsignalled) (ht : x.post.timer = s.post.timer) :
    (if s.post.setup.watermark ≤ s.post.fill + 1 then t.post.unsignalled = 0 ∧ t.post.timer = none
      else
        t.post.unsignalled = s.post.unsignalled + 1
          ∧ t.post.timer = if s.post.unsignalled = 0 ∧ s.post.setup.holdoff ≠ 0 then some 0 else s.post.timer)
    ∧ ∀ i, t.post.cause.getLsbD i =
        (x.post.cause.getLsbD i || decide (i = 0 ∧ s.post.setup.watermark ≤ s.post.fill + 1)) := by
  unfold Moderated at h
  rw [hs, hf, hu, ht] at h
  split at h
  · rename_i hw
    obtain ⟨h1, h2, h3⟩ := h
    exact ⟨(if_pos hw).mpr ⟨h2, h3⟩, fun i => by simp [h1 i, hw]⟩
  · rename_i hw
    obtain ⟨h1, h2, h3⟩ := h
    exact ⟨(if_neg hw).mpr ⟨h2, h3⟩, fun i => by simp [h1, hw]⟩

end Sys2Proof.Machine
end

section
open Sys2Proof Sys2Proof.Machine

/-- Settles O5: the state in which the blocks begin, and the test for the end of the shutdown behind it. -/
theorem bootEndsInStandbyOrShutsDown : Obligations.BootEndsInStandbyOrShutsDown := by
  intro s hm hb hq hw hd hf
  have h : BootReady s := ⟨hq, hw, hd, hf⟩
  refine ⟨_, execBootEnd_eq hm hb hq hw, ?_⟩
  rw [State.settle_endBoot]
  have hu : Unchanged [.mode, .announcements, .timer, .safety, .records, .raised, .arbiter, .unit, .context, .runningJob, .scan] s.begun
      (s.closeWork s.begun.shutdownTest) := s.begun.shutdownTest_unchanged.comp (s.closeWork_unchanged _) (by simp) (by simp)
  obtain ⟨g, l, p, b, r, c, hx, hh1, hh2⟩ := s.booted_is
  obtain ⟨p1, p2, p3, p4, p5, p6, p7, p8⟩ := h.begun_post
  obtain ⟨q1, q2, q3⟩ := s.begun_port
  obtain ⟨m1, m2⟩ := p8.recorded p6 p3 (by rw [hx]) (by rw [hx])
  obtain ⟨i1, i2, i3, i4⟩ := hu .inputs (by decide)
  obtain ⟨e1, e2, e3, e4⟩ := hu .events (by decide)
  obtain ⟨f1, f2, f3⟩ := hu .moderation (by decide)
  obtain ⟨k1, k2⟩ := hu .host (by decide)
  have hc := h.begun_control
  have hcause (i : Nat) : (s.closeWork s.begun.shutdownTest).post.cause.getLsbD i =
      (c.getLsbD i || decide (i = 0 ∧ s.post.setup.watermark ≤ s.post.fill + 1)) := by
    rw [show _ = s.begun.post.cause from hu .cause (by decide), m2 i, hx]
  rw [hx] at q2 q3
  rw [hc] at i1 i2 i3 i4
  dsimp only
  rw [f1, f2, f3, e1, e2, e3, e4, i1, i2, i3, i4, k1, k2, q2, q3]
  refine ⟨Eq.trans (hu .boot (by decide)) q1, rfl, rfl, rfl, rfl, ⟨p1, p2, p3, p4, p5, m1⟩, fun k => ?_,
    fun y k => ⟨fun j => ?_, fun y' j => ?_⟩,
    fun n1 n2 => ?_, fun n1 n2 n3 n4 => ?_⟩
  · obtain ⟨rfl, rfl, rfl⟩ := hh1 k
    exact ⟨rfl, rfl, fun i => by rw [hcause i]; simp⟩
  · obtain ⟨rfl, rfl, rfl⟩ := (hh2 y k).1 j
    exact ⟨rfl, rfl, fun i => by rw [hcause i]; simp⟩
  · obtain ⟨rfl, rfl, rfl⟩ := (hh2 y k).2 y' j
    refine ⟨rfl, rfl, fun i => ?_⟩
    rw [hcause i, withCause_bit, Bool.or_right_comm]
    rfl
  · have hT : s.control.bootTarget = .standby := by simp [ModeControl.bootTarget, n1, n2]
    obtain ⟨h1, h2, h3, h4⟩ := h.standby hT
    obtain ⟨b1, b2, b3, b4, b5⟩ := h.begun_blocks
    obtain ⟨ho, -, hraised⟩ := h.begun_room
    obtain ⟨-, v2, -, v4, v5⟩ := hu .views (by decide)
    rw [hT] at b1 b2 b3 b4 b5 ho
    refine ⟨?_, ?_, ⟨?_, ?_, v2.trans b3, v4.trans (by rw [b4]), v5.trans (by rw [b5])⟩, ?_⟩
    · rw [State.closeWork_control, h1, h2]
    · rw [State.closeWork_control, h1, h3]
    · rw [State.closeWork_intake, h1, b1]
    · rw [State.closeWork_feeder, h1, b2]
    · rw [h1]
      refine .closeWork (h4.mono (by simp)) fun _ => ⟨?_, by simp [State.news, hraised], .of_raised hraised⟩
      rw [ho, hm]
      rfl
  · have hT : s.control.bootTarget = .shutting := by
      rcases n1 with n1 | n1 <;> simp [ModeControl.bootTarget, n1]
    obtain ⟨⟨o1, o2, o3⟩, h1, h2, h3⟩ := h.powerdown hT n2 n3 n4
    obtain ⟨b1, b2, b3, b4, b5⟩ := h.begun_blocks
    obtain ⟨ho, -, hraised⟩ := h.begun_room
    obtain ⟨-, v2, -, v4, v5⟩ := hu .views (by decide)
    rw [hT] at b1 b2 b3 b4 b5 ho hc
    rw [hc] at h3
    rw [State.closeWork_control, h3]
    refine ⟨rfl, rfl, ⟨?_, ?_, v2.trans b3, v4.trans (by rw [b4]), v5.trans (by rw [b5])⟩, Bool.and_false _, rfl, rfl, rfl, rfl, rfl, ?_⟩
    · rw [State.closeWork_intake, h1, b1]
    · rw [State.closeWork_feeder, h2, b2]
    · refine .closeWork (h.unchanged.mono (by simp)) fun _ => ⟨?_, ?_, ?_⟩
      · rw [o1, ho, hm, List.append_assoc]
        rfl
      · rw [o2]
        simp [State.news, hraised]
      · unfold Stamped at o3 ⊢
        rwa [hraised] at o3

end

section
/-! SUPPORT. What a burst stores and loads where it meets no word with an error (R152, R157, R161 to R163). -/

namespace Sys2Proof.Machine

set_option Elab.async false

variable {s t u x : State} {q : Requester}

/-! ## Runs of bytes as cells (R157) -/

/-- The cells of the bytes at consecutive addresses. -/
def bytesAt : Nat → List Byte → List (Nat × Byte)
  | _, [] => []
  | a, b :: bs => (a, b) :: bytesAt (a + 1) bs

/-- The cells of several runs, in their order. -/
def cellsOfRuns (l : List (Nat × List Byte)) : List (Nat × Byte) := l.flatMap fun r => bytesAt r.1 r.2

theorem bytesAt_append (a : Nat) (l m : List Byte) : bytesAt a (l ++ m) = bytesAt a l ++ bytesAt (a + l.length) m := by
  induction l generalizing a with
  | nil => rfl
  | cons b l ih =>
    rw [List.cons_append, bytesAt, bytesAt, ih, List.cons_append, List.length_cons, Nat.add_right_comm, Nat.add_assoc]

theorem mem_bytesAt {a : Nat} {l : List Byte} {i : Nat} (h : i < l.length) : (a + i, l[i]) ∈ bytesAt a l := by
  induction l generalizing a i with
  | nil => simp at h
  | cons b l ih =>
    cases i with
    | zero => exact List.mem_cons_self
    | succ i =>
      have := ih (a := a + 1) (i := i) (by simpa using h)
      rw [show a + (i + 1) = a + 1 + i by omega]
      exact List.mem_cons_of_mem _ this

/-- The transfers of a run hold its bytes. -/
theorem splitBursts_cells (n a : Nat) (l : List Byte) (h : l.length ≤ n) : cellsOfRuns (splitBursts n a l) = bytesAt a l := by
  induction n generalizing a l with
  | zero => rw [List.length_eq_zero_iff.1 (Nat.le_zero.1 h)]; rfl
  | succ n ih =>
    cases l with
    | nil => rfl
    | cons b l =>
      have hr := ih (a + (64 - a % 64)) ((b :: l).drop (64 - a % 64)) (by
        rw [List.length_drop]
        have := Nat.mod_lt a (show 0 < 64 by decide)
        omega)
      have e : cellsOfRuns (splitBursts (n + 1) a (b :: l))
          = bytesAt a ((b :: l).take (64 - a % 64)) ++ cellsOfRuns (splitBursts n (a + (64 - a % 64)) ((b :: l).drop (64 - a % 64))) :=
        rfl
      rw [e, hr]
      conv => rhs; rw [← List.take_append_drop (64 - a % 64) (b :: l), bytesAt_append]
      by_cases k : 64 - a % 64 ≤ (b :: l).length
      · rw [List.length_take, Nat.min_eq_left k]
      · rw [List.drop_eq_nil_of_le (by omega)]
        rfl

theorem cellsOfRuns_append (l m : List (Nat × List Byte)) : cellsOfRuns (l ++ m) = cellsOfRuns l ++ cellsOfRuns m :=
  List.flatMap_append

theorem cellsOfRuns_bursts (l : List (Nat × List Byte)) : cellsOfRuns (l.flatMap burstsOf) = cellsOfRuns l := by
  induction l with
  | nil => rfl
  | cons r l ih =>
    rw [List.flatMap_cons, cellsOfRuns_append, ih]
    exact congrArg (· ++ cellsOfRuns l) (splitBursts_cells _ _ _ (Nat.le_refl _))

/-- Putting cells together into runs leaves them as they are. -/
theorem runsOf_cells (l : List (Nat × Byte)) : cellsOfRuns (runsOf l) = l := by
  induction l with
  | nil => rfl
  | cons c l ih =>
    obtain ⟨a, b⟩ := c
    unfold runsOf
    cases h : runsOf l with
    | nil =>
      rw [h] at ih
      rw [← ih]
      rfl
    | cons r rest =>
      obtain ⟨a', bs⟩ := r
      rw [h] at ih
      dsimp only
      split
      · rename_i e
        subst e
        rw [← ih]
        rfl
      · rw [← ih]
        rfl

/-! ## Memory under cells -/

/-- The cells written one after the other. -/
def Memory.putCells (m : Memory) (l : List (Nat × Byte)) : Memory := l.foldl (fun m c => m.write c.1 c.2) m

theorem Memory.writeBytes_cells (m : Memory) (a : Nat) (l : List Byte) : m.writeBytes a l = m.putCells (bytesAt a l) := by
  induction l generalizing m a with
  | nil => rfl
  | cons b l ih => exact ih _ _

theorem Memory.read_putCells_other {m : Memory} (h : m.wf = true) {l : List (Nat × Byte)} {x : Nat} (hx : ∀ c ∈ l, c.1 ≠ x) :
    (m.putCells l).read x = m.read x := by
  induction l generalizing m with
  | nil => rfl
  | cons c l ih =>
    refine (ih (Memory.wf_write h _ _) fun d hd => hx d (List.mem_cons_of_mem _ hd)).trans ?_
    rw [Memory.read_write h, if_neg fun k => hx c List.mem_cons_self k.1.symm]

/-- A byte that every cell of its address agrees on stands there. -/
theorem Memory.read_putCells {m : Memory} (h : m.wf = true) {l : List (Nat × Byte)} {c : Nat × Byte} (hc : c ∈ l)
    (ht : c.1 < Config.memTop) (hx : ∀ d ∈ l, d.1 = c.1 → d.2 = c.2) : (m.putCells l).read c.1 = c.2 := by
  induction l generalizing m c with
  | nil => cases hc
  | cons d l ih =>
    by_cases k : ∃ e ∈ l, e.1 = c.1
    · obtain ⟨e, he, e1⟩ := k
      have e2 := hx e (List.mem_cons_of_mem _ he) e1
      rw [← e1, ← e2]
      exact ih (Memory.wf_write h _ _) he (e1 ▸ ht) fun f hf hfe => by
        rw [e2]
        exact hx f (List.mem_cons_of_mem _ hf) (hfe.trans e1)
    · have hd : c = d := by
        rcases List.mem_cons.1 hc with hd | hd
        · exact hd
        · exact absurd ⟨c, hd, rfl⟩ k
      subst hd
      refine (Memory.read_putCells_other (Memory.wf_write h _ _) fun e he e1 => k ⟨e, he, e1⟩).trans ?_
      rw [Memory.read_write h, if_pos ⟨rfl, ht⟩]

theorem Memory.readBytes_eq (m : Memory) (a n : Nat) : m.readBytes a n = (List.range n).map fun i => m.read (a + i) := by
  induction n generalizing a with
  | zero => rfl
  | succ n ih =>
    rw [Memory.readBytes, ih, List.range_succ_eq_map, List.map_cons, List.map_map]
    refine congrArg _ (List.map_congr_left fun i _ => ?_)
    show m.read (a + 1 + i) = m.read (a + (i + 1))
    rw [Nat.add_assoc, Nat.add_comm 1]

/-! ## Words without error (R161, R162) -/

theorem codeWords_clean {lo hi w n : Nat} (h : ∀ y, w ≤ y → y < w + n → y ∉ s.port.bad ∧ y ∉ s.port.weak) :
    s.codeWords q lo hi w n = s := by
  induction n generalizing w with
  | zero => rfl
  | succ n ih =>
    have hw := h w (Nat.le_refl _) (by omega)
    have e (b : Bool) : s.codeWord q b w = s := by
      unfold State.codeWord
      rw [List.erase_of_not_mem hw.1, List.erase_of_not_mem hw.2, if_neg hw.1, if_neg hw.2]
      split <;> rfl
    rw [State.codeWords, e]
    exact ih fun y h1 h2 => h y (by omega) (by omega)

theorem store_clean {a : Nat} {l : List Byte} (h : s.cleanWords a l.length) :
    s.store q a l = { s with mem := s.mem.writeBytes a l } := by
  cases l with
  | nil => rfl
  | cons b l =>
    exact codeWords_clean (s := { s with mem := s.mem.writeBytes a (b :: l) }) fun y h1 h2 => h y h1 (by omega)

theorem State.cleanWords.sub {a n a' n' : Nat} (h : s.cleanWords a n) (h1 : a ≤ a') (h2 : a' + n' ≤ a + n) : s.cleanWords a' n' :=
  fun w k1 k2 => h w (by omega) (by omega)

/-- Runs whose cells all lie in clean words are put in place, and nothing else happens. -/
theorem storeRuns_clean {a n : Nat} (h : s.cleanWords a n) {l : List (Nat × List Byte)}
    (hl : ∀ c ∈ cellsOfRuns l, a ≤ c.1 ∧ c.1 < a + n) : s.storeRuns q l = { s with mem := s.mem.putCells (cellsOfRuns l) } := by
  induction l generalizing s with
  | nil => rfl
  | cons r l ih =>
    obtain ⟨a', bs⟩ := r
    have hc (c : Nat × Byte) (k : c ∈ bytesAt a' bs) : a ≤ c.1 ∧ c.1 < a + n :=
      hl c (List.mem_append_left _ k)
    have hs : s.store q a' bs = { s with mem := s.mem.writeBytes a' bs } := by
      cases bs with
      | nil => rfl
      | cons b bs =>
        have h1 := hc _ (mem_bytesAt (a := a') (i := 0) (l := b :: bs) (by simp))
        have h2 := hc _ (mem_bytesAt (a := a') (i := bs.length) (l := b :: bs) (by simp))
        refine store_clean (h.sub h1.1 ?_)
        have := h2.2
        simp only [List.length_cons]
        omega
    rw [State.storeRuns, hs, ih (s := { s with mem := s.mem.writeBytes a' bs }) h fun c k => hl c (List.mem_append_right _ k),
      Memory.writeBytes_cells]
    unfold Memory.putCells cellsOfRuns
    rw [List.flatMap_cons, List.foldl_append]

theorem checkWords_clean {w n : Nat} (h : ∀ y, w ≤ y → y < w + n → y ∉ s.port.bad ∧ y ∉ s.port.weak) :
    s.checkWords q w n = (s, true) := by
  induction n generalizing w with
  | zero => rfl
  | succ n ih =>
    have hw := h w (Nat.le_refl _) (by omega)
    rw [State.checkWords, if_neg hw.1, if_neg hw.2]
    exact ih fun y h1 h2 => h y (by omega) (by omega)

theorem load_clean {a n : Nat} (h : s.cleanWords a n) : s.load q a n = (s, some (s.mem.readBytes a n)) := by
  unfold State.load
  rw [checkWords_clean fun y h1 h2 => h y h1 (by omega)]

theorem checkWords_bad {w n v : Nat} (hb : v ∈ s.port.bad) (h1 : w ≤ v) (h2 : v < w + n)
    (h : ∀ y, w ≤ y → y < v → y ∉ s.port.bad ∧ y ∉ s.port.weak) : s.checkWords q w n = (s.reportUncorrectable q v, false) := by
  induction n generalizing w with
  | zero => omega
  | succ n ih =>
    by_cases k : w = v
    · subst k
      rw [State.checkWords, if_pos hb]
    · have hw := h w (Nat.le_refl _) (by omega)
      rw [State.checkWords, if_neg hw.1, if_neg hw.2]
      exact ih (by omega) (by omega) fun y h1 h2 => h y (by omega) h2

/-- A read that meets an uncorrectable word before any other with an error is abandoned there, and the error is reported (R163). -/
theorem load_bad {a n v : Nat} (hb : v ∈ s.port.bad) (h1 : a / 4 ≤ v) (h2 : 4 * v < a + n)
    (h : ∀ y, a / 4 ≤ y → y < v → y ∉ s.port.bad ∧ y ∉ s.port.weak) : s.load q a n = (s.reportUncorrectable q v, none) := by
  unfold State.load
  rw [checkWords_bad hb h1 (by omega) h]

end Sys2Proof.Machine
end

section
/-! SUPPORT. The bursts of the engine and of the intake (R5, R63, R65, R86, R102, R157). -/

namespace Sys2Proof.Machine

set_option Elab.async false

variable {s t u x : State} {q : Requester} {changed : List Piece} {v : EngineUnit} {b : EngineBurst} {g : Grant}

/-! ## MEMORY_BURST_COMPLETE (R157, R158) -/

/-- With nothing befallen, no abandoned read is left at the DRAM (assumption log 14). -/
def State.atBurst (s : State) : State := { s with engine.cutOff := none }

theorem State.countBurst_is (s : State) (q : Requester) : ∃ h, s.countBurst q = { s with port.grant := h } := by
  unfold State.countBurst
  split
  · rename_i h
    exact ⟨none, by rw [← h]⟩
  · rename_i g h
    dsimp only
    split
    · split
      · exact ⟨_, rfl⟩
      · split <;> exact ⟨_, rfl⟩
    · exact ⟨some g, by rw [← h]⟩

theorem exec_burst (hg : s.port.grant = some g) (ht : s.atBurst.burstOf g.who b = some t) :
    exec (.memoryBurstComplete [] b) s = .next (s.closeWork (t.countBurst g.who)) := by
  show execMemoryBurstComplete [] b s = _
  unfold execMemoryBurstComplete
  rw [hg]
  dsimp only
  rw [show (s.befall []).burstOf g.who b = some t from ht]

/-- A burst that is no transfer of the engine's unit does nothing (assumption logs 4 and 14). -/
theorem exec_burst_of_not_moves (hg : s.port.grant = some g) (hw : g.who = .engine) (hu : s.engine.unit = some v)
    (hm : v.moves b = false) : exec (.memoryBurstComplete [] b) s = .next s := by
  show execMemoryBurstComplete [] b s = _
  unfold execMemoryBurstComplete
  rw [hg]
  dsimp only
  have e : (s.befall []).burstOf g.who b = none := by
    rw [hw]
    show (match s.engine.unit with | some u => if u.moves b then _ else none | none => none) = none
    rw [hu]
    exact if_neg (by simp [hm])
  rw [e]

theorem exec_engineBurst (hg : s.port.grant = some g) (hw : g.who = .engine) (hu : s.engine.unit = some v) (hm : v.moves b = true)
    (ht : s.atBurst.engineBurst v b = t) : exec (.memoryBurstComplete [] b) s = .next (s.closeWork (t.countBurst .engine)) := by
  have e : s.atBurst.burstOf g.who b = some t := by
    rw [hw]
    show (match s.engine.unit with | some u => if u.moves b then some (s.atBurst.engineBurst u b) else none | none => none) = _
    rw [hu, ← ht]
    exact if_pos hm
  rw [exec_burst hg e, hw]

/-! ## What a burst did, beside the read that it may have ended -/

/-- A step that also clears the strip abandoned before did what its own effect did. -/
theorem Did.of_atBurst {new : List RecordOp} {events : List (Block × EventKind × Nat × Nat × Nat)}
    (h : Did changed new events s.atBurst t) : Did changed new events s t := by
  obtain ⟨h1, h2, h3, h4, h5⟩ := h
  refine ⟨fun p hp => ?_, h2, h3, h4, h5⟩
  have k := h1 p hp
  cases p with
  | unit => exact absurd (List.mem_append_right _ (by simp)) hp
  | _ => exact k

/-- Counting a burst moves the grant alone. -/
theorem Unchanged.counted (h : Unchanged changed s t) (q : Requester) : Unchanged (changed ++ [.arbiter]) s (t.countBurst q) :=
  h.comp (t.countBurst_unchanged q) (List.subset_append_left _ _) (List.subset_append_right _ _)

/-- A burst that sends what it does on at once, or has room for it. -/
theorem Did.burst {new : List RecordOp} {events : List (Block × EventKind × Nat × Nat × Nat)}
    (h : Unchanged (changed ++ .records :: closing) s.atBurst u)
    (k : s.roomFor new.length → u.ops = s.ops ++ new ∧ u.news = s.news ++ events ∧ Stamped s u) :
    Did changed new events s (s.closeWork u) :=
  Did.of_atBurst (Did.closeWork (s := s.atBurst) h k)

/-- A burst that issues and raises nothing. -/
theorem Did.quietBurst (h : Unchanged changed s.atBurst u) (q : Requester) (hr : Piece.records ∉ changed := by decide)
    (ha : Piece.raised ∉ changed := by decide) : Did changed [] [] s (s.closeWork (u.countBurst q)) :=
  have hc := h.counted q
  Did.burst (hc.mono fun p hp => by simp only [List.mem_append, List.mem_cons] at hp ⊢; tauto)
    fun _ => hc.quiet (by simp [hr]) (by simp [ha])

theorem State.closeCounted_keeps (s t : State) (q : Requester) :
    Unchanged takingWork t (s.closeWork (t.countBurst q)) :=
  (t.countBurst_unchanged q).comp (s.closeWork_unchanged _) (by simp) (List.Subset.refl _)

theorem closeCounted_mem (q : Requester) : (s.closeWork (u.countBurst q)).mem = u.mem := by
  obtain ⟨k, e⟩ := u.countBurst_is q
  rw [State.closeWork_mem, e]

theorem closeCounted_unit {h : EngineUnit} (hu : u.engine.unit = some h) (q : Requester) :
    (s.closeWork (u.countBurst q)).engine.unit = some h := by
  refine State.closeWork_kept _ ?_
  obtain ⟨k, e⟩ := u.countBurst_is q
  rw [e]
  exact hu

/-! ## Read bursts of the engine (R65, R102) -/

/-- The unit with the bytes of a burst as they stand in memory. -/
def State.readBy (s : State) (v : EngineUnit) (b : EngineBurst) : EngineUnit :=
  { v with fetched := ((List.range b.len).map fun i => (b.addr + i, s.mem.read (b.addr + i))) ++ v.fetched }

theorem engineBurst_read (hw : b.write = false) (hc : s.cleanWords b.addr b.len) :
    s.engineBurst v b = s.setUnit (s.readBy v b) := by
  unfold State.engineBurst
  rw [if_neg (by simp [hw]), load_clean hc]
  dsimp only
  rw [Memory.readBytes_eq, burstAddrs, List.zip_map']
  rfl

/-- A read of a strip that meets an uncorrectable word faults the strip (R86, R102). -/
def State.stripBurstFault (s : State) (buffer : Bool) (w : Nat) : State :=
  ((s.reportUncorrectable .engine w).stripFaulted buffer).dropUnit

theorem engineBurst_stripFault {k w : Nat} {buffer : Bool} (hw : b.write = false) (hv : v.work = .strip k buffer)
    (hb : w ∈ s.port.bad) (h1 : b.addr / 4 ≤ w) (h2 : 4 * w < b.addr + b.len)
    (h : ∀ y, b.addr / 4 ≤ y → y < w → y ∉ s.port.bad ∧ y ∉ s.port.weak) (hm : s.control.mode ≠ .shutting) :
    s.engineBurst v b = s.stripBurstFault buffer w := by
  have hu := (s.reportUncorrectable_unchanged .engine w).comp (((s.reportUncorrectable .engine w).stripFaulted_unchanged buffer).comp
    (State.dropUnit_unchanged _) (c := [.strips, .stripCounts, .unit, .arbiter]) (by simp) (by simp))
    (c := [.errors, .cause, .raised, .records, .arbiter, .strips, .stripCounts, .unit]) (by simp) (by simp)
  have hm' : (s.stripBurstFault buffer w).control.mode ≠ .shutting := by
    have e : (s.stripBurstFault buffer w).control.mode = s.control.mode := hu .mode (by decide)
    rwa [e]
  unfold State.engineBurst
  rw [if_neg (by simp [hw]), load_bad hb h1 h2 h]
  dsimp only
  unfold State.faultUnit
  rw [hv]
  exact shutdownTest_of_ne hm'

/-! ## Write bursts of the engine (R63, R157) -/

theorem mem_burstAddrs {y : Nat} : y ∈ burstAddrs b ↔ b.addr ≤ y ∧ y < b.addr + b.len := by
  unfold burstAddrs
  rw [List.mem_map]
  constructor
  · rintro ⟨i, hi, rfl⟩
    have := List.mem_range.1 hi
    omega
  · rintro ⟨h1, h2⟩
    exact ⟨y - b.addr, List.mem_range.2 (by omega), by omega⟩

/-- The cells of the unit that a burst writes. -/
def State.burstCells (s : State) (v : EngineUnit) (b : EngineBurst) : List (Nat × Byte) :=
  (s.unitCells v).filter fun c => (burstAddrs b).contains c.1

theorem mem_burstCells {c : Nat × Byte} :
    c ∈ s.burstCells v b ↔ c ∈ s.unitCells v ∧ b.addr ≤ c.1 ∧ c.1 < b.addr + b.len := by
  unfold State.burstCells
  rw [List.mem_filter, List.contains_iff_mem, mem_burstAddrs]

theorem moves_wellFormed (hm : v.moves b = true) : 1 ≤ b.len ∧ b.addr + b.len ≤ Config.memTop := by
  unfold EngineUnit.moves EngineBurst.wellFormed at hm
  simp only [Bool.and_eq_true, decide_eq_true_eq] at hm
  exact ⟨hm.1.1.1, hm.1.2⟩

/-- A unit that a write burst moves has destination bytes. -/
theorem destinationCells_of_moves (hw : b.write = true) (hm : v.moves b = true) : s.destinationCells v = s.unitCells v := by
  have h1 := (moves_wellFormed hm).1
  unfold EngineUnit.moves at hm
  rw [if_pos hw, Bool.and_eq_true, List.all_eq_true] at hm
  have h2 := hm.2 b.addr (mem_burstAddrs.2 (by omega))
  rw [Bool.and_eq_true, Bool.and_eq_true, List.contains_iff_mem] at h2
  obtain ⟨⟨h3, -⟩, -⟩ := h2
  unfold EngineUnit.destinations at h3
  unfold State.destinationCells
  cases h : v.work with
  | capturePiece n => rfl
  | jobPiece n => rfl
  | _ =>
    rw [h] at h3
    cases h3

theorem State.mem_unchanged (s : State) (m : Memory) : Unchanged [.memory] s { s with mem := m } := by
  intro p hp
  cases p <;> simp_all [same]

/-- The state with the cells of a burst in memory, and the unit's count of them. -/
def State.burstWritten (s : State) (v : EngineUnit) (b : EngineBurst) : State :=
  ({ s with mem := s.mem.putCells (s.burstCells v b) } : State).setUnit
    { v with written := (List.range b.len).map (b.addr + ·) ++ v.written }

theorem State.burstWritten_unchanged (s : State) (v : EngineUnit) (b : EngineBurst) :
    Unchanged [.memory, .unit] s (s.burstWritten v b) :=
  (s.mem_unchanged _).comp (State.setUnit_unchanged _ _) (by simp) (by simp)

theorem engineBurst_write (hw : b.write = true) (hm : v.moves b = true) (hc : s.cleanWords b.addr b.len) :
    s.engineBurst v b = s.burstWritten v b := by
  unfold State.engineBurst
  rw [if_pos hw, destinationCells_of_moves hw hm]
  dsimp only
  have h : cellsOfRuns ((runsOf (s.burstCells v b)).flatMap burstsOf) = s.burstCells v b := by
    rw [cellsOfRuns_bursts, runsOf_cells]
  have hs := storeRuns_clean (q := .engine) hc (l := (runsOf (s.burstCells v b)).flatMap burstsOf) fun c k => by
    rw [h] at k
    exact (mem_burstCells.1 k).2
  rw [h] at hs
  exact congrArg (State.setUnit · _) hs

/-- The cells of a part: the luma of each pixel, and a chroma byte. -/
theorem mem_cells {p : Part} {rd : Getter} {c : Nat × Byte} :
    c ∈ p.cells rd ↔ ∃ i j, p.col ≤ i ∧ i < p.col + p.cols ∧ p.row ≤ j ∧ j < p.row + p.rows
      ∧ (c = (p.render.destination + j * p.render.wp + i, BitVec.ofNat 8 (p.luma rd i j))
        ∨ c = (p.render.destination + p.render.wp * p.render.hp + j * p.render.wp + i, BitVec.ofNat 8 (p.chroma rd (i % 2) i j))) := by
  unfold Part.cells
  simp only [List.mem_append, List.mem_flatMap, List.mem_map, List.mem_range]
  constructor
  · rintro (⟨j, hj, i, hi, rfl⟩ | ⟨j, hj, i, hi, rfl⟩)
    · exact ⟨p.col + i, p.row + j, by omega, by omega, by omega, by omega, .inl rfl⟩
    · exact ⟨p.col + i, p.row + j, by omega, by omega, by omega, by omega, .inr rfl⟩
  · rintro ⟨i, j, h1, h2, h3, h4, rfl | rfl⟩
    · refine .inl ⟨j - p.row, by omega, i - p.col, by omega, ?_⟩
      rw [Nat.add_sub_cancel' h1, Nat.add_sub_cancel' h3]
    · refine .inr ⟨j - p.row, by omega, i - p.col, by omega, ?_⟩
      rw [Nat.add_sub_cancel' h1, Nat.add_sub_cancel' h3]

theorem row_col_inj {w i j i' j' : Nat} (h : j * w + i = j' * w + i') (hi : i < w) (hi' : i' < w) : i = i' ∧ j = j' := by
  have hw : 0 < w := by omega
  have e1 : (j * w + i) / w = j := by rw [Nat.mul_comm, Nat.mul_add_div hw, Nat.div_eq_of_lt hi, Nat.add_zero]
  have e2 : (j' * w + i') / w = j' := by rw [Nat.mul_comm, Nat.mul_add_div hw, Nat.div_eq_of_lt hi', Nat.add_zero]
  have hj : j = j' := by rw [← e1, ← e2, h]
  subst hj
  exact ⟨by omega, rfl⟩

theorem pixel_lt {w n i j : Nat} (hi : i < w) (hj : j < n) : j * w + i < w * n := by
  have := Nat.mul_le_mul_left w (Nat.succ_le_of_lt hj)
  rw [Nat.mul_succ, Nat.mul_comm] at this
  omega

/-- Within a part that lies in its target no two cells have an address in common (R63, R64). -/
theorem cells_inj {p : Part} {rd : Getter} (hc : p.col + p.cols ≤ p.render.wp) (hr : p.row + p.rows ≤ p.render.hp) {c d : Nat × Byte}
    (h : c ∈ p.cells rd) (h' : d ∈ p.cells rd) (e : d.1 = c.1) : d.2 = c.2 := by
  obtain ⟨i, j, h1, h2, h3, h4, h5⟩ := mem_cells.1 h
  obtain ⟨i', j', k1, k2, k3, k4, k5⟩ := mem_cells.1 h'
  have l := pixel_lt (w := p.render.wp) (n := p.render.hp) (i := i) (j := j) (by omega) (by omega)
  have l' := pixel_lt (w := p.render.wp) (n := p.render.hp) (i := i') (j := j') (by omega) (by omega)
  rcases h5 with rfl | rfl <;> rcases k5 with rfl | rfl <;> dsimp only at e
  · obtain ⟨rfl, rfl⟩ := row_col_inj (w := p.render.wp) (i := i') (j := j') (i' := i) (j' := j) (by omega) (by omega) (by omega)
    rfl
  · omega
  · omega
  · obtain ⟨rfl, rfl⟩ := row_col_inj (w := p.render.wp) (i := i') (j := j') (i' := i) (j' := j) (by omega) (by omega) (by omega)
    rfl

theorem mem_unitCells {c : Nat × Byte} : c ∈ s.unitCells v ↔ (∃ p ∈ v.parts, c ∈ p.cells (s.getter v)) ∧ c.1 ∉ v.written := by
  simp [State.unitCells]

/-- The bytes of the cells that a burst covers stand in memory, and every other byte as before. -/
theorem read_burstCells {m : Memory} (h : m.wf = true) (ht : b.addr + b.len ≤ Config.memTop) :
    (∀ c ∈ s.unitCells v, b.addr ≤ c.1 ∧ c.1 < b.addr + b.len → (∀ d ∈ s.unitCells v, d.1 = c.1 → d.2 = c.2) →
        (m.putCells (s.burstCells v b)).read c.1 = c.2)
      ∧ ∀ y, ¬ (b.addr ≤ y ∧ y < b.addr + b.len) → (m.putCells (s.burstCells v b)).read y = m.read y := by
  refine ⟨fun c hc hy hd => ?_, fun y hy => ?_⟩
  · exact Memory.read_putCells h (mem_burstCells.2 ⟨hc, hy⟩) (by omega) fun d k => hd d (mem_burstCells.1 k).1
  · refine Memory.read_putCells_other h fun c hc e => hy ?_
    rw [← e]
    exact (mem_burstCells.1 hc).2

/-- So each pixel of a unit of one part has its bytes, each at its own address. -/
theorem pixelsWritten_of_cells {here : Nat → Prop}
    (h : ∀ c ∈ s.unitCells v, here c.1 → (∀ d ∈ s.unitCells v, d.1 = c.1 → d.2 = c.2) → t.mem.read c.1 = c.2) :
    PixelsWritten here s t v := by
  intro p hp hc hr i j h1 h2 h3 h4
  have key (c : Nat × Byte) (k : c ∈ p.cells (s.getter v)) (hh : here c.1) (hw : c.1 ∉ v.written) : t.mem.read c.1 = c.2 := by
    refine h c (mem_unitCells.2 ⟨⟨p, by simp [hp], k⟩, hw⟩) hh fun d hd e => ?_
    obtain ⟨⟨p', hp', hd'⟩, -⟩ := mem_unitCells.1 hd
    rw [hp, List.mem_singleton] at hp'
    subst hp'
    exact cells_inj hc hr k hd' e
  refine ⟨fun hh _ hw => ?_, fun hh _ hw => ?_⟩
  · exact key (_, _) (mem_cells.2 ⟨i, j, h1, h2, h3, h4, .inl rfl⟩) hh hw
  · exact key (_, _) (mem_cells.2 ⟨i, j, h1, h2, h3, h4, .inr rfl⟩) hh hw

/-! ## Values that are not computed yet (R65; assumption log 14) -/

theorem mem_pixels {p : Part} {i j : Nat} :
    (i, j) ∈ p.pixels ↔ p.col ≤ i ∧ i < p.col + p.cols ∧ p.row ≤ j ∧ j < p.row + p.rows := by
  unfold Part.pixels
  simp only [List.mem_flatMap, List.mem_map, List.mem_range, Prod.mk.injEq]
  constructor
  · rintro ⟨y, hy, z, hz, rfl, rfl⟩
    omega
  · rintro ⟨h1, h2, h3, h4⟩
    exact ⟨j - p.row, by omega, i - p.col, by omega, by omega, by omega⟩

theorem mem_widened {m first count size y : Nat} :
    y ∈ widened m first count size ↔ first - m ≤ y ∧ y < min (first + count + m) (max size (first + count)) := by
  unfold widened
  simp only [List.mem_map, List.mem_range]
  constructor
  · rintro ⟨i, hi, rfl⟩
    omega
  · rintro ⟨h1, h2⟩
    exact ⟨y - (first - m), by omega, by omega⟩

/-- A burst that covers a byte made from a source byte not read yet is no transfer of the unit. -/
theorem not_moves_of_unread {p : Part} {y z : Nat} (hw : b.write = true) (hp : p ∈ v.parts) (hy : b.addr ≤ y ∧ y < b.addr + b.len)
    (hz : z ∈ p.readsFor y) (hf : ∀ c ∈ v.fetched, c.1 ≠ z) : v.moves b = false := by
  rw [Bool.eq_false_iff]
  intro hm
  unfold EngineUnit.moves at hm
  rw [if_pos hw, Bool.and_eq_true, List.all_eq_true] at hm
  have h := hm.2 y (mem_burstAddrs.2 hy)
  rw [Bool.and_eq_true] at h
  have hc := List.all_eq_true.1 (List.all_eq_true.1 h.2 p hp) z hz
  obtain ⟨c, hc, e⟩ := List.any_eq_true.1 hc
  exact hf c hc (of_decide_eq_true e)

theorem mem_readsFor_luma {p : Part} {i j i' j' z : Nat} (h : (i, j) ∈ p.pixels) (hin : p.render.inside i j = true)
    (hi : i' < p.render.wp) (hj : j' < p.render.hp) (hz : z ∈ p.render.lumaReads i' j')
    (hn : (i' = i ∧ j' = j) ∨ (p.render.gain ≠ 0 ∧ i ≤ i' + 1 ∧ i' ≤ i + 1 ∧ j ≤ j' + 1 ∧ j' ≤ j + 1)) :
    z ∈ p.readsFor (p.render.destination + j * p.render.wp + i) := by
  have hm : i - p.margin ≤ i' ∧ i' ≤ i + p.margin ∧ j - p.margin ≤ j' ∧ j' ≤ j + p.margin := by
    unfold Part.margin
    split <;> omega
  unfold Part.readsFor
  refine List.mem_flatMap.2 ⟨(i, j), h, List.mem_append_left _ ?_⟩
  rw [if_pos rfl]
  unfold Part.lumaNeeds
  rw [if_pos hin]
  exact List.mem_flatMap.2 ⟨j', mem_widened.2 (by omega), List.mem_flatMap.2 ⟨i', mem_widened.2 (by omega), hz⟩⟩

theorem mem_readsFor_chroma {p : Part} {i j z : Nat} (h : (i, j) ∈ p.pixels) (hz : z ∈ p.render.chromaReads (i - i % 2) j) :
    z ∈ p.readsFor (p.render.destination + p.render.wp * p.render.hp + j * p.render.wp + i) := by
  unfold Part.readsFor
  refine List.mem_flatMap.2 ⟨(i, j), h, List.mem_append_right _ ?_⟩
  rw [if_pos rfl]
  exact hz

/-! ## An uncorrectable error reported (R163) -/

/-- It is counted, and MEMORY_FAULT is set. -/
theorem State.reportUncorrectable_port (s : State) (q : Requester) (w : Nat) :
    (s.reportUncorrectable q w).port.uncorrectable = min 4294967295 (s.port.uncorrectable + 1)
      ∧ (s.reportUncorrectable q w).post.cause = withCause s.post.cause .memoryFault := by
  have hu := State.raise_unchanged
    ({ s with port.uncorrectable := satInc Config.counterMax s.port.uncorrectable }.setCause .memoryFault) .memory .memoryFault q.value
    (4 * w) (satInc Config.counterMax s.port.uncorrectable)
  exact ⟨(hu .errors (by decide)).2.1, hu .cause (by decide)⟩

/-- With nobody waiting for room, its event is raised at once. -/
theorem reportUncorrectable_room (h : s.noneWait) (q : Requester) (w : Nat) :
    (s.reportUncorrectable q w).ops = s.ops
      ∧ (s.reportUncorrectable q w).news
          = s.news ++ [(.memory, .memoryFault, q.value, 4 * w, min 4294967295 (s.port.uncorrectable + 1))]
      ∧ Stamped s (s.reportUncorrectable q w) := by
  have k : ({ s with port.uncorrectable := satInc Config.counterMax s.port.uncorrectable }.setCause .memoryFault).noneWait := h
  refine ⟨State.raise_ops k _ _ _ _ _, State.raise_news _ _ _ _ _ _ (State.not_waiting k _), ?_⟩
  exact Stamped.raise (.of_raised rfl) (Nat.le_refl _) k _ _ _ _ _

/-! ## A strip faulted by a burst (R86, R102) -/

theorem State.stripFaulted_feeder (s : State) (buffer : Bool) :
    (s.stripFaulted buffer).feeder.request = none
      ∧ (s.stripFaulted buffer).feeder.faults = min 4294967295 (s.feeder.faults + 1)
      ∧ (s.stripFaulted buffer).feeder.underruns = s.feeder.underruns ∧ (s.stripFaulted buffer).feeder.late = s.feeder.late
      ∧ (if buffer then (s.stripFaulted buffer).feeder.bufferB else (s.stripFaulted buffer).feeder.bufferA)
          = .solid s.feeder.layout.background := by
  cases buffer <;> exact ⟨rfl, rfl, rfl, rfl, rfl⟩

theorem State.dropUnit_unit (s : State) : s.dropUnit.engine.unit = none := by
  obtain ⟨g, l, p, h⟩ := State.makeGrant_is { s.endGrantOf .engine with engine.unit := none, port.pass.engine := 0 }
  unfold State.dropUnit
  rw [h]

/-- What a strip fault changes behind the report of the error. -/
theorem State.stripBurstFault_unchanged (s : State) (buffer : Bool) (w : Nat) :
    Unchanged [.strips, .stripCounts, .unit, .arbiter] (s.reportUncorrectable .engine w) (s.stripBurstFault buffer w) :=
  (State.stripFaulted_unchanged _ buffer).comp (State.dropUnit_unchanged _) (by simp) (by simp)

/-- The feeder shows the background in the strip, and counts it; the frame is not made late. -/
theorem State.stripBurstFault_feeder (s : State) (buffer : Bool) (w : Nat) :
    (s.stripBurstFault buffer w).feeder.request = none
      ∧ (s.stripBurstFault buffer w).feeder.faults = min 4294967295 (s.feeder.faults + 1)
      ∧ (s.stripBurstFault buffer w).feeder.underruns = s.feeder.underruns
      ∧ (s.stripBurstFault buffer w).feeder.late = s.feeder.late
      ∧ (if buffer then (s.stripBurstFault buffer w).feeder.bufferB else (s.stripBurstFault buffer w).feeder.bufferA)
          = .solid s.feeder.layout.background := by
  have hr := s.reportUncorrectable_unchanged .engine w
  have hd := State.dropUnit_unchanged ((s.reportUncorrectable .engine w).stripFaulted buffer)
  obtain ⟨f1, f2, f3, f4, f5⟩ := (s.reportUncorrectable .engine w).stripFaulted_feeder buffer
  obtain ⟨c1, c2⟩ := hr .stripCounts (by decide)
  obtain ⟨-, l2, -⟩ := hr .lateness (by decide)
  obtain ⟨b1, -⟩ := hr .layout (by decide)
  obtain ⟨d1, d2, -, d4, -⟩ := hd .strips (by decide)
  obtain ⟨e1, e2⟩ := hd .stripCounts (by decide)
  obtain ⟨-, m2, -⟩ := hd .lateness (by decide)
  unfold State.stripBurstFault
  rw [d1, d2, d4, e1, e2, m2]
  rw [c1] at f3
  rw [c2] at f2
  rw [l2] at f4
  rw [b1] at f5
  exact ⟨f1, f2, f3, f4, f5⟩

/-- The error is counted, MEMORY_FAULT is set, and the engine goes on with other work. -/
theorem State.stripBurstFault_closed (s : State) (buffer : Bool) (w : Nat) :
    (s.closeWork ((s.atBurst.stripBurstFault buffer w).countBurst .engine)).feeder = (s.atBurst.stripBurstFault buffer w).feeder
      ∧ (s.closeWork ((s.atBurst.stripBurstFault buffer w).countBurst .engine)).port.uncorrectable
          = min 4294967295 (s.port.uncorrectable + 1)
      ∧ (s.closeWork ((s.atBurst.stripBurstFault buffer w).countBurst .engine)).post.cause = withCause s.post.cause .memoryFault
      ∧ (s.closeWork ((s.atBurst.stripBurstFault buffer w).countBurst .engine)).tookNext := by
  obtain ⟨p1, p2⟩ := s.atBurst.reportUncorrectable_port .engine w
  have ht := (s.atBurst.stripBurstFault_unchanged buffer w).comp (s.closeCounted_keeps (s.atBurst.stripBurstFault buffer w) .engine)
    (c := [.strips, .stripCounts, .unit, .arbiter, .raised, .context, .runningJob, .scan, .records]) (by simp) (by simp)
  obtain ⟨g, e⟩ := (s.atBurst.stripBurstFault buffer w).countBurst_is .engine
  refine ⟨?_, Eq.trans (ht .errors (by decide)).2.1 p1, Eq.trans (ht .cause (by decide)) p2, s.closeWork_tookNext ?_⟩
  · rw [State.closeWork_feeder, e]
  · rw [e]
    exact State.dropUnit_unit _

theorem State.stripBurstFault_did (s : State) (buffer : Bool) (w : Nat) :
    Did [.strips, .stripCounts, .errors, .cause, .unit] []
      [(.memory, .memoryFault, 1, 4 * w, min 4294967295 (s.port.uncorrectable + 1))] s
      (s.closeWork ((s.atBurst.stripBurstFault buffer w).countBurst .engine)) := by
  have hc := (s.atBurst.stripBurstFault_unchanged buffer w).counted .engine
  refine .burst ((s.atBurst.reportUncorrectable_unchanged .engine w).comp hc (by simp) (by simp)) fun hr => ?_
  obtain ⟨r1, r2, r3⟩ := reportUncorrectable_room (s := s.atBurst) hr.1 .engine w
  obtain ⟨k1, k2, -⟩ := hc.quiet (by decide) (by decide)
  have k3 : _ = _ := hc .raised (by decide)
  have k4 := (hc .statistics (by decide)).2.1
  refine ⟨k1.trans (by rw [r1]; rfl), k2.trans (by rw [r2, List.append_nil]; rfl), fun y hy => ?_⟩
  rw [k3] at hy
  rw [k4]
  exact r3 y hy

/-! ## Bursts of the intake (R5) -/

/-- The state with bytes of the buffer in their slot. -/
def State.intakeWritten (s : State) (a : Nat) (bs : List BufferByte) : State :=
  { s with
    mem := s.mem.writeBytes a (bs.map BufferByte.value)
    intake.buffer := s.intake.buffer.filter fun y => decide (y ∉ bs) }

theorem State.intakeWritten_unchanged (s : State) (a : Nat) (bs : List BufferByte) :
    Unchanged [.memory, .buffer] s (s.intakeWritten a bs) := by
  refine (s.mem_unchanged (s.mem.writeBytes a (bs.map BufferByte.value))).comp (b := [.buffer]) (fun p hp => ?_) (by simp) (by simp)
  unfold State.intakeWritten
  cases p <;> simp_all [same]

/-- The oldest bytes of a plane go to their slot. -/
theorem intakeBurst_clean {a : Nat} {bs : List BufferByte} (hn : s.intake.nextBurst = some (a, bs)) (hc : s.cleanWords a bs.length) :
    s.intakeBurst = s.intakeWritten a bs := by
  unfold State.intakeBurst
  rw [hn]
  dsimp only
  rw [store_clean (by rwa [List.length_map])]
  rfl

theorem written_writeBytes {a : Nat} {l : List Byte} (h : s.mem.wf = true) (ht : a + l.length ≤ Config.memTop)
    (hm : t.mem = s.mem.writeBytes a l) : Written s t a l := by
  intro y
  rw [hm]
  split
  · rename_i k
    have e := Memory.read_writeBytes h (a := a) (i := y - a) (bs := l) (by omega) ht
    rw [Nat.add_sub_cancel' k.1] at e
    rw [e, List.getD_eq_getElem]
  · exact Memory.read_writeBytes_other h (by omega)

end Sys2Proof.Machine
end

section
open Sys2Proof Sys2Proof.Machine

/-- Settles O24: each burst as it meets no error, the strip faulted by one that does, and the write that comes before its reads. -/
theorem engineAndIntakeBurstsAreMade : Obligations.EngineAndIntakeBurstsAreMade := by
  refine ⟨fun s g u b hg hq hu hw hm => ⟨fun hc => ?_, fun k buffer w hv hb h1 h2 h hmode => ?_⟩,
    fun s g u b hg hq hu hw hm hwf hc => ?_, fun s g u b p i j i' j' y hg hq hu hw hp h1 h2 h3 h4 h5 h6 h7 h8 hf => ⟨fun k1 k2 k3 k4 k5 => ?_,
      fun k1 k2 k3 => ?_⟩, fun s g b a bs hg hq hn ht hwf hc => ?_⟩
  · have e := engineBurst_read (s := s.atBurst) (v := u) hw hc
    exact ⟨_, exec_engineBurst hg hq hu hm e, closeCounted_unit rfl _, .quietBurst (changed := [.unit]) (State.setUnit_unchanged _ _) _⟩
  · have e := engineBurst_stripFault (s := s.atBurst) hw hv hb h1 h2 h hmode
    refine ⟨_, exec_engineBurst hg hq hu hm e, ?_⟩
    obtain ⟨hf, hunc, hcause, hnext⟩ := s.stripBurstFault_closed buffer w
    obtain ⟨f1, f2, f3, f4, f5⟩ := s.atBurst.stripBurstFault_feeder buffer w
    rw [hf, hunc, hcause]
    exact ⟨f1, f2, f3, f4, f5, rfl, withCause_bit _ _, hnext, s.stripBurstFault_did buffer w⟩
  · have e := engineBurst_write (s := s.atBurst) hw hm hc
    obtain ⟨r1, r2⟩ := read_burstCells (s := s) (v := u) hwf (moves_wellFormed hm).2
    have hb := s.atBurst.burstWritten_unchanged u b
    have hmem : (s.closeWork ((s.atBurst.burstWritten u b).countBurst .engine)).mem = s.mem.putCells (s.burstCells u b) :=
      closeCounted_mem _
    obtain ⟨b1, b2, b3, b4⟩ := (hb.comp (s.closeCounted_keeps _ .engine) (c := .memory :: takingWork) (by simp) (by simp)) .errors
      (by decide)
    refine ⟨_, exec_engineBurst hg hq hu hm e, closeCounted_unit rfl _, pixelsWritten_of_cells ?_, ?_, ?_, b4, b3, b1, b2,
      .quietBurst (hb.mono (by simp)) _⟩
    · rw [hmem]
      exact r1
    · rw [hmem]
      exact r1
    · rw [hmem]
      exact r2
  · exact exec_burst_of_not_moves hg hq hu
      (not_moves_of_unread hw hp ⟨k1, k2⟩ (mem_readsFor_luma (mem_pixels.2 ⟨h1, h2, h3, h4⟩) k3 h7 h8 k4 k5) hf)
  · exact exec_burst_of_not_moves hg hq hu
      (not_moves_of_unread hw hp ⟨k1, k2⟩ (mem_readsFor_chroma (mem_pixels.2 ⟨h1, h2, h3, h4⟩) k3) hf)
  · have e : s.atBurst.burstOf g.who b = some (s.atBurst.intakeWritten a bs) := by
      rw [hq, ← intakeBurst_clean (s := s.atBurst) hn hc]
      rfl
    have hb := s.atBurst.intakeWritten_unchanged a bs
    have hk := s.closeCounted_keeps (s.atBurst.intakeWritten a bs) g.who
    obtain ⟨b1, b2, b3, b4⟩ := (hb.comp hk (c := .memory :: .buffer :: takingWork) (by simp) (by simp)) .errors (by decide)
    obtain ⟨c1, c2⟩ := hk .buffer (by decide)
    refine ⟨_, exec_burst hg e, written_writeBytes hwf (by rwa [List.length_map]) (closeCounted_mem _), c1, c2, b4, b3, b1, b2,
      .quietBurst (hb.mono (by simp)) _⟩

end

section
/-! SUPPORT. The best entry of a fold over the page index, which the lookup and the eviction share (R29, R36). -/

namespace Sys2Proof.Machine

set_option Elab.async false

/-! ## The first of the best entries -/

/-- The best of the entries so far, and of one more. -/
def bestStep (good : IndexEntry → Bool) (key : IndexEntry → Nat) (better : Nat → Nat → Bool) :
    Option (Nat × Nat) → IndexEntry × Nat → Option (Nat × Nat)
  | none, (e, n) => if good e then some (n, key e) else none
  | some b, (e, n) => if good e = true ∧ better (key e) b.2 = true then some (n, key e) else some b

/-- The entry with the best key among the good ones, the lowest number between equal keys, with its key. -/
def bestOf (good : IndexEntry → Bool) (key : IndexEntry → Nat) (better : Nat → Nat → Bool) (index : List IndexEntry) : Option (Nat × Nat) :=
  index.zipIdx.foldl (bestStep good key better) none

/-- Entry n is good, and every good entry has a worse key, or the same key and no lower number. -/
def IsBest (good : IndexEntry → Bool) (key : IndexEntry → Nat) (better : Nat → Nat → Bool) (index : List IndexEntry) (n : Nat) : Prop :=
  good (index.getD n {}) = true
    ∧ ∀ k, good (index.getD k {}) = true →
        better (key (index.getD n {})) (key (index.getD k {})) = true ∨ (key (index.getD n {}) = key (index.getD k {}) ∧ n ≤ k)

/-- What the fold finds: nothing where no entry is good, and otherwise the best with its key. -/
def Found (good : IndexEntry → Bool) (key : IndexEntry → Nat) (better : Nat → Nat → Bool) (index : List IndexEntry) :
    Option (Nat × Nat) → Prop
  | none => ∀ k, good (index.getD k {}) = false
  | some (n, x) => IsBest good key better index n ∧ x = key (index.getD n {})

section
variable {good : IndexEntry → Bool} {key : IndexEntry → Nat} {better : Nat → Nat → Bool} {index : List IndexEntry} {n m : Nat}

theorem bestOf_append (e : IndexEntry) :
    bestOf good key better (index ++ [e]) = bestStep good key better (bestOf good key better index) (e, index.length) := by
  simp [bestOf, List.zipIdx_append, List.foldl_append]

theorem getD_append_lt {e : IndexEntry} (h : n < index.length) : (index ++ [e]).getD n {} = index.getD n {} := by
  simp [List.getD_eq_getElem?_getD, List.getElem?_append_left h]

theorem getD_append_self {e : IndexEntry} : (index ++ [e]).getD index.length {} = e := by
  simp [List.getD_eq_getElem?_getD]

/-- A good entry is one of the entries. -/
theorem lt_of_good (hd : good {} = false) (h : good (index.getD n {}) = true) : n < index.length := by
  by_contra hn
  rw [List.getD_eq_getElem?_getD, List.getElem?_eq_none (Nat.le_of_not_lt hn), Option.getD_none, hd] at h
  cases h

/-- An entry of a longer index is one of the shorter, or the last. -/
theorem good_append_cases {e : IndexEntry} (hd : good {} = false) (h : good ((index ++ [e]).getD n {}) = true) :
    (n < index.length ∧ (index ++ [e]).getD n {} = index.getD n {} ∧ good (index.getD n {}) = true)
      ∨ (n = index.length ∧ (index ++ [e]).getD n {} = e ∧ good e = true) := by
  rcases Nat.lt_or_ge n index.length with hn | hn
  · rw [getD_append_lt hn] at h
    exact .inl ⟨hn, getD_append_lt hn, h⟩
  · have : n = index.length := by
      have := lt_of_good hd h
      simp only [List.length_append, List.length_singleton] at this
      omega
    subst this
    rw [getD_append_self] at h
    exact .inr ⟨rfl, getD_append_self, h⟩

/-- An entry that is not good changes nothing. -/
theorem Found.pass {e : IndexEntry} (hd : good {} = false) (he : good e = false) {b : Option (Nat × Nat)}
    (h : Found good key better index b) : Found good key better (index ++ [e]) b := by
  have shorter {k : Nat} (hk : good ((index ++ [e]).getD k {}) = true) :
      (index ++ [e]).getD k {} = index.getD k {} ∧ good (index.getD k {}) = true := by
    rcases good_append_cases hd hk with ⟨-, h1, h2⟩ | ⟨-, -, h2⟩
    · exact ⟨h1, h2⟩
    · rw [he] at h2; cases h2
  cases b with
  | none =>
    intro k
    by_contra hk
    have := (shorter (Bool.not_eq_false _ ▸ hk)).2
    rw [h k] at this
    cases this
  | some b =>
    obtain ⟨⟨hg, hbest⟩, hx⟩ := h
    have hn := getD_append_lt (e := e) (lt_of_good hd hg)
    refine ⟨⟨hn ▸ hg, fun k hk => ?_⟩, hn ▸ hx⟩
    obtain ⟨h1, h2⟩ := shorter hk
    rw [hn, h1]
    exact hbest k h2

/-- A good entry that is better than all before it is the best. -/
theorem IsBest.last {e : IndexEntry} (hd : good {} = false) (he : good e = true)
    (hb : ∀ k, good (index.getD k {}) = true → better (key e) (key (index.getD k {})) = true) :
    IsBest good key better (index ++ [e]) index.length := by
  refine ⟨getD_append_self ▸ he, fun k hk => ?_⟩
  rw [getD_append_self]
  rcases good_append_cases hd hk with ⟨-, h1, h2⟩ | ⟨rfl, -, -⟩
  · exact .inl (h1 ▸ hb k h2)
  · exact .inr ⟨congrArg key getD_append_self.symm, le_rfl⟩

/-- The best stays the best before an entry that is not better. -/
theorem IsBest.append {e : IndexEntry} (hd : good {} = false) (h : IsBest good key better index n)
    (hb : better (key (index.getD n {})) (key e) = true ∨ key (index.getD n {}) = key e) :
    IsBest good key better (index ++ [e]) n := by
  have hl := lt_of_good hd h.1
  have hn := getD_append_lt (e := e) hl
  refine ⟨hn ▸ h.1, fun k hk => ?_⟩
  rw [hn]
  rcases good_append_cases hd hk with ⟨-, h1, h2⟩ | ⟨rfl, h1, -⟩ <;> rw [h1]
  · exact h.2 k h2
  · exact hb.imp_right fun h3 => ⟨h3, hl.le⟩

/-- The better keys are the smaller ones, or the greater ones: an order in which keys that are not equal are apart. -/
structure Ranks (better : Nat → Nat → Bool) : Prop where
  trans : ∀ a b c, better a b = true → better b c = true → better a c = true
  total : ∀ a b, better a b = false → better b a = true ∨ b = a
  apart : ∀ a b, better a b = true → better b a = false ∧ a ≠ b

theorem ranks_lt : Ranks fun a b => decide (a < b) := by
  constructor <;> intros <;> simp_all <;> omega

theorem ranks_gt : Ranks fun a b => decide (b < a) := by
  constructor <;> intros <;> simp_all <;> omega

theorem bestOf_found (r : Ranks better) (hd : good {} = false) (index : List IndexEntry) :
    Found good key better index (bestOf good key better index) := by
  induction index using List.reverseRecOn with
  | nil => simpa [bestOf, Found] using hd
  | append_singleton index e ih =>
    rw [bestOf_append]
    generalize bestOf good key better index = b at ih
    cases he : good e with
    | false =>
      have : bestStep good key better b (e, index.length) = b := by cases b <;> simp [bestStep, he]
      rw [this]
      exact ih.pass hd he
    | true =>
      cases b with
      | none =>
        simp only [bestStep, he, if_true]
        exact ⟨.last hd he fun k hk => absurd hk (ih k ▸ Bool.false_ne_true), by rw [getD_append_self]⟩
      | some b =>
        obtain ⟨n, x⟩ := b
        obtain ⟨hb, rfl⟩ := ih
        by_cases hw : better (key e) (key (index.getD n {})) = true
        · simp only [bestStep, he, hw, and_self, if_true]
          refine ⟨.last hd he fun k hk => ?_, by rw [getD_append_self]⟩
          rcases hb.2 k hk with h | ⟨h, -⟩
          · exact r.trans _ _ _ hw h
          · exact h ▸ hw
        · simp only [bestStep, he, hw]
          exact ⟨hb.append hd (r.total _ _ (Bool.not_eq_true _ ▸ hw)), by rw [getD_append_lt (lt_of_good hd hb.1)]⟩

theorem IsBest.unique (hb : ∀ a b, better a b = true → better b a = false ∧ a ≠ b) (h : IsBest good key better index n)
    (k : IsBest good key better index m) : n = m := by
  rcases h.2 m k.1 with h1 | ⟨h1, h2⟩ <;> rcases k.2 n h.1 with k1 | ⟨k1, k2⟩
  · rw [(hb _ _ h1).1] at k1; cases k1
  · exact absurd k1.symm (hb _ _ h1).2
  · exact absurd h1.symm (hb _ _ k1).2
  · exact Nat.le_antisymm h2 k2

theorem bestOf_some (r : Ranks better) (hd : good {} = false) {x : Nat} :
    bestOf good key better index = some (n, x) ↔ IsBest good key better index n ∧ x = key (index.getD n {}) := by
  have h := bestOf_found (key := key) r hd index
  constructor
  · intro e
    rwa [e] at h
  · rintro ⟨k, rfl⟩
    cases e : bestOf good key better index with
    | none =>
      rw [e] at h
      have := k.1
      rw [h n] at this
      cases this
    | some b =>
      obtain ⟨m, y⟩ := b
      rw [e] at h
      obtain ⟨h1, rfl⟩ := h
      rw [h1.unique r.apart k]

theorem bestOf_none (r : Ranks better) (hd : good {} = false) :
    bestOf good key better index = none ↔ ∀ k, good (index.getD k {}) = false := by
  have h := bestOf_found (key := key) r hd index
  constructor
  · intro e
    rwa [e] at h
  · intro k
    cases e : bestOf good key better index with
    | none => rfl
    | some b =>
      rw [e] at h
      have := h.1.1
      rw [k] at this
      cases this

end

/-! ## The lookup and the eviction -/

theorem bestEntry_eq (u : Setup) (sig : Signature) (index : List IndexEntry) :
    bestEntry u sig index =
      bestOf (fun e => decide (e.state ≠ .empty)) (fun e => signatureDistance u sig e.signature) (fun a b => decide (a < b)) index := by
  unfold bestEntry bestOf
  congr 1
  funext best (e, n)
  by_cases he : e.state = .empty <;> cases best <;> simp [bestStep, he]

theorem evictionChoice_eq (frame : Nat) (index : List IndexEntry) :
    evictionChoice frame index =
      (bestOf (fun e => decide (e.state = .valid)) (entryAge frame) (fun a b => decide (b < a)) index).map Prod.fst := by
  unfold evictionChoice bestOf
  refine (congrArg (Option.map Prod.snd) (List.foldl_hom (Option.map Prod.swap) (init := none) (l := index.zipIdx)
    (g₁ := bestStep (fun e => decide (e.state = .valid)) (entryAge frame) fun a b => decide (b < a)) fun best (e, n) => ?_)).trans ?_
  · by_cases he : e.state = .valid
    · cases best with
      | none => simp [bestStep, he]
      | some b => by_cases hb : b.2 < entryAge frame e <;> simp [bestStep, he, hb]
    · cases best <;> simp [bestStep, he]
  · rw [Option.map_map]
    rfl

theorem evictionChoice_some {frame : Nat} {index : List IndexEntry} {n : Nat} :
    evictionChoice frame index = some n ↔
      IsBest (fun e => decide (e.state = .valid)) (entryAge frame) (fun a b => decide (b < a)) index n := by
  rw [evictionChoice_eq, Option.map_eq_some_iff]
  constructor
  · rintro ⟨⟨m, x⟩, h, rfl⟩
    exact ((bestOf_some ranks_gt rfl).1 h).1
  · intro h
    exact ⟨(n, _), (bestOf_some ranks_gt rfl).2 ⟨h, rfl⟩, rfl⟩

/-- The entry that an eviction chooses is VALID (R36). -/
theorem evictionChoice_valid {frame : Nat} {index : List IndexEntry} {n : Nat} (h : evictionChoice frame index = some n) :
    (index.getD n {}).state = .valid := by
  simpa using (evictionChoice_some.1 h).1

theorem lookup_some {u : Setup} {sig : Signature} {index : List IndexEntry} {n d : Nat} :
    lookup u sig index = some (n, d) ↔
      IsBest (fun e => decide (e.state ≠ .empty)) (fun e => signatureDistance u sig e.signature) (fun a b => decide (a < b)) index n
        ∧ d = signatureDistance u sig (index.getD n {}).signature ∧ d ≤ u.tolerance := by
  unfold lookup
  rw [bestEntry_eq, Option.filter_eq_some_iff, bestOf_some ranks_lt rfl, decide_eq_true_eq, and_assoc]

theorem lookup_none {u : Setup} {sig : Signature} {index : List IndexEntry} :
    lookup u sig index = none ↔
      ∀ k, (index.getD k {}).state ≠ .empty → u.tolerance < signatureDistance u sig (index.getD k {}).signature := by
  constructor
  · intro h k hk
    cases hb : bestEntry u sig index with
    | none =>
      rw [bestEntry_eq, bestOf_none ranks_lt rfl] at hb
      exact absurd hk (by simpa using hb k)
    | some b =>
      obtain ⟨n, d⟩ := b
      unfold lookup at h
      rw [hb, Option.filter_eq_none_iff] at h
      have hd : u.tolerance < d := by simpa using h _ rfl
      rw [bestEntry_eq, bestOf_some ranks_lt rfl] at hb
      obtain ⟨hn, rfl⟩ := hb
      rcases hn.2 k (decide_eq_true hk) with h1 | ⟨h1, -⟩
      · exact hd.trans (of_decide_eq_true h1)
      · exact hd.trans_eq h1
  · intro h
    by_contra hl
    obtain ⟨⟨n, d⟩, hl⟩ := Option.ne_none_iff_exists'.1 hl
    obtain ⟨hn, rfl, ht⟩ := lookup_some.1 hl
    exact absurd (h n (of_decide_eq_true hn.1)) (Nat.not_lt.2 ht)

/-- The age of R36 as the difference of the frame numbers, which wrap at 32 bits. -/
theorem entryAge_eq (frame : Nat) (e : IndexEntry) : (entryAge frame e : Int) = ((frame : Int) - e.lastSeen) % 4294967296 := by
  unfold entryAge
  omega

/-! ## The codes of a signature (R28) -/

theorem codeOf_le {l : Levels} {m : Nat} (hm : m ≤ 255) : codeOf l m ≤ 3 := by
  unfold codeOf clampInt
  split
  · split <;> (try split) <;> omega
  · omega

theorem codeOf_valid {l : Levels} {m : Nat} (hv : l.valid = true) (hl : l.black ≤ l.white) :
    codeOf l m = min 3 (4 * (m - l.black) / (l.white - l.black + 1)) := by
  have hw : ((l.white : Int) - l.black + 1) = ((l.white - l.black + 1 : Nat) : Int) := by omega
  rw [codeOf, if_pos hv, hw]
  rcases Nat.lt_or_ge m l.black with hm | hm
  · have neg : (4 * ((m : Int) - l.black)) / ((l.white - l.black + 1 : Nat) : Int) < 0 :=
      Int.ediv_neg_of_neg_of_pos (by omega) (by omega)
    rw [clampInt, if_pos neg, Nat.sub_eq_zero_of_le hm.le]
    simp
  · have hq : (4 * ((m : Int) - l.black)) / ((l.white - l.black + 1 : Nat) : Int)
        = ((4 * (m - l.black) / (l.white - l.black + 1) : Nat) : Int) := by
      rw [Int.natCast_ediv]
      congr 1
      omega
    rw [hq]
    generalize 4 * (m - l.black) / (l.white - l.black + 1) = q
    unfold clampInt
    split <;> (try split) <;> omega

/-- The digits of a signature, two bits a tile. -/
def codeDigits (u : Setup) (means : List Nat) (l : Levels) : List Nat :=
  means.zipIdx.map fun (m, t) => if u.masked t then 0 else codeOf l m % 4

theorem codeDigits_lt {u : Setup} {means : List Nat} {l : Levels} : ∀ d ∈ codeDigits u means l, d < 4 := by
  intro d hd
  obtain ⟨⟨m, t⟩, -, rfl⟩ := List.mem_map.1 hd
  dsimp only
  split <;> omega

theorem ofDigits_toNat {n : Nat} {digits : List Nat} (hn : digits.length = n) (h : ∀ d ∈ digits, d < 4) :
    (BitVec.ofNat (2 * n) (Nat.ofDigits 4 digits)).toNat = Nat.ofDigits 4 digits := by
  rw [BitVec.toNat_ofNat, pow_mul]
  exact Nat.mod_eq_of_lt (hn ▸ Nat.ofDigits_lt_base_pow_length (by decide) h)

theorem signatureOf_toNat {u : Setup} {means : List Nat} {l : Levels} (h : means.length = 192) :
    (signatureOf u means l).toNat = Nat.ofDigits 4 (codeDigits u means l) := by
  rw [signatureOf, show means.zipIdx.foldr _ 0 = Nat.ofDigits 4 (codeDigits u means l) by
    rw [Nat.ofDigits_eq_foldr, codeDigits, List.foldr_map]; rfl]
  exact ofDigits_toNat (n := 192) (by simpa [codeDigits] using h) codeDigits_lt

theorem signatureOf_code {u : Setup} {means : List Nat} {l : Levels} {i : Nat} (h : means.length = 192) (hi : i < 192) :
    Signature.code (signatureOf u means l) i = if u.masked i then 0 else codeOf l (means.getD i 0) % 4 := by
  have hm : i < means.length := h ▸ hi
  rw [Signature.code, signatureOf_toNat h, Nat.ofDigits_div_pow_eq_ofDigits_drop i (by decide) _ codeDigits_lt]
  have hd : (codeDigits u means l).drop i
      = (if u.masked i then 0 else codeOf l (means.getD i 0) % 4) :: (codeDigits u means l).drop (i + 1) := by
    rw [List.drop_eq_getElem_cons (by simpa [codeDigits] using hm)]
    simp [codeDigits, List.getD_eq_getElem?_getD, hm]
  rw [hd, Nat.ofDigits_cons]
  split <;> simp [Nat.add_mul_mod_self_left]

theorem signatureDistance_eq (u : Setup) (a b : Signature) :
    signatureDistance u a b
      = ((List.range 192).filter fun i => !u.mask.getLsbD i && decide (Signature.code a i ≠ Signature.code b i)).length :=
  List.countP_eq_length_filter

end Sys2Proof.Machine
end

section

open Sys2Proof Sys2Proof.Machine

/-- Settles O34: the codes are the digits of the packed signature, and the folds of the lookup and of the eviction find the best entry. -/
theorem signaturesLookupsAndEvictions : Obligations.SignaturesLookupsAndEvictions := by
  refine ⟨fun u means l i hlen hmeans hl hi => ?_, fun u sig index frame => ⟨fun n d => ?_, ?_, fun n => ?_⟩⟩
  · have hm : means.getD i 0 ≤ 255 := by
      rw [List.getD_eq_getElem?_getD, List.getElem?_eq_getElem (hlen ▸ hi), Option.getD_some]
      exact hmeans _ (List.getElem_mem _)
    dsimp only
    rw [signatureOf_code hlen hi, Setup.masked]
    split
    · rfl
    · rw [Nat.mod_eq_of_lt (Nat.lt_succ_of_le (codeOf_le hm))]
      split
      · exact codeOf_valid ‹_› (hl ‹_›)
      · simp [codeOf, *]
  · rw [lookup_some, IsBest]
    simp only [decide_eq_true_eq, signatureDistance_eq]
    constructor
    · rintro ⟨⟨hn, hb⟩, rfl, ht⟩
      exact ⟨hn, rfl, ht, hb⟩
    · rintro ⟨hn, rfl, ht, hb⟩
      exact ⟨⟨hn, hb⟩, rfl, ht⟩
  · simp only [lookup_none, signatureDistance_eq]
  · rw [evictionChoice_some, IsBest]
    simp only [decide_eq_true_eq, ← entryAge_eq, Nat.cast_lt, Nat.cast_inj]
    constructor <;> rintro ⟨hn, h⟩ <;> exact ⟨hn, fun k hk => (h k hk).imp_right (And.imp_left Eq.symm)⟩

end

section
/-! SUPPORT. The page index of a state as one value with the lesson page counter and the capture context's entry, the moves that can change
it, and the two invariants of the page index, which every move keeps (R35, R37 to R39). -/

namespace Sys2Proof.Machine

set_option Elab.async false

/-! ## The page index of a state -/

/-- What the invariants of the page index speak of: the entries, the lesson page counter, and the state and the entry of the capture
context. -/
structure PageView where
  index : List IndexEntry
  counter : Nat
  state : ContextState
  entry : Option Nat

def State.pages (s : State) : PageView :=
  { index := s.monitor.index, counter := s.capture.counter, state := s.capture.context.state, entry := s.capture.context.entry }

namespace PageView

def entryAt (v : PageView) (n : Nat) : IndexEntry := v.index.getD n {}

/-- One entry is written. -/
def write (v : PageView) (n : Nat) (e : IndexEntry) : PageView := { v with index := v.index.set n e }

/-- The PROVISIONAL entry of the capture in hand is EMPTY again (R39). -/
def withdraw (v : PageView) : PageView :=
  match v.entry with
  | some n => v.write n { v.entryAt n with state := .empty }
  | none => v

/-- The capture context is IDLE and cleared (R121, R123). -/
def clear (v : PageView) : PageView := { v with state := .idle, entry := none }

/-- What a step can do to the page index, move by move. -/
inductive Move (v : PageView) : PageView → Prop
  /-- The capture in hand changes its state, but not to IDLE (R110). -/
  | context (st : ContextState) : st ≠ .idle → Move v { v with state := st }
  /-- A capture ends without its page (R39, R123). -/
  | miss : Move v v.withdraw.clear
  /-- A capture completes, and its entry is VALID (R38). -/
  | complete (n : Nat) (e : IndexEntry) : v.entry = some n → e.state = .valid → e.page = (v.entryAt n).page → Move v (v.write n e).clear
  /-- A page is seen (R30). -/
  | touch (n : Nat) (e : IndexEntry) : e.state = (v.entryAt n).state → e.page = (v.entryAt n).page → Move v (v.write n e)
  /-- A VALID entry is forgotten (R41). -/
  | forget (n : Nat) : (v.entryAt n).state = .valid → Move v (v.write n { v.entryAt n with state := .empty })
  /-- A decision is taken in IDLE: the next page number, and the PROVISIONAL entry (R37, R110). -/
  | decide (n : Nat) (e : IndexEntry) (st : ContextState) : v.state = .idle → n < v.index.length → e.state = .provisional →
      e.page = v.counter + 1 → st ≠ .idle →
      Move v { v.write n e with counter := v.counter + 1, state := st, entry := some n }
  /-- A SIGNATURE job raises the counter to its page (R40). -/
  | count (c : Nat) : v.counter ≤ c → Move v { v with counter := c }
  /-- A SIGNATURE job's page is inserted (R35, R40), in no place of a capture, and no other entry has that page. -/
  | insert (n : Nat) (e : IndexEntry) : (v.entryAt n).state ≠ .provisional → e.state = .valid → e.page ≤ v.counter →
      (∀ m, m ≠ n → (v.entryAt m).state ≠ .empty → (v.entryAt m).page ≠ e.page) → Move v (v.write n e)
  /-- A lesson begins in IDLE, over an empty index (R42, R105). -/
  | lesson : v.state = .idle →
      Move v { v with index := v.index.map fun e => { e with state := .empty }, counter := 0 }
  | reset : Move v State.reset.pages

/-- A PROVISIONAL entry is the entry of the capture in hand. -/
def ProvisionalOk (v : PageView) : Prop :=
  ∀ n, (v.entryAt n).state = .provisional → v.state ≠ .idle ∧ v.entry = some n

/-- What R35 says of the page numbers, and that the context names a PROVISIONAL entry. -/
structure PagesOk (v : PageView) : Prop where
  distinct : ∀ n m, n ≠ m → (v.entryAt n).state ≠ .empty → (v.entryAt m).state ≠ .empty → (v.entryAt n).page ≠ (v.entryAt m).page
  counted : ∀ n, (v.entryAt n).state ≠ .empty → (v.entryAt n).page ≤ v.counter
  named : ∀ n, v.entry = some n → (v.entryAt n).state = .provisional

variable {v w : PageView} {n m k : Nat} {e : IndexEntry}

/-! ## One entry written -/

theorem write_entryAt : (v.write n e).entryAt m = if n = m ∧ m < v.index.length then e else v.entryAt m := by
  simp only [write, entryAt, List.getD_eq_getElem?_getD, List.getElem?_set]
  by_cases hn : n = m
  · subst hn
    by_cases hm : n < v.index.length <;> simp [hm]
  · simp [hn]

theorem write_entryAt_self (h : n < v.index.length) : (v.write n e).entryAt n = e := by
  rw [write_entryAt, if_pos ⟨rfl, h⟩]

theorem write_entryAt_ne (h : m ≠ n) : (v.write n e).entryAt m = v.entryAt m := by
  rw [write_entryAt, if_neg fun k => h k.1.symm]

/-- An entry that is not EMPTY is one of the entries. -/
theorem lt_of_state (h : (v.entryAt n).state ≠ .empty) : n < v.index.length := by
  by_contra hn
  exact h (by simp [entryAt, List.getD_eq_getElem?_getD, List.getElem?_eq_none (Nat.le_of_not_lt hn)])

/-- An entry after one has been written is the one written, within the index, or as before. -/
theorem write_cases (p : IndexEntry → Prop) (h : p ((v.write n e).entryAt m)) :
    (n = m ∧ m < v.index.length ∧ p e) ∨ (¬ (n = m ∧ m < v.index.length) ∧ p (v.entryAt m)) := by
  rw [write_entryAt] at h
  split at h
  · rename_i k; exact .inl ⟨k.1, k.2, h⟩
  · exact .inr ⟨‹_›, h⟩

@[simp] theorem map_empty_entryAt :
    ({ v with index := v.index.map fun e => { e with state := .empty }, counter := 0 } : PageView).entryAt n
      = { v.entryAt n with state := .empty } := by
  simp only [entryAt, List.getD_eq_getElem?_getD, List.getElem?_map]
  cases v.index[n]? <;> rfl

/-! ## Writes that keep the page numbers apart -/

/-- A written entry that is EMPTY, or has the page that its place had, keeps the page numbers distinct and counted. -/
theorem PagesOk.rewrite (h : v.PagesOk) (he : e.state = .empty ∨ ((v.entryAt n).state ≠ .empty ∧ e.page = (v.entryAt n).page)) :
    (∀ i j, i ≠ j → ((v.write n e).entryAt i).state ≠ .empty → ((v.write n e).entryAt j).state ≠ .empty →
        ((v.write n e).entryAt i).page ≠ ((v.write n e).entryAt j).page)
      ∧ ∀ i, ((v.write n e).entryAt i).state ≠ .empty → ((v.write n e).entryAt i).page ≤ v.counter := by
  have old (i : Nat) (hi : ((v.write n e).entryAt i).state ≠ .empty) :
      (v.entryAt i).state ≠ .empty ∧ ((v.write n e).entryAt i).page = (v.entryAt i).page := by
    rw [write_entryAt] at hi ⊢
    split
    · rename_i k
      rw [if_pos k] at hi
      obtain ⟨rfl, -⟩ := k
      exact he.resolve_left hi
    · rename_i k
      rw [if_neg k] at hi
      exact ⟨hi, rfl⟩
  refine ⟨fun i j hij hi hj => ?_, fun i hi => ?_⟩
  · rw [(old i hi).2, (old j hj).2]
    exact h.distinct i j hij (old i hi).1 (old j hj).1
  · rw [(old i hi).2]
    exact h.counted i (old i hi).1

/-- A written entry whose page no other entry has keeps the page numbers distinct and counted. -/
theorem PagesOk.fresh (h : v.PagesOk) {c : Nat} (hc : v.counter ≤ c) (he : e.page ≤ c)
    (hp : ∀ i, i ≠ n → (v.entryAt i).state ≠ .empty → (v.entryAt i).page ≠ e.page) :
    (∀ i j, i ≠ j → ((v.write n e).entryAt i).state ≠ .empty → ((v.write n e).entryAt j).state ≠ .empty →
        ((v.write n e).entryAt i).page ≠ ((v.write n e).entryAt j).page)
      ∧ ∀ i, ((v.write n e).entryAt i).state ≠ .empty → ((v.write n e).entryAt i).page ≤ c := by
  have other {i : Nat} (k : i ≠ n) : (v.write n e).entryAt i = v.entryAt i := write_entryAt_ne k
  refine ⟨fun i j hij hi hj => ?_, fun i hi => ?_⟩
  · by_cases hin : i = n
    · subst hin
      rw [other (Ne.symm hij)] at hj ⊢
      rw [write_entryAt_self (by simpa [write] using lt_of_state hi)]
      exact (hp j (Ne.symm hij) hj).symm
    · rw [other hin] at hi ⊢
      by_cases hjn : j = n
      · subst hjn
        rw [write_entryAt_self (by simpa [write] using lt_of_state hj)]
        exact hp i hin hi
      · rw [other hjn] at hj ⊢
        exact h.distinct i j hij hi hj
  · by_cases hin : i = n
    · subst hin
      rw [write_entryAt_self (by simpa [write] using lt_of_state hi)]
      exact he
    · rw [other hin] at hi ⊢
      exact (h.counted i hi).trans hc

/-! ## The moves keep the invariants -/

/-- In IDLE no entry is PROVISIONAL, and the context names none (R39). -/
theorem PagesOk.idle_entry (h : v.PagesOk) (p : v.ProvisionalOk) (hs : v.state = .idle) : v.entry = none := by
  cases hn : v.entry with
  | none => rfl
  | some n => exact absurd hs (p n (h.named n hn)).1

/-- After a withdrawal no entry is PROVISIONAL. -/
theorem ProvisionalOk.withdraw (p : v.ProvisionalOk) (n : Nat) : (v.withdraw.entryAt n).state ≠ .provisional := by
  unfold PageView.withdraw
  intro h
  split at h
  · rename_i k hk
    rcases write_cases (fun e => e.state = .provisional) h with ⟨-, -, h⟩ | ⟨hn, h⟩
    · cases h
    · have hl := lt_of_state (v := v) (n := n) (by rw [h]; decide)
      have := (p n h).2
      rw [hk] at this
      exact hn ⟨Option.some.inj this, hl⟩
  · rename_i hk
    have := (p n h).2
    rw [hk] at this
    cases this

/-- Every move keeps a PROVISIONAL entry that of the capture in hand. -/
theorem Move.provisionalOk (hm : Move v w) (p : v.ProvisionalOk) : w.ProvisionalOk := by
  cases hm with
  | context st hst => exact fun n h => ⟨hst, (p n h).2⟩
  | miss => exact fun n h => absurd h (p.withdraw n)
  | complete k e hk he =>
    intro n h
    rcases write_cases (fun e => e.state = .provisional) h with ⟨-, -, h⟩ | ⟨hn, h⟩
    · rw [he] at h; cases h
    · have hl := lt_of_state (v := v) (n := n) (by rw [h]; decide)
      have := (p n h).2
      rw [hk] at this
      exact absurd ⟨Option.some.inj this, hl⟩ hn
  | touch k e he =>
    intro n h
    rcases write_cases (fun e => e.state = .provisional) h with ⟨rfl, -, h⟩ | ⟨-, h⟩
    · exact p _ (he.symm.trans h)
    · exact p n h
  | forget k =>
    intro n h
    rcases write_cases (fun e => e.state = .provisional) h with ⟨-, -, h⟩ | ⟨-, h⟩
    · cases h
    · exact p n h
  | decide k e st hs _ _ _ hst =>
    intro n h
    rcases write_cases (fun e => e.state = .provisional) h with ⟨rfl, -, -⟩ | ⟨-, h⟩
    · exact ⟨hst, rfl⟩
    · exact absurd hs (p n h).1
  | count => exact p
  | insert k e _ he =>
    intro n h
    rcases write_cases (fun e => e.state = .provisional) h with ⟨-, -, h⟩ | ⟨-, h⟩
    · rw [he] at h; cases h
    · exact p n h
  | lesson =>
    intro n h
    rw [map_empty_entryAt] at h
    cases h
  | reset => exact State.reset_provisionalOk

theorem reset_pagesOk : State.reset.pages.PagesOk :=
  ⟨State.reset_pagesOk.1, State.reset_pagesOk.2.1, State.reset_pagesOk.2.2⟩

theorem PagesOk.withdraw (h : v.PagesOk) : v.withdraw.clear.PagesOk := by
  unfold PageView.withdraw
  split
  · rename_i k hk
    obtain ⟨hd, hc⟩ := h.rewrite (n := k) (e := { v.entryAt k with state := .empty }) (.inl rfl)
    exact ⟨hd, hc, nofun⟩
  · exact ⟨h.distinct, h.counted, nofun⟩

/-- Every move keeps the page numbers distinct and counted. -/
theorem Move.pagesOk (hm : Move v w) (p : v.ProvisionalOk) (h : v.PagesOk) : w.PagesOk := by
  cases hm with
  | context => exact ⟨h.distinct, h.counted, h.named⟩
  | miss => exact h.withdraw
  | complete k e hk _ hp =>
    obtain ⟨hd, hc⟩ := h.rewrite (n := k) (e := e) (.inr ⟨by rw [h.named k hk]; decide, hp⟩)
    exact ⟨hd, hc, nofun⟩
  | touch k e he hp =>
    have same : e.state = .empty ∨ ((v.entryAt k).state ≠ .empty ∧ e.page = (v.entryAt k).page) := by
      by_cases hk : e.state = .empty
      · exact .inl hk
      · exact .inr ⟨he ▸ hk, hp⟩
    obtain ⟨hd, hc⟩ := h.rewrite same
    refine ⟨hd, hc, fun n hn => ?_⟩
    have hv := h.named n hn
    rw [write_entryAt]
    split
    · rename_i hkn
      rw [he, hkn.1, hv]
    · exact hv
  | forget k hk =>
    obtain ⟨hd, hc⟩ := h.rewrite (n := k) (e := { v.entryAt k with state := .empty }) (.inl rfl)
    refine ⟨hd, hc, fun n hn => ?_⟩
    have hv := h.named n hn
    rw [write_entryAt_ne fun e => by rw [e, hk] at hv; cases hv]
    exact hv
  | decide k e st _ hl he hp _ =>
    obtain ⟨hd, hc⟩ := h.fresh (n := k) (e := e) (Nat.le_succ _) hp.le fun i _ hi => by
      have := h.counted i hi
      omega
    refine ⟨hd, hc, fun n hn => ?_⟩
    cases hn
    exact (congrArg IndexEntry.state (write_entryAt_self hl)).trans he
  | count c hc => exact ⟨h.distinct, fun n hn => (h.counted n hn).trans hc, h.named⟩
  | insert k e hk _ hp hne =>
    obtain ⟨hd, hc⟩ := h.fresh (n := k) (e := e) le_rfl hp hne
    refine ⟨hd, hc, fun n hn => ?_⟩
    have hv := h.named n hn
    rw [write_entryAt_ne fun e => by rw [e] at hv; exact hk hv]
    exact hv
  | lesson hs =>
    have none (n : Nat) : ¬ (({ v with index := v.index.map fun e => { e with state := .empty }, counter := 0 } : PageView).entryAt n).state
        ≠ .empty := by rw [map_empty_entryAt]; simp
    refine ⟨fun i j _ hi => absurd hi (none i), fun i hi => absurd hi (none i), fun n hn => ?_⟩
    rw [show v.entry = Option.none from h.idle_entry p hs] at hn
    cases hn
  | reset => exact reset_pagesOk

/-- Moves keep both invariants. -/
theorem moves_keep (h : Relation.ReflTransGen Move v w) (p : v.ProvisionalOk) : w.ProvisionalOk ∧ (v.PagesOk → w.PagesOk) := by
  induction h with
  | refl => exact ⟨p, id⟩
  | tail _ m ih => exact ⟨m.provisionalOk ih.1, fun k => m.pagesOk ih.1 (ih.2 k)⟩

end PageView

theorem pagesOk_iff {s : State} : s.pagesOk ↔ s.pages.PagesOk :=
  ⟨fun ⟨h1, h2, h3⟩ => ⟨h1, h2, h3⟩, fun ⟨h1, h2, h3⟩ => ⟨h1, h2, h3⟩⟩

theorem provisionalOk_iff {s : State} : s.provisionalOk ↔ s.pages.ProvisionalOk := Iff.rfl

end Sys2Proof.Machine
end

section
/-! SUPPORT. What every operation keeps of the page index and of the arbiter's grant, the shared operations first: it changes the page index
by moves alone, and leaves a grant within its limit (R158). -/

namespace Sys2Proof.Machine

set_option Elab.async false

/-- The page index of t comes from that of s by moves, and the grant of t is within its limit if that of s is. -/
structure Paged (s t : State) : Prop where
  pages : Relation.ReflTransGen PageView.Move s.pages t.pages
  grant : s.grantOk → t.grantOk

variable {s t u : State} {a : List Piece}

theorem Paged.refl (s : State) : Paged s s := ⟨.refl, id⟩

theorem Paged.trans (h : Paged s t) (k : Paged t u) : Paged s u := ⟨h.pages.trans k.pages, k.grant ∘ h.grant⟩

/-- A change that neither the page index nor the grant speaks of. -/
theorem Paged.same (hp : t.pages = s.pages := by rfl) (hg : s.grantOk → t.grantOk := by exact id) : Paged s t :=
  ⟨hp ▸ .refl, hg⟩

theorem Paged.move (h : PageView.Move s.pages t.pages) (hg : s.grantOk → t.grantOk := by exact id) : Paged s t := ⟨.single h, hg⟩

/-- A change of no piece that carries the page index leaves it. -/
theorem Unchanged.pages (h : Unchanged a s t) (k : ∀ p ∈ [Piece.index, .lesson, .context], p ∉ a := by decide) : t.pages = s.pages := by
  have h1 := h .index (k _ (by simp))
  have h2 := h .lesson (k _ (by simp))
  have h3 := h .context (k _ (by simp))
  simp only [same] at h1 h2 h3
  simp [State.pages, h1, h2, h3]

/-- A change that leaves the arbiter leaves its grant within its limit. -/
theorem Unchanged.grant (h : Unchanged a s t) (k : Piece.arbiter ∉ a := by decide) : s.grantOk → t.grantOk := by
  have h1 := (h .arbiter k).1
  simp only [State.grantOk, h1]
  exact id

theorem Unchanged.paged (h : Unchanged a s t) (k : ∀ p ∈ [Piece.index, .lesson, .context], p ∉ a := by decide)
    (b : Piece.arbiter ∉ a := by decide) : Paged s t :=
  .same (h.pages k) (h.grant b)

/-! ## The grant (R158) -/

theorem State.grantOk_of_none (h : s.port.grant = none) : s.grantOk := by
  intro g hg
  rw [h] at hg
  cases hg

theorem State.makeGrant_grantOk (h : s.grantOk) : s.makeGrant.grantOk := by
  unfold State.makeGrant
  split
  · exact h
  · split
    · exact h
    · rintro g ⟨⟩
      exact ⟨Nat.zero_lt_succ 7, .inl rfl⟩

theorem State.endEmptyGrant_grantOk (h : s.grantOk) : s.endEmptyGrant.grantOk := by
  unfold State.endEmptyGrant
  split
  · split
    · exact h
    · exact State.grantOk_of_none rfl
  · exact h

theorem State.settle_grantOk (h : s.grantOk) : s.settle.grantOk := by
  unfold State.settle
  split
  · exact State.makeGrant_grantOk (State.endEmptyGrant_grantOk h)
  · exact h

theorem State.endGrantOf_grantOk (q : Requester) (h : s.grantOk) : (s.endGrantOf q).grantOk := by
  unfold State.endGrantOf
  split
  · split
    · exact State.grantOk_of_none rfl
    · exact h
  · exact h

theorem State.countBurst_grantOk (q : Requester) (h : s.grantOk) : (s.countBurst q).grantOk := by
  unfold State.countBurst
  split
  · exact h
  · rename_i g hg
    obtain ⟨-, hl⟩ := h g hg
    split
    · dsimp only
      split
      · rintro _ ⟨⟩
        exact ⟨‹_›, hl⟩
      · split
        · rintro _ ⟨⟩
          have := (h g hg).1
          exact ⟨by dsimp only; omega, .inr rfl⟩
        · exact State.grantOk_of_none rfl
    · exact h

/-! ## Sending -/

theorem State.hold_paged (s : State) (o : Output) : Paged s (s.hold o) := .same

theorem State.setCause_paged (s : State) (c : Cause) : Paged s (s.setCause c) := .same

theorem State.makeGrant_paged (s : State) : Paged s s.makeGrant := .same s.makeGrant_unchanged.pages State.makeGrant_grantOk

theorem State.settle_paged (s : State) : Paged s s.settle := .same s.settle_unchanged.pages State.settle_grantOk

theorem State.join_paged (s : State) (issuer actor : Block) (op : RecordOp) : Paged s (s.join issuer actor op) := by
  rcases s.join_is issuer actor op with ⟨-, -, e⟩ | ⟨-, blocks, -, e⟩ <;> rw [e]
  · exact (Paged.same : Paged s { s with port.queue := s.port.queue ++ [op] }).trans (State.makeGrant_paged _)
  · exact .same

theorem State.put_paged (s : State) (b : Block) (x : Sent) : Paged s (s.put b x) := by
  cases x with
  | op issuer op =>
    unfold State.put
    dsimp only
    split
    · exact s.hold_paged _
    · exact s.join_paged _ _ _
  | event => exact .same
  | cause => exact s.setCause_paged _
  | safe => exact .same

theorem State.emit_paged (s : State) (b : Block) (x : Sent) : Paged s (s.emit b x) := by
  unfold State.emit
  split
  · exact s.hold_paged _
  · exact s.put_paged b x

theorem State.emitAll_paged (l : List Output) (s : State) : Paged s (s.emitAll l) := by
  induction l generalizing s with
  | nil => exact .refl s
  | cons o l ih => exact (s.emit_paged _ _).trans (ih _)

theorem State.release_paged (s : State) : Paged s s.release :=
  (Paged.same : Paged s { s with port.later := [] }).trans (State.emitAll_paged _ _)

theorem State.issue_paged (s : State) (actor issuer : Block) (op : RecordOp) : Paged s (s.issue actor issuer op) := s.emit_paged _ _

theorem State.issueWrite_paged (s : State) (actor issuer : Block) (runs : List (Nat × List Byte)) :
    Paged s (s.issueWrite actor issuer runs) := s.issue_paged _ _ _

theorem State.liveField_paged (s : State) (actor : Block) (off size value : Nat) : Paged s (s.liveField actor off size value) :=
  s.issueWrite_paged _ _ _

theorem State.raise_paged (s : State) (o : Block) (k : EventKind) (n a b : Nat) : Paged s (s.raise o k n a b) := s.emit_paged _ _

/-! ## Live fields -/

theorem State.setChain_paged (s : State) (b : Bool) : Paged s (s.setChain b) := by
  unfold State.setChain
  split
  · exact .refl s
  · exact (Paged.same : Paged s { s with capture.running := b }).trans (State.liveField_paged _ _ _ _ _)

theorem State.setSuspended_paged (s : State) (b : Bool) : Paged s (s.setSuspended b) := by
  unfold State.setSuspended
  split
  · exact .refl s
  · exact (Paged.same : Paged s { s with intake.suspended := b }).trans (State.liveField_paged _ _ _ _ _)

theorem State.voidScan_paged (s : State) : Paged s s.voidScan := .same

theorem State.setDegraded_paged (s : State) (b : Bool) : Paged s (s.setDegraded b) := by
  have h : Paged s { s with feeder.degraded := b } := .same
  unfold State.setDegraded
  split
  · exact .refl s
  · split
    · exact (h.trans (State.voidScan_paged _)).trans (State.liveField_paged _ _ _ _ _)
    · exact h.trans (State.liveField_paged _ _ _ _ _)

/-- The context's state with its live field: the pins follow in each use. -/
theorem State.setContextState_paged (s : State) {c : ContextState} (hc : c ≠ .idle) : Paged s (s.setContextState c) := by
  unfold State.setContextState
  split
  · exact .refl s
  · exact (Paged.move (.context c hc) : Paged s { s with capture.context.state := c }).trans (State.liveField_paged _ _ _ _ _)

theorem State.setCredit_paged (s : State) (n : Nat) : Paged s (s.setCredit n) := by
  unfold State.setCredit
  split
  · exact .refl s
  · exact (Paged.same : Paged s { s with capture.credit := n }).trans (State.liveField_paged _ _ _ _ _)

theorem State.setInstability_paged (s : State) (n : Nat) : Paged s (s.setInstability n) := by
  unfold State.setInstability
  split
  · exact .refl s
  · exact (Paged.same : Paged s { s with intake.instability := n }).trans (State.liveField_paged _ _ _ _ _)

theorem State.setLost_paged (s : State) (n : Nat) : Paged s (s.setLost n) := by
  unfold State.setLost
  split
  · exact .refl s
  · exact (Paged.same : Paged s { s with post.lost := n }).trans (State.liveField_paged _ _ _ _ _)

theorem State.setPut_paged (s : State) (n : Nat) : Paged s (s.setPut n) := by
  unfold State.setPut
  split
  · exact .refl s
  · exact (Paged.same : Paged s { s with post.put := n }).trans (State.liveField_paged _ _ _ _ _)

theorem State.setGet_paged (s : State) (n : Nat) : Paged s (s.setGet n) := by
  unfold State.setGet
  split
  · exact .refl s
  · exact (Paged.same : Paged s { s with post.get := n }).trans (State.liveField_paged _ _ _ _ _)

/-! ## Events -/

theorem State.signalReady_paged (s : State) : Paged s s.signalReady :=
  (Paged.same : Paged s { s.stopTimer with post.unsignalled := 0 }).trans (State.emit_paged _ _ _)

theorem State.resolveHoldoff_paged (s : State) : Paged s s.resolveHoldoff := by
  unfold State.resolveHoldoff
  split
  · exact s.signalReady_paged
  · exact .refl s

theorem State.moderate_paged (s : State) : Paged s s.moderate := by
  unfold State.moderate
  split
  · exact s.signalReady_paged
  · split <;> exact .same

theorem State.writeEvent_paged (s : State) (k : EventKind) (n a b f : Nat) : Paged s (s.writeEvent k n a b f) := by
  unfold State.writeEvent
  refine Paged.trans ?_ (State.moderate_paged _)
  refine Paged.trans ?_ (State.liveField_paged _ _ _ _ _)
  exact (s.issueWrite_paged _ _ _).trans .same

theorem State.loseEvent_paged (s : State) : Paged s s.loseEvent := (s.setLost_paged _).trans (State.emit_paged _ _ _)

theorem State.takeEvent_paged (s : State) (k : EventKind) (n a b f : Nat) : Paged s (s.takeEvent k n a b f) := by
  unfold State.takeEvent
  simp only []
  refine s.resolveHoldoff_paged.trans ?_
  split
  · exact State.writeEvent_paged _ _ _ _ _ _
  · exact State.loseEvent_paged _

/-! ## Error-correcting code -/

theorem State.reportUncorrectable_paged (s : State) (q : Requester) (w : Nat) : Paged s (s.reportUncorrectable q w) :=
  (Paged.same : Paged s (State.setCause { s with port.uncorrectable := satInc Config.counterMax s.port.uncorrectable } _)).trans
    (State.raise_paged _ _ _ _ _ _)

theorem State.codeWord_paged (s : State) (q : Requester) (whole : Bool) (w : Nat) : Paged s (s.codeWord q whole w) := by
  unfold State.codeWord
  split
  · exact .same
  · split
    · exact s.reportUncorrectable_paged q w
    · split
      · exact .same
      · exact .refl s

theorem State.codeWords_paged (q : Requester) (lo hi w n : Nat) (s : State) : Paged s (s.codeWords q lo hi w n) := by
  induction n generalizing s w with
  | zero => exact .refl s
  | succ n ih => exact (s.codeWord_paged q _ w).trans (ih _ _)

theorem State.store_paged (s : State) (q : Requester) (addr : Nat) (bytes : List Byte) : Paged s (s.store q addr bytes) := by
  unfold State.store
  split
  · exact .refl s
  · exact (Paged.same : Paged s { s with mem := s.mem.writeBytes addr bytes }).trans (State.codeWords_paged _ _ _ _ _ _)

theorem State.storeRuns_paged (q : Requester) (runs : List (Nat × List Byte)) (s : State) : Paged s (s.storeRuns q runs) := by
  induction runs generalizing s with
  | nil => exact .refl s
  | cons r rest ih => exact (s.store_paged q r.1 r.2).trans (ih _)

theorem State.countCorrectable_paged (s : State) : Paged s s.countCorrectable := .same

theorem State.checkWords_paged (q : Requester) (w n : Nat) (s : State) : Paged s (s.checkWords q w n).1 := by
  induction n generalizing s w with
  | zero => exact .refl s
  | succ n ih =>
    unfold State.checkWords
    split
    · exact s.reportUncorrectable_paged q w
    · split
      · exact s.countCorrectable_paged.trans (ih _ _)
      · exact ih _ _

theorem State.load_paged (s : State) (q : Requester) (addr n : Nat) : Paged s (s.load q addr n).1 := by
  have h := State.checkWords_paged q (addr / 4) ((addr + n + 3) / 4 - addr / 4) s
  unfold State.load
  split <;> simp_all

/-! ## Job entries, and the engine's taking of work -/

theorem State.scanFrom_paged (s : State) (sc : Scan) (n : Nat) : Paged s (s.scanFrom sc n) := by
  unfold State.scanFrom
  split
  · exact (Paged.same : Paged s { s with jobs.scan := _ }).trans (State.issue_paged _ _ _ _)
  · exact .same

theorem State.startUnit_paged (s : State) (w : Work) (ps : List Part) : Paged s (s.startUnit w ps) :=
  (s.setUnit_unchanged _).paged.trans (State.makeGrant_paged _)

theorem State.takeWork_paged (s : State) : Paged s s.takeWork := by
  rcases s.takeWork_is with h | ⟨w, ps, h⟩ | ⟨w, ps, h⟩ | ⟨j, w, ps, -, h⟩ | ⟨_, h⟩ <;> rw [h]
  · exact .refl s
  · exact s.startUnit_paged w ps
  · exact (Paged.same : Paged s { s with capture.context.next := s.capture.context.next + 1 }).trans (State.startUnit_paged _ _ _)
  · exact (Paged.same : Paged s { s with jobs.running := some { j with next := j.next + 1 } }).trans (State.startUnit_paged _ _ _)
  · exact s.scanFrom_paged _ _

theorem State.dropUnit_paged (s : State) : Paged s s.dropUnit := .same s.dropUnit_unchanged.pages fun h =>
  State.makeGrant_grantOk (s := { s.endGrantOf .engine with engine.unit := none, port.pass.engine := 0 })
    (State.endGrantOf_grantOk .engine h)

theorem State.close_paged (s0 s : State) : Paged s (s0.close s) :=
  (Paged.same : Paged s { s with post.raised := unlinkAt s0.post.raised.length s.post.raised }).trans (State.settle_paged _)

theorem State.closeWork_paged (s0 s : State) : Paged s (s0.closeWork s) := s.takeWork_paged.trans (s0.close_paged _)

/-! ## The record queue -/

theorem State.writeOutcome_paged (s : State) (n : Nat) (e : JobEntry) : Paged s (s.writeOutcome n e) :=
  (s.setJobEntry_unchanged n e).paged.trans (State.issueWrite_paged _ _ _ _)

theorem State.writePieces_paged (s : State) (n d : Nat) : Paged s (s.writePieces n d) :=
  (s.setJobEntry_unchanged n _).paged.trans (State.issueWrite_paged _ _ _ _)

theorem State.endEntry_paged (s : State) (n : Nat) (st : JobState) (r : Nat) : Paged s (s.endEntry n st r) :=
  (s.writeOutcome_paged n _).trans (State.raise_paged _ _ _ _ _ _)

theorem State.popRecord_paged (s : State) : Paged s s.popRecord := .same

theorem State.setHead_paged (s : State) (op : RecordOp) : Paged s (s.setHead op) := .same

theorem State.scanRead_paged (s : State) (n : Nat) (r : ReadState) : Paged s (s.scanRead n r) := by
  unfold State.scanRead
  split
  · exact .refl s
  · split
    · exact s.scanFrom_paged _ _
    · split
      · exact (s.endEntry_paged _ _ _).trans (State.scanFrom_paged _ _ _)
      · exact s.scanFrom_paged _ _

theorem State.deliver_paged (s : State) (q : Reader) (r : ReadState) : Paged s (s.deliver q r) := by
  cases q with
  | job n => exact s.scanRead_paged n r
  | _ => exact .same

theorem State.recordReadBurst_paged (s : State) (q : Reader) (addr : Nat) (got : List Byte) : Paged s (s.recordReadBurst q addr got) := by
  have h := s.load_paged .record (addr + got.length) (min (64 - (addr + got.length) % 64) (readLength q got - got.length))
  unfold State.recordReadBurst
  simp only []
  split <;> rename_i e <;> rw [e] at h
  · exact (h.trans (State.popRecord_paged _)).trans (State.deliver_paged _ _ _)
  · split
    · exact (h.trans (State.popRecord_paged _)).trans (State.deliver_paged _ _ _)
    · exact h.trans (State.setHead_paged _ _)

theorem State.recordBurst_paged (s : State) : Paged s s.recordBurst := by
  unfold State.recordBurst
  split
  · exact .refl s
  · exact s.popRecord_paged
  · exact (s.store_paged _ _ _).trans (State.popRecord_paged _)
  · exact (s.store_paged _ _ _).trans (State.setHead_paged _ _)
  · exact s.recordReadBurst_paged _ _ _

/-! ## Modes, the admission of what waits, and the performing of the queue -/

theorem State.enterMode_paged (s : State) (m : Mode) : Paged s (s.enterMode m) := by
  unfold State.enterMode
  exact (Paged.same : Paged s { s with control := _ }).trans (State.liveField_paged _ _ _ _ _)

theorem State.changeMode_paged (s : State) (m : Mode) (cause : Nat) : Paged s (s.changeMode m cause) :=
  (s.enterMode_paged m).trans (State.raise_paged _ _ _ _ _ _)

theorem State.shutdownTest_paged (s : State) : Paged s s.shutdownTest := by
  unfold State.shutdownTest
  split
  · exact (s.changeMode_paged _ _).trans (State.raise_paged _ _ _ _ _ _)
  · exact .refl s

theorem State.admitBlocked_paged (s : State) : Paged s s.admitBlocked := by
  unfold State.admitBlocked
  split
  · exact .refl s
  · rename_i w rest _
    split
    · exact (((Paged.same : Paged s { s with port.queue := s.port.queue ++ [w.op], port.blocked := rest }).trans
        (State.makeGrant_paged _)).trans (State.release_paged _)).trans (State.shutdownTest_paged _)
    · exact .refl s

theorem State.drainUntil_paged (enough : State → Bool) (n : Nat) (s : State) : Paged s (State.drainUntil enough n s) := by
  induction n generalizing s with
  | zero => exact .refl s
  | succ n ih =>
    unfold State.drainUntil
    split
    · exact .refl s
    · exact (s.admitBlocked_paged.trans (State.recordBurst_paged _)).trans (ih _)

theorem State.drain_paged (s : State) (enough : State → Bool) : Paged s (s.drain enough) :=
  (State.drainUntil_paged _ _ _).trans (State.settle_paged _)

/-! ## Post words -/

theorem State.stopReaction_paged (s : State) : Paged s s.stopReaction := .same

theorem State.wordTaken_paged (s : State) (rest : List Word) : Paged s (s.wordTaken rest) := by
  have k : Paged s { s with post.fifo := rest } := .same
  unfold State.wordTaken
  simp only []
  split
  · exact k.trans (State.stopReaction_paged _)
  · exact k

end Sys2Proof.Machine
end

section
/-! SUPPORT. What the capture unit's and the job runner's operations keep of the page index and of the grant: each end of a capture, each
decision and each insertion is one of the moves of the page index. -/

namespace Sys2Proof.Machine

set_option Elab.async false

variable {s t u : State} {a : List Piece}

/-! ## The page index of a state after an operation -/

namespace PageView

variable {v w : PageView}

theorem withdraw_context (st : ContextState) : ({ v with state := st } : PageView).withdraw.clear = v.withdraw.clear := by
  unfold withdraw
  cases h : v.entry <;> simp [h, write, entryAt, clear]

/-- The capture in hand waits, or renders; or it has been missed. -/
def Goes (v w : PageView) : Prop := (∃ st, st ≠ .idle ∧ w = { v with state := st }) ∨ w = v.withdraw.clear

theorem Goes.moves (h : Goes v w) : Relation.ReflTransGen Move v w := by
  obtain ⟨st, hst, rfl⟩ | rfl := h
  · exact .single (.context st hst)
  · exact .single .miss

/-- What comes after a change of the capture's state comes after the state before it. -/
theorem Goes.of_context {st : ContextState} (h : Goes { v with state := st } w) : Goes v w := by
  obtain ⟨st', hst, rfl⟩ | rfl := h
  · exact .inl ⟨st', hst, rfl⟩
  · exact .inr (withdraw_context st)

/-- A decision's page number and PROVISIONAL entry, and how its capture goes on, are a move or two. -/
theorem Goes.decided {n : Nat} {e : IndexEntry} (hs : v.state = .idle) (hn : n < v.index.length) (he : e.state = .provisional)
    (hp : e.page = v.counter + 1)
    (h : Goes { v.write n e with counter := v.counter + 1, entry := some n } w) : Relation.ReflTransGen Move v w := by
  obtain ⟨st, hst, rfl⟩ | rfl := h
  · exact .single (.decide n e st hs hn he hp hst)
  · refine .tail (.single (.decide n e .waitingSlot hs hn he hp (by decide))) ?_
    rw [← withdraw_context .waitingSlot]
    exact .miss

end PageView

theorem Paged.goes (h : PageView.Goes s.pages t.pages) (hg : s.grantOk → t.grantOk) : Paged s t := ⟨h.moves, hg⟩

/-! ## Entries -/

theorem State.setEntry_pages (s : State) (n : Nat) (e : IndexEntry) : (s.setEntry n e).pages = s.pages.write n e := rfl

theorem State.writeEntry_pages (s : State) (b : Block) (n : Nat) (e : IndexEntry) : (s.writeEntry b n e).pages = s.pages.write n e :=
  (State.issueWrite_unchanged (s.setEntry n e) _ _ _).pages

theorem State.setEntryState_pages (s : State) (b : Block) (n : Nat) (x : EntryState) :
    (s.setEntryState b n x).pages = s.pages.write n { s.pages.entryAt n with state := x } :=
  (State.issueWrite_unchanged (s.setEntry n _) _ _ _).pages

theorem State.writeEntry_grantOk (s : State) (b : Block) (n : Nat) (e : IndexEntry) : s.grantOk → (s.writeEntry b n e).grantOk :=
  (State.issueWrite_paged (s.setEntry n e) _ _ _).grant

theorem State.setEntryState_grantOk (s : State) (b : Block) (n : Nat) (x : EntryState) : s.grantOk → (s.setEntryState b n x).grantOk :=
  (State.issueWrite_paged (s.setEntry n _) _ _ _).grant

theorem State.setCounter_pages (s : State) (n : Nat) : (s.setCounter n).pages = { s.pages with counter := n } := by
  unfold State.setCounter
  split
  · rename_i h; rw [← h]; rfl
  · exact (State.liveField_unchanged { s with capture.counter := n } _ _ _ _).pages

theorem State.setCounter_grantOk (s : State) (n : Nat) : s.grantOk → (s.setCounter n).grantOk := by
  unfold State.setCounter
  split
  · exact id
  · exact (State.liveField_paged { s with capture.counter := n } _ _ _ _).grant

theorem State.setLesson_paged (s : State) (b : Bool) : Paged s (s.setLesson b) := by
  unfold State.setLesson
  split
  · exact .refl s
  · exact (Paged.same : Paged s { s with capture.lessonOpen := b }).trans (State.liveField_paged _ _ _ _ _)

/-- An insertion takes an EMPTY place, or a VALID entry's (R35, R36). -/
theorem State.insertEntry_some {b : Block} {e : IndexEntry} {n : Nat} (h : s.insertEntry b e = some (t, n)) :
    n < s.monitor.index.length ∧ ((s.monitor.entry n).state = .empty ∨ (s.monitor.entry n).state = .valid)
      ∧ t.pages = s.pages.write n e ∧ (s.grantOk → t.grantOk) := by
  unfold State.insertEntry at h
  split at h
  · rename_i k hk
    cases h
    obtain ⟨hl, hs, -⟩ := List.findIdx?_eq_some_iff_getElem.1 hk
    refine ⟨hl, .inl ?_, s.writeEntry_pages _ _ _, s.writeEntry_grantOk _ _ _⟩
    rw [Monitor.entry, List.getD_eq_getElem?_getD, List.getElem?_eq_getElem hl]
    exact of_decide_eq_true hs
  · split at h
    · rename_i k hk
      cases h
      have hv := evictionChoice_valid hk
      refine ⟨PageView.lt_of_state (v := s.pages) (n := n) ?_, .inr hv, ?_, fun g => ?_⟩
      · exact fun c => by cases hv.symm.trans c
      · exact (State.raise_unchanged _ _ _ _ _ _).pages.trans (s.writeEntry_pages _ _ _)
      · exact (State.raise_paged _ _ _ _ _ _).grant (s.writeEntry_grantOk _ _ _ g)
    · cases h

/-! ## The end of a capture -/

theorem State.abandonRead_paged (s : State) : Paged s s.abandonRead := .same

theorem State.setContextState_pages (s : State) (c : ContextState) : (s.setContextState c).pages = { s.pages with state := c } := by
  unfold State.setContextState
  split
  · rename_i h; rw [← h]; rfl
  · exact (State.liveField_unchanged _ _ _ _ _).pages

theorem State.setContextState_grantOk (s : State) (c : ContextState) : s.grantOk → (s.setContextState c).grantOk := by
  unfold State.setContextState
  split
  · exact id
  · exact (State.liveField_paged { s with capture.context.state := c } _ _ _ _).grant

theorem State.clearContext_pages (s : State) : s.clearContext.pages = s.pages.clear := by
  simp [State.clearContext, State.pages, PageView.clear, State.stopCount, State.abandonRead]

theorem State.clearContext_grantOk (s : State) : s.grantOk → s.clearContext.grantOk := s.setContextState_grantOk .idle

theorem State.withdraw_pages (s : State) : s.withdraw.pages = s.pages.withdraw := by
  unfold State.withdraw PageView.withdraw
  have : s.pages.entry = s.capture.context.entry := rfl
  cases h : s.capture.context.entry <;> rw [h] at this <;> simp only [this]
  exact s.setEntryState_pages _ _ _

theorem State.withdraw_grantOk (s : State) (h : s.grantOk) : s.withdraw.grantOk := by
  unfold State.withdraw
  split
  · exact s.setEntryState_grantOk _ _ _ h
  · exact h

theorem State.missCapture_pages (s : State) (r : Nat) : (s.missCapture r).pages = s.pages.withdraw.clear := by
  unfold State.missCapture
  simp only []
  rw [(State.raise_unchanged _ _ _ _ _ _).pages, State.clearContext_pages, State.withdraw_pages, s.dropCapturePin_unchanged.pages]

theorem State.missCapture_grantOk (s : State) (r : Nat) (h : s.grantOk) : (s.missCapture r).grantOk :=
  (State.raise_paged _ _ _ _ _ _).grant (State.clearContext_grantOk _ (State.withdraw_grantOk _ (s.dropCapturePin_unchanged.grant (by decide) h)))

theorem State.missCapture_paged (s : State) (r : Nat) : Paged s (s.missCapture r) :=
  .move (s.missCapture_pages r ▸ .miss) (s.missCapture_grantOk r)

theorem State.missDecision_paged (s : State) (r : Nat) (k : Reason) : Paged s (s.missDecision r k) := s.raise_paged _ _ _ _ _

theorem State.chainFault_pages (s : State) (k : Nat) : (s.chainFault k).pages = s.pages.withdraw.clear := by
  unfold State.chainFault
  rw [State.missCapture_pages, (s.stopChain_unchanged k).pages]

theorem State.chainFault_paged (s : State) (k : Nat) : Paged s (s.chainFault k) :=
  (((s.setCredit_paged _).trans (State.setChain_paged _ _)).trans (State.raise_paged _ _ _ _ _ _)).trans (State.missCapture_paged _ _)

/-! ## The pin of a capture, and what follows it -/

theorem State.readHead_pages (s : State) : s.readHead.pages = s.pages ∨ s.readHead.pages = s.pages.withdraw.clear := by
  unfold State.readHead
  split
  · exact .inr (s.chainFault_pages _)
  · exact .inl (State.issue_unchanged { s with capture.read := .waiting } _ _ _).pages

theorem State.readHead_paged (s : State) : Paged s s.readHead := by
  unfold State.readHead
  split
  · exact s.chainFault_paged _
  · exact (Paged.same : Paged s { s with capture.read := .waiting }).trans (State.issue_paged _ _ _ _)

/-- After the check of chain and credit the capture waits for a slot, or has been missed (R113). -/
theorem State.checkChain_goes (s : State) : PageView.Goes s.pages s.checkChain.pages := by
  have h := s.setContextState_pages .waitingSlot
  have waits : PageView.Goes s.pages { s.pages with state := .waitingSlot } := .inl ⟨_, by decide, rfl⟩
  have missed : PageView.Goes s.pages (s.setContextState .waitingSlot).pages.withdraw.clear :=
    .inr (h ▸ PageView.withdraw_context .waitingSlot)
  unfold State.checkChain
  simp only []
  split
  · exact State.missCapture_pages _ _ ▸ missed
  · split
    · exact h ▸ waits
    · rcases State.readHead_pages (s.setContextState .waitingSlot) with e | e <;> rw [e]
      · exact h ▸ waits
      · exact missed

theorem State.checkChain_paged (s : State) : Paged s s.checkChain := by
  have h := s.setContextState_paged (c := .waitingSlot) (by decide)
  unfold State.checkChain
  simp only []
  refine h.trans ?_
  split
  · exact State.missCapture_paged _ _
  · split
    · exact .same
    · exact State.readHead_paged _

theorem State.capturePinned_goes (s : State) (n : Nat) : PageView.Goes s.pages (s.capturePinned n).pages := State.checkChain_goes _

theorem State.capturePinned_paged (s : State) (n : Nat) : Paged s (s.capturePinned n) := by
  unfold State.capturePinned
  exact ((s.givePin_unchanged n .capture).paged.trans .same).trans (State.checkChain_paged _)

theorem State.requestCapturePin_goes (s : State) : PageView.Goes s.pages s.requestCapturePin.pages := by
  have waits : PageView.Goes s.pages (s.setContextState .waitingPin).pages := .inl ⟨_, by decide, s.setContextState_pages _⟩
  unfold State.requestCapturePin
  split
  · split
    · exact s.capturePinned_goes _
    · exact waits
  · exact waits

theorem State.requestCapturePin_paged (s : State) : Paged s s.requestCapturePin := by
  have waits : Paged s (s.setContextState .waitingPin) := s.setContextState_paged (by decide)
  unfold State.requestCapturePin
  split
  · split
    · exact s.capturePinned_paged _
    · exact waits
  · exact waits

theorem State.releasePin_paged (s : State) (n : Nat) (o : PinOwner) : Paged s (s.releasePin n o) := by
  have h := (s.dropPin_unchanged n o).paged
  unfold State.releasePin
  simp only []
  split
  · split
    · exact h.trans (State.capturePinned_paged _ _)
    · exact h
  · exact h

/-- A decision's page number, PROVISIONAL entry and context (R37, R110), and the request for its pin. -/
theorem State.decided_paged {e : IndexEntry} {n : Nat} {c : Context} (hs : s.capture.context.state = .idle)
    (h : (s.setCounter (s.capture.counter + 1)).insertEntry .capture e = some (t, n)) (he : e.state = .provisional)
    (hp : e.page = s.capture.counter + 1) (hc : c.state = .idle ∧ c.entry = some n) :
    Paged s (State.requestCapturePin { t with capture.context := c }) := by
  obtain ⟨hl, -, ht, hg⟩ := State.insertEntry_some h
  rw [State.setCounter_pages] at ht
  have taken : State.pages { t with capture.context := c }
      = { s.pages.write n e with counter := s.pages.counter + 1, entry := some n } := by
    rw [show State.pages { t with capture.context := c } = PageView.mk t.pages.index t.pages.counter c.state c.entry from rfl, ht,
      hc.1, hc.2, ← hs]
    rfl
  refine ⟨?_, fun k => (State.requestCapturePin_paged _).grant (hg (s.setCounter_grantOk _ k))⟩
  exact PageView.Goes.decided hs (show n < s.monitor.index.length by simpa using hl) he hp (taken ▸ State.requestCapturePin_goes _)

theorem State.fillContext_paged (s : State) (k : Reason) (f : Nat) (g : Signature) (l : Levels) (hs : s.capture.context.state = .idle) :
    Paged s (s.fillContext k f g l) := by
  unfold State.fillContext
  simp only []
  split
  · exact .refl s
  · exact State.decided_paged hs ‹_› rfl rfl ⟨rfl, rfl⟩

theorem State.takeDecision_paged (s : State) (k : Reason) (f : Nat) (g : Signature) (l : Levels) :
    Paged s (s.takeDecision k f g l) := by
  unfold State.takeDecision
  split
  · exact s.missDecision_paged _ _
  · split
    · exact s.missDecision_paged _ _
    · exact s.fillContext_paged k f g l (not_not.1 ‹_›)

/-! ## Descriptors, and the ends of a capture -/

theorem State.returnDescriptor_pages (s : State) (d : Descriptor) (st : Nat) (x : Option (Nat × Nat)) (g : Geometry) (w : Nat) :
    (s.returnDescriptor d st x g w).pages = s.pages := by
  unfold State.returnDescriptor
  refine (rfl : _ = State.pages (State.setCredit _ _)).trans ?_
  rw [(State.setCredit_unchanged _ _).pages, (State.issueWrite_unchanged _ _ _ _).pages]

theorem State.returnDescriptor_paged (s : State) (d : Descriptor) (st : Nat) (x : Option (Nat × Nat)) (g : Geometry) (w : Nat) :
    Paged s (s.returnDescriptor d st x g w) :=
  .same (s.returnDescriptor_pages d st x g w) fun h => (State.setCredit_paged _ _).grant ((State.issueWrite_paged _ _ _ _).grant h)

theorem State.enterRendering_paged (s : State) (d : Descriptor) : Paged s (s.enterRendering d) :=
  (Paged.same : Paged s { s with capture.context := { s.capture.context with descriptor := _, render := _, next := 0, done := 0 } }).trans
    (State.setContextState_paged _ (by decide))

theorem State.rejectDescriptor_paged (s : State) (d : Descriptor) : Paged s (s.rejectDescriptor d) :=
  ((s.returnDescriptor_paged _ _ _ _ _).trans (State.raise_paged _ _ _ _ _ _)).trans (State.checkChain_paged _)

theorem State.descriptorRead_paged (s : State) (bytes : List Byte) : Paged s (s.descriptorRead bytes) := by
  unfold State.descriptorRead
  simp only []
  split
  · exact s.chainFault_paged _
  · split
    · exact s.rejectDescriptor_paged _
    · split
      · exact s.chainFault_paged _
      · exact s.enterRendering_paged _

/-- What the end of a capture changes of the page index after its entry has been written. -/
theorem State.endCapture_pages (s : State) (d : Descriptor) (st : Nat) (x : Option (Nat × Nat)) (g : Geometry) (w : Nat) (k : EventKind)
    (n a b : Nat) :
    (((s.returnDescriptor d st x g w).raise .capture k n a b).dropCapturePin.clearContext).pages = s.pages.clear := by
  rw [State.clearContext_pages, (State.dropCapturePin_unchanged _).pages, (State.raise_unchanged _ _ _ _ _ _).pages,
    State.returnDescriptor_pages]

theorem State.endCapture_grantOk (s : State) (d : Descriptor) (st : Nat) (x : Option (Nat × Nat)) (g : Geometry) (w : Nat) (k : EventKind)
    (n a b : Nat) (h : s.grantOk) :
    (((s.returnDescriptor d st x g w).raise .capture k n a b).dropCapturePin.clearContext).grantOk :=
  State.clearContext_grantOk _ ((State.dropCapturePin_unchanged _).grant (by decide)
    ((State.raise_paged _ _ _ _ _ _).grant ((s.returnDescriptor_paged d st x g w).grant h)))

theorem State.completeCapture_paged (s : State) (d : Descriptor) {n : Nat} (hn : s.capture.context.entry = some n) :
    Paged s (s.completeCapture d n) := by
  unfold State.completeCapture
  simp only []
  refine .move ?_ fun h => State.endCapture_grantOk _ _ _ _ _ _ _ _ _ _ ((State.issueWrite_paged (s.setEntry n _) _ _ _).grant h)
  rw [State.endCapture_pages, (State.issueWrite_unchanged (s.setEntry n _) _ _ _).pages]
  exact .complete n _ hn rfl rfl

theorem State.failCapture_paged (s : State) (d : Descriptor) (n : Nat) : Paged s (s.failCapture d n) := by
  unfold State.failCapture
  simp only []
  refine .move ?_ fun h => State.endCapture_grantOk _ _ _ _ _ _ _ _ _ _ (s.withdraw_grantOk h)
  rw [State.endCapture_pages, State.withdraw_pages]
  exact .miss

theorem State.capturePieceDone_paged (s : State) : Paged s s.capturePieceDone := by
  have h : Paged s { s with capture.context.done := s.capture.context.done + 1 } := .same
  unfold State.capturePieceDone
  simp only []
  split
  · split
    · exact h
    · exact h.trans (State.completeCapture_paged _ _ ‹_›)
  · exact .refl s

theorem State.capturePieceFaulted_paged (s : State) : Paged s s.capturePieceFaulted := by
  unfold State.capturePieceFaulted
  split
  · exact s.failCapture_paged _ _
  · exact .refl s

theorem State.missWaiting_paged (s : State) (r : Nat) : Paged s (s.missWaiting r) := by
  unfold State.missWaiting
  split
  · exact s.missCapture_paged r
  · exact .refl s

theorem State.captureEntry_paged (s : State) (m : Mode) : Paged s (s.captureEntry m) := by
  have h : Paged s { s with capture.view := m } := .same
  unfold State.captureEntry
  simp only []
  split
  · exact h.trans ((Paged.same : Paged _ (State.markStandby _)).trans (State.missWaiting_paged _ _))
  · exact h.trans ((Paged.same : Paged _ (State.markShutting _)).trans (State.missWaiting_paged _ _))
  · exact h

theorem State.resumeCapture_paged (s : State) : Paged s s.resumeCapture := by
  unfold State.resumeCapture
  split
  · exact s.abandonRead_paged.trans (State.checkChain_paged _)
  · exact .refl s

theorem State.restartChain_paged (s : State) (head : Nat) : Paged s (s.restartChain head) :=
  ((Paged.same : Paged s { s with capture.head := head }).trans (State.setChain_paged _ _)).trans (State.setCredit_paged _ _)

/-- A lesson begins in IDLE over an empty index (R105). -/
theorem State.beginLesson_paged (s : State) (hs : s.capture.context.state = .idle) : Paged s (s.setCounter 0).emptyIndex := by
  have grant : s.grantOk → (s.setCounter 0).emptyIndex.grantOk := fun h => by
    have h := s.setCounter_grantOk 0 h
    unfold State.emptyIndex
    simp only []
    split
    · exact h
    · exact (State.issueWrite_paged { s.setCounter 0 with monitor.index := _ } _ _ _).grant h
  have pages : (s.setCounter 0).emptyIndex.pages
      = { s.pages with index := s.pages.index.map fun e => { e with state := .empty }, counter := 0 } := by
    have h := s.setCounter_pages 0
    generalize s.setCounter 0 = x at h
    have e : (x.emptyIndex).pages = { x.pages with index := x.pages.index.map fun e => { e with state := .empty } } := by
      unfold State.emptyIndex
      simp only []
      split
      · rfl
      · exact (State.issueWrite_unchanged _ _ _ _).pages
    rw [e, h]
  exact .move (pages ▸ .lesson hs) grant

theorem State.actOnDecision_paged (s : State) (d : Decision) : Paged s (s.actOnDecision d) := by
  unfold State.actOnDecision
  split
  · exact s.missDecision_paged _ _
  · exact s.takeDecision_paged _ _ _ _

/-! ## The engine's last transfers -/

theorem State.finishReads_paged (s : State) (u : EngineUnit) : Paged s (s.finishReads u).1 := by
  have h (l : List Nat) : Paged s (l.foldl (fun x _ => x.countCorrectable) s) := (State.countCorrectables_unchanged l s).paged
  unfold State.finishReads
  simp only []
  split
  · exact (h _).trans (State.reportUncorrectable_paged _ _ _)
  · exact h _

theorem State.finishWrites_paged (s : State) (u : EngineUnit) : Paged s (s.finishWrites u) := State.storeRuns_paged _ _ _

/-! ## Jobs -/

theorem State.setRunning_paged (s : State) (j : Option RunningJob) : Paged s (s.setRunning j) := .same

theorem State.releaseJobPin_paged (s : State) (j : RunningJob) : Paged s (s.releaseJobPin j) := by
  unfold State.releaseJobPin
  split
  · exact State.releasePin_paged _ _ _
  · exact .refl _

theorem State.endJob_paged (s : State) (j : RunningJob) (st : JobState) (r i : Nat) : Paged s (s.endJob j st r i) :=
  (((s.writeOutcome_paged _ _).trans (State.raise_paged _ _ _ _ _ _)).trans (State.releaseJobPin_paged _ _)).trans
    (State.setRunning_paged _ _)

theorem State.stopJob_paged (s : State) (r : Nat) : Paged s (s.stopJob r) := by
  unfold State.stopJob
  split
  · exact .refl s
  · split
    · exact .refl s
    · split
      · exact s.setRunning_paged _
      · exact s.endJob_paged _ _ _ _

theorem State.addEntry_paged (s : State) (n : Nat) : Paged s (s.addEntry n) := by
  unfold State.addEntry
  split
  · exact .refl s
  · exact .refl s
  · exact s.writeOutcome_paged _ _

theorem State.cancelEntry_paged (s : State) (n : Nat) : Paged s (s.cancelEntry n) := by
  unfold State.cancelEntry
  split
  · exact (s.dropScanned_unchanged n).paged.trans (State.endEntry_paged _ _ _ _)
  · exact s.stopJob_paged _
  · exact .refl s

theorem Paged.foldl {α : Type} (f : State → α → State) (h : ∀ s x, Paged s (f s x)) (l : List α) (s : State) : Paged s (l.foldl f s) := by
  induction l generalizing s with
  | nil => exact .refl s
  | cons x l ih => exact (h s x).trans (ih _)

theorem State.runJob_paged (s : State) (n : Nat) (r : Request) (pin : Option Nat) (x : Render) (k : Nat) : Paged s (s.runJob n r pin x k) :=
  (s.writeOutcome_paged _ _).trans .same

theorem State.startJob_paged (s : State) (n : Nat) (r : Request) : Paged s (s.startJob n r) := by
  unfold State.startJob
  split
  · exact s.runJob_paged _ _ _ _ _
  · exact s.runJob_paged _ _ _ _ _
  · split
    · exact .refl s
    · split
      · exact (s.givePin_unchanged _ .job).paged.trans (State.runJob_paged _ _ _ _ _ _)
      · exact .refl s

theorem State.endScan_paged (s : State) (x : Scan) : Paged s (s.endScan x) := by
  have h : Paged s { s with jobs.scan := none } := .same
  unfold State.endScan
  simp only []
  split
  · exact h
  · split
    · split
      · exact h.trans (State.endEntry_paged _ _ _ _)
      · exact h.trans (State.startJob_paged _ _ _)
    · exact h

/-- A piece has been counted (R141): the pieces are written or not. -/
theorem State.countPiece_paged (s : State) (j : Option RunningJob) (c : Prop) [Decidable c] (n d : Nat) :
    Paged s (if c then (s.setRunning j).writePieces n d else s.setRunning j) := by
  split
  · exact (s.setRunning_paged j).trans (State.writePieces_paged _ _ _)
  · exact s.setRunning_paged j

theorem State.jobPieceDone_paged (s : State) : Paged s s.jobPieceDone := by
  unfold State.jobPieceDone
  split
  · exact .refl s
  · rename_i j _
    have h := s.countPiece_paged (some { j with done := j.done + 1 }) (j.done + 1 < j.total) j.entry (j.done + 1)
    simp only []
    generalize (if j.done + 1 < j.total then _ else _ : State) = t at h ⊢
    refine h.trans ?_
    split
    · exact State.endJob_paged _ _ _ _ _
    · split
      · exact .refl _
      · exact State.endJob_paged _ _ _ _ _

/-- A SIGNATURE job's page raises the counter (R40). -/
theorem State.raiseCounter_paged (s : State) (page : Nat) : Paged s (if s.capture.counter < page then s.setCounter page else s) := by
  split
  · refine .move ?_ (s.setCounter_grantOk page)
    rw [s.setCounter_pages]
    exact .count page (Nat.le_of_lt ‹_›)
  · exact .refl s

theorem State.raiseCounter_is (s : State) (page : Nat) :
    (if s.capture.counter < page then s.setCounter page else s).monitor.index = s.monitor.index
      ∧ page ≤ (if s.capture.counter < page then s.setCounter page else s).capture.counter := by
  split
  · simp
  · exact ⟨rfl, Nat.le_of_not_lt ‹_›⟩

/-- An entry that is not EMPTY is in the list of the index. -/
theorem Monitor.entry_mem {m : Monitor} {n : Nat} (h : (m.entry n).state ≠ .empty) : m.entry n ∈ m.index := by
  by_cases hl : n < m.index.length
  · rw [Monitor.entry, List.getD_eq_getElem?_getD, List.getElem?_eq_getElem hl]
    exact List.getElem_mem hl
  · exact absurd (by simp [Monitor.entry, List.getD_eq_getElem?_getD, List.getElem?_eq_none (Nat.le_of_not_lt hl)]) h

/-- A SIGNATURE job's entry takes the place of the entry with its page, or one in which no capture's entry is, and then no other entry has
its page (R40). -/
theorem State.signatureInsert_paged (s : State) (page : Nat) (sig : Signature) (image : Nat) :
    Paged s (s.signatureInsert page sig image).1 := by
  have hc := s.raiseCounter_paged page
  have hi := s.raiseCounter_is page
  unfold State.signatureInsert
  split
  · exact .refl s
  · split
    · exact .refl s
    · rename_i hp
      simp only []
      generalize (if s.capture.counter < page then s.setCounter page else s : State) = x at hc hi ⊢
      obtain ⟨hx, hle⟩ := hi
      rw [← hx] at hp
      refine hc.trans ?_
      split
      · rename_i n hn
        obtain ⟨hl, hs, -⟩ := List.findIdx?_eq_some_iff_getElem.1 hn
        have hv : (x.monitor.entry n).state = .valid ∧ (x.monitor.entry n).page = page := by
          rw [Monitor.entry, List.getD_eq_getElem?_getD, List.getElem?_eq_getElem hl]
          simpa using hs
        refine .move ?_ (x.writeEntry_grantOk _ _ _)
        rw [x.writeEntry_pages]
        exact .touch n _ hv.1.symm hv.2.symm
      · rename_i hn
        have apart (m : Nat) (hm : (x.monitor.entry m).state ≠ .empty) : (x.monitor.entry m).page ≠ page := fun hpage => by
          have mem := Monitor.entry_mem hm
          cases k : (x.monitor.entry m).state with
          | empty => exact hm k
          | provisional => exact hp (List.any_eq_true.2 ⟨_, mem, by simp [k, hpage]⟩)
          | valid => simpa [k, hpage] using List.findIdx?_eq_none_iff.1 hn _ mem
        split
        · rename_i t n ht
          obtain ⟨-, hst, hpages, hg⟩ := State.insertEntry_some ht
          refine .move ?_ hg
          rw [hpages]
          refine .insert n _ (fun k => ?_) rfl hle fun m _ hm => apart m hm
          rcases hst with h | h <;> cases h.symm.trans k
        · exact .refl x

theorem State.endInserted_paged {x : State × (Nat ⊕ Nat)} (j : RunningJob) : Paged x.1 (State.endInserted x j) := by
  unfold State.endInserted
  split <;> exact State.endJob_paged _ _ _ _ _

theorem State.finishSignature_paged (s : State) (j : RunningJob) : Paged s (s.finishSignature j) := by
  have h := s.issueWrite_paged .jobs .jobs [(j.render.destination, leBytes 48 (s.jobSignature j).toNat)]
  unfold State.finishSignature
  simp only []
  split
  · exact (h.trans (State.signatureInsert_paged _ _ _ _)).trans (State.endInserted_paged j)
  · exact h.trans (State.endJob_paged _ _ _ _ _)

theorem State.signaturePieceDone_paged (s : State) (u : EngineUnit) : Paged s (s.signaturePieceDone u) := by
  unfold State.signaturePieceDone
  split
  · exact .refl s
  · rename_i j _
    simp only []
    generalize ({ j with done := j.done + 1, sums := u.parts.foldl (fun acc p => p.addSamples (s.getter u) acc) j.sums } : RunningJob) = j'
    have h := s.countPiece_paged (some j') (j.done + 1 < j.total) j.entry (j.done + 1)
    generalize (if j.done + 1 < j.total then _ else _ : State) = t at h ⊢
    refine h.trans ?_
    split
    · exact State.endJob_paged _ _ _ _ _
    · split
      · exact .refl _
      · exact State.finishSignature_paged _ _

theorem State.jobPieceFaulted_paged (s : State) : Paged s s.jobPieceFaulted := by
  unfold State.jobPieceFaulted
  split
  · exact .refl s
  · exact s.endJob_paged _ _ _ _

theorem State.cancelPending_paged (s : State) : Paged s s.cancelPending := by
  refine Paged.foldl _ (fun t n => ?_) _ s
  split
  · exact t.endEntry_paged _ _ _
  · exact .refl t

theorem State.jobsEntry_paged (s : State) (m : Mode) : Paged s (s.jobsEntry m) := by
  have h : Paged s { s with jobs.view := m } := .same
  have v := h.trans (State.voidScan_paged _)
  unfold State.jobsEntry
  simp only []
  split
  · exact v.trans (State.stopJob_paged _ _)
  · exact (v.trans (State.stopJob_paged _ _)).trans (State.cancelPending_paged _)
  · exact h

end Sys2Proof.Machine
end

section
/-! SUPPORT. What the display feeder's, the intake's, the page monitor's, the post port's, the memory port's and mode control's operations
keep of the page index and of the grant. -/

namespace Sys2Proof.Machine

set_option Elab.async false

variable {s t u : State} {a : List Piece}

/-! ## Display feeder -/

theorem State.abandonStrip_paged (s : State) : Paged s s.abandonStrip := by
  unfold State.abandonStrip
  split
  · split
    · exact s.dropUnit_paged.trans .same
    · exact .refl s
  · exact .refl s

theorem State.withdrawStrip_paged (s : State) : Paged s s.withdrawStrip := by
  unfold State.withdrawStrip
  split
  · exact (Paged.same : Paged s { s with feeder.request := none }).trans (State.abandonStrip_paged _)
  · exact .refl s

theorem State.beginScanout_paged (s : State) : Paged s s.beginScanout := by
  unfold State.beginScanout State.underrun
  split
  · split
    · exact s.withdrawStrip_paged.trans .same
    · exact .same
  · exact .same

theorem State.stripScanout_paged (s : State) (k : Nat) : Paged s (s.stripScanout k) := by
  unfold State.stripScanout
  simp only []
  split
  · split
    · exact s.beginScanout_paged.trans (State.requestStrip_unchanged _ _).paged
    · exact s.beginScanout_paged
  · exact .refl s

theorem State.clearRuns_paged (s : State) : Paged s s.clearRuns := .same

theorem State.judge_paged (s : State) : Paged s s.judge := by
  unfold State.judge State.judgeLate State.judgeClean
  split
  · exact .refl s
  · split
    · split
      · exact .same
      · split
        · exact .same
        · exact ((s.setDegraded_paged _).trans (State.clearRuns_paged _)).trans (State.raise_paged _ _ _ _ _ _)
    · split
      · exact .same
      · split
        · exact .same
        · exact ((s.setDegraded_paged _).trans (State.clearRuns_paged _)).trans (State.raise_paged _ _ _ _ _ _)

theorem State.requestFreeze_paged (s : State) (m : Nat) (old : Option Nat) : Paged s (s.requestFreeze m old).1 := by
  unfold State.requestFreeze
  split
  · exact (s.givePin_unchanged _ _).paged
  · split
    · exact (s.givePin_unchanged _ _).paged
    · exact .refl s

theorem State.settleFreeze_paged (s : State) (l : RawLayout) : Paged s (s.settleFreeze l).1 := by
  unfold State.settleFreeze
  split
  · exact .refl s
  · split
    · split
      · exact .refl s
      · split
        · exact .refl s
        · exact (s.releasePin_paged _ _).trans (State.requestFreeze_paged _ _ _)
    · exact .refl s
    · exact s.requestFreeze_paged _ _

theorem State.releaseFreeze_paged (s : State) : Paged s s.releaseFreeze := by
  unfold State.releaseFreeze
  split
  · exact s.releasePin_paged _ _
  · exact .refl s

theorem State.refuseLayout_paged (s : State) (r g p : Nat) : Paged s (s.refuseLayout r g p) := s.raise_paged _ _ _ _ _

theorem State.setLayout_paged (s : State) (l : Layout) : Paged s (s.setLayout l) := .same

theorem State.adoptLayout_paged (s : State) (l : RawLayout) : Paged s (s.adoptLayout l) := by
  rw [State.adoptLayout_eq]
  refine Paged.trans ?_ (State.raise_paged _ _ _ _ _ _)
  split
  · exact (s.setLayout_paged _).trans (State.releaseFreeze_paged _)
  · exact s.setLayout_paged _

theorem State.applyLayout_paged (s : State) (bytes : List Byte) : Paged s (s.applyLayout bytes) := by
  unfold State.applyLayout
  simp only []
  split
  · exact s.refuseLayout_paged _ _ _
  · have h := s.settleFreeze_paged (parseLayout bytes)
    split
    · rename_i t _ e
      rw [e] at h
      exact h.trans (t.refuseLayout_paged _ _ _)
    · rename_i t e
      rw [e] at h
      exact h.trans (t.adoptLayout_paged _)

theorem State.moveHold_paged (s : State) : Paged s s.moveHold := .same

theorem State.countHoldoff_paged (s : State) : Paged s s.countHoldoff := by
  unfold State.countHoldoff
  simp only []
  refine s.resolveHoldoff_paged.trans ?_
  split
  · exact .same
  · exact .refl _

theorem State.countFrame_paged (s : State) : Paged s s.countFrame := by
  unfold State.countFrame
  simp only []
  refine Paged.trans ?_ (State.countReaction_unchanged _).paged
  refine Paged.trans ?_ (State.countHoldoff_paged _)
  exact (s.issueWrite_paged _ _ _).trans .same

theorem State.beginLiveFrame_paged (s : State) : Paged s s.beginLiveFrame := s.beginLiveFrame_unchanged.paged

theorem State.frameTurnRest_paged (s : State) : Paged s s.frameTurnRest := by
  unfold State.frameTurnRest
  split
  · have h := ((s.stepRamps_unchanged.paged).trans (State.moveHold_paged _)).trans (State.latchSources_unchanged _).paged
    exact ((h.trans (State.countFrame_paged _)).trans (State.beginLiveFrame_paged _)).trans (State.takeWork_paged _)
  · exact s.stepRamps_unchanged.paged.trans (State.countFrame_paged _)

theorem State.turnFrame_paged (s : State) (m : Nat) : Paged s (s.turnFrame m) := by
  have hj : Paged s s.frameTurnJudge := by
    unfold State.frameTurnJudge
    split
    · exact ((s.beginScanout_paged.trans (State.takeWork_paged _)).trans (State.judge_paged _)).trans (State.takeWork_paged _)
    · exact s.beginScanout_paged
  have h := hj.trans (State.readOutputMode_unchanged _ m).paged
  unfold State.turnFrame
  simp only []
  split
  · exact (h.trans .same).trans (State.issue_paged _ _ _ _)
  · exact h.trans (State.frameTurnRest_paged _)

theorem State.recoverAtEntry_paged (s : State) : Paged s s.recoverAtEntry := by
  unfold State.recoverAtEntry
  split
  · exact (s.setDegraded_paged _).trans (State.raise_paged _ _ _ _ _ _)
  · exact .refl s

theorem State.leaveLive_paged (s : State) : Paged s s.leaveLive := by
  have h := (s.withdrawStrip_paged.trans (State.takeWork_paged _)).trans (State.releaseFreeze_paged _)
  unfold State.leaveLive
  simp only []
  generalize s.withdrawStrip.takeWork.releaseFreeze = x at h
  have k : Paged x { x with intake.hold := none, feeder.liveFrame := false, feeder.late := false, feeder.latched := [] } :=
    .same
  exact ((h.trans k).trans (State.clearRuns_paged _)).trans (State.recoverAtEntry_paged _)

theorem State.feederEntry_paged (s : State) (m : Mode) : Paged s (s.feederEntry m) := by
  have h : Paged s { s with feeder.view := m } := .same
  unfold State.feederEntry
  simp only []
  split
  · exact h.trans (State.leaveLive_paged _)
  · exact (h.trans (State.leaveLive_paged _)).trans .same
  · exact h

theorem State.feederTakes_paged (s : State) (e : FeederEvent) : Paged s (s.feederTakes e) := by
  unfold State.feederTakes
  split
  · cases e with
    | scanout k => exact s.stripScanout_paged k
    | turn m => exact s.turnFrame_paged m
    | takeLayout => exact .same
    | entry m => exact s.feederEntry_paged m
  · exact .same

theorem State.feederAll_paged (es : List FeederEvent) (s : State) : Paged s (State.feederAll es s) := by
  induction es generalizing s with
  | nil => exact .refl s
  | cons e es ih => exact ((s.feederTakes_paged e).trans (State.takeWork_paged _)).trans (ih _)

theorem State.resumeTurn_paged (s : State) (bytes : Option (List Byte)) : Paged s (s.resumeTurn bytes) := by
  have h : Paged s { s with feeder.layoutRead := .idle, feeder.posted := false, feeder.deferred := [] } := .same
  unfold State.resumeTurn
  simp only []
  refine Paged.trans ?_ (State.feederAll_paged _ _)
  refine Paged.trans ?_ (State.frameTurnRest_paged _)
  split
  · exact h.trans (State.applyLayout_paged _ _)
  · exact h.trans (State.refuseLayout_paged _ _ _ _)

/-! ## Intake -/

theorem State.bumpInstability_paged (s : State) (c : Nat) : Paged s (s.bumpInstability c) := by
  have h := s.setInstability_paged (satInc 32 s.intake.instability)
  unfold State.bumpInstability
  simp only []
  split
  · exact (h.trans (State.setSuspended_paged _ _)).trans (State.raise_paged _ _ _ _ _ _)
  · exact h

theorem State.malformedFrame_paged (s : State) : Paged s s.malformedFrame :=
  (s.discardFrame_unchanged.paged.trans .same).trans (State.bumpInstability_paged _ _)

theorem State.malformedLine_paged (s : State) : Paged s s.malformedLine := s.malformedFrame_paged.trans .same

theorem State.dropFrame_paged (s : State) : Paged s s.dropFrame :=
  (s.discardFrame_unchanged.paged.trans .same).trans (State.bumpInstability_paged _ _)

theorem State.acceptMeans_paged (s : State) (m : List Nat) (g : Geometry) : Paged s (s.acceptMeans m g) := by
  have h1 (n : Nat) (f : TileStats) : Paged s { s with intake.frameNumber := n, intake.held := some f } := .same
  have h3 (x : State) (l : List TileStats) : Paged x { x with intake.meansOut := l } := .same
  exact (((h1 _ _).trans (State.setInstability_paged _ _)).trans (h3 _ _)).trans (State.countSlotWait_unchanged _).paged

theorem State.acceptPending_paged (s : State) (p : PendingFrame) : Paged s (s.acceptPending p) := by
  have hd : Paged s (s.deliverPending p) := (State.storeRuns_paged .intake _ s).trans .same
  have hc (x : State) : Paged x { x.completeSlot p with intake.pendingFrame := none } := (x.completeSlot_unchanged p).paged.trans .same
  unfold State.acceptPending
  simp only []
  refine ((hd.trans (hc _)).trans (State.acceptMeans_paged _ p.means p.geometry)).trans ?_
  unfold State.deferredChoice
  split
  · exact (State.chooseSlot_unchanged _).paged
  · exact .refl _

theorem State.frameComplete_paged (s : State) : Paged s s.frameComplete := by
  unfold State.frameComplete
  split
  · exact (Paged.same : Paged s { s with intake.state := .waiting, intake.sums := [] }).trans (State.acceptMeans_paged _ _ _)
  · exact .same
  · exact s.dropFrame_paged.trans .same

theorem State.takeComponent_paged (s : State) (v : Byte) : Paged s (s.takeComponent v) := by
  unfold State.takeComponent
  split
  · exact s.malformedLine_paged
  · split
    · exact s.dropFrame_paged
    · exact .same

/-! ## Page monitor -/

theorem State.endPattern_paged (s : State) : Paged s s.endPattern := by
  unfold State.endPattern
  simp only []
  exact (Paged.same : Paged s { s.setPattern settledPattern with monitor.timeoutDue := false }).trans (State.raise_paged _ _ _ _ _ _)

theorem State.resolveTimeout_paged (s : State) : Paged s s.resolveTimeout := by
  unfold State.resolveTimeout
  split
  · exact s.endPattern_paged
  · exact .refl s

theorem State.pageSeen_paged (s : State) (n d f : Nat) : Paged s (s.pageSeen n d f) := by
  unfold State.pageSeen
  simp only []
  refine Paged.trans ⟨?_, (State.issueWrite_paged (s.setEntry n _) _ _ _).grant⟩ (State.raise_paged _ _ _ _ _ _)
  rw [(State.issueWrite_unchanged (s.setEntry n _) _ _ _).pages, State.setEntry_pages]
  exact .single (.touch n _ rfl rfl)

theorem State.stillLive_paged (s : State) (f : TileStats) : Paged s (s.stillLive f) := by
  have h : Paged s { s with monitor.levels := levelsOf s.post.setup f.means } := .same
  unfold State.stillLive
  simp only []
  split
  · exact h
  · split
    · exact h.trans (State.pageSeen_paged _ _ _ _)
    · split
      · exact h.trans .same
      · exact h

theorem State.wake_paged (s : State) : Paged s s.wake := by
  unfold State.wake
  split
  · exact (s.changeMode_paged _ _).trans .same
  · exact .refl s

theorem State.judgePattern_paged (s : State) (p : Pattern) (f : TileStats) : Paged s (s.judgePattern p f) := by
  have h (q : Pattern) : Paged s (s.setPattern q) := .same
  unfold State.judgePattern
  simp only []
  split
  · split
    · exact (h _).trans (State.stillLive_paged _ _)
    · exact ((h _).trans (State.raise_paged _ _ _ _ _ _)).trans (State.wake_paged _)
  · exact (h p).trans .same

theorem State.classify_paged (s : State) (previous : List Nat) (f : TileStats) : Paged s (s.classify previous f) := by
  unfold State.classify State.tellMoving
  simp only []
  split
  · exact (s.missCapture_paged _).trans (State.judgePattern_paged _ _ _)
  · exact s.judgePattern_paged _ _

theorem State.takeMeans_paged (s : State) (f : TileStats) : Paged s (s.takeMeans f) := by
  have h (x : State) : Paged x (x.judgeMeans f) := by
    unfold State.judgeMeans
    split
    · exact x.classify_paged _ _
    · exact .refl x
  exact (s.resolveTimeout_paged.trans (h _)).trans .same

theorem State.monitorEntry_paged (s : State) (m : Mode) : Paged s (s.monitorEntry m) := by
  have h : Paged s { s with monitor.view := m } := .same
  unfold State.monitorEntry
  simp only []
  split
  iterate 3 exact (h.trans (State.resolveTimeout_paged _)).trans .same
  exact h

/-! ## Post port -/

theorem State.stopTimer_paged (s : State) : Paged s s.stopTimer := .same

theorem State.rejudge_paged (s : State) : Paged s s.rejudge := by
  unfold State.rejudge
  split
  · exact s.signalReady_paged
  · split
    · exact s.stopTimer_paged
    · split
      · exact .same
      · exact .refl s

theorem State.resizeQueue_paged (s : State) (n : Nat) : Paged s (s.resizeQueue n) := by
  unfold State.resizeQueue
  split
  · exact .refl s
  · exact (s.setPut_paged 0).trans (State.setGet_paged _ 0)

theorem State.takeSetup_paged (s : State) (u : Setup) (g : Nat) : Paged s (s.takeSetup u g) := by
  have h : Paged s (s.resolveHoldoff.resized u g) := (s.resolveHoldoff_paged.trans (State.resizeQueue_paged _ _)).trans .same
  exact ((h.trans (State.rejudge_paged _)).trans (State.liveField_paged _ _ _ _ _)).trans (State.takeEvent_paged _ _ _ _ _ _)

theorem State.setupRead_paged (s : State) (bytes : List Byte) : Paged s (s.setupRead bytes) := by
  unfold State.setupRead
  simp only []
  split
  · exact s.takeEvent_paged _ _ _ _ _
  · exact s.takeSetup_paged _ _

theorem State.settleUnsignalled_paged (s : State) : Paged s s.settleUnsignalled := by
  unfold State.settleUnsignalled
  dsimp only
  split <;> exact .same

theorem State.acknowledge_paged (s : State) (k : Nat) : Paged s (s.acknowledge k) := by
  unfold State.acknowledge State.publishGet
  simp only []
  refine s.resolveHoldoff_paged.trans (Paged.trans ?_ (State.settleUnsignalled_paged _))
  exact (Paged.same : Paged _ { s.resolveHoldoff with post.fill := _, post.get := _ }).trans (State.liveField_paged _ _ _ _ _)

theorem State.watchSafe_paged (s : State) (k : EventKind) : Paged s (s.watchSafe k) := by
  unfold State.watchSafe
  split
  · exact s.emit_paged _ _
  · exact .refl s

theorem State.takeRaised_paged (s : State) (n : Nat) (e : RaisedEvent) : Paged s (s.takeRaised n e) :=
  ((Paged.same : Paged s { s with post.raised := s.post.raised.eraseIdx n }).trans (State.takeEvent_paged _ _ _ _ _ _)).trans
    (State.watchSafe_paged _ _)

/-! ## Memory port -/

theorem State.upset_paged (s : State) (x : Upset) : Paged s (s.upset x) := by
  cases x with
  | correctable w =>
    unfold State.upset
    dsimp only
    split
    · exact .same
    · exact .refl s
  | uncorrectable w v =>
    unfold State.upset
    dsimp only
    split
    · exact .same
    · exact .refl s
  | cutOff addr len =>
    unfold State.upset
    dsimp only
    split
    · exact (s.load_paged _ _ _).trans .same
    · exact .refl s

theorem State.befall_paged (s : State) (l : List Upset) : Paged s (s.befall l) :=
  (Paged.foldl State.upset State.upset_paged l s).trans .same

theorem State.intakeBurst_paged (s : State) : Paged s s.intakeBurst := by
  unfold State.intakeBurst
  split
  · exact (s.store_paged _ _ _).trans .same
  · exact .refl s

theorem State.faultUnit_paged (s : State) (u : EngineUnit) : Paged s (s.faultUnit u) := by
  have h (x : State) : Paged x x.dropUnit.shutdownTest := x.dropUnit_paged.trans (State.shutdownTest_paged _)
  unfold State.faultUnit
  dsimp only
  split
  · exact (s.stripFaulted_unchanged _).paged.trans (h _)
  · exact s.capturePieceFaulted_paged.trans (h _)
  · exact s.jobPieceFaulted_paged.trans (h _)
  · exact s.jobPieceFaulted_paged.trans (h _)

theorem State.engineBurst_paged (s : State) (u : EngineUnit) (b : EngineBurst) : Paged s (s.engineBurst u b) := by
  unfold State.engineBurst
  split
  · exact (State.storeRuns_paged _ _ _).trans (State.setUnit_unchanged _ _).paged
  · have h := s.load_paged .engine b.addr b.len
    split <;> rename_i e <;> rw [e] at h
    · exact h.trans (State.setUnit_unchanged _ _).paged
    · exact h.trans (State.faultUnit_paged _ _)

theorem State.hostStore_paged (s : State) (addr : Nat) (d : Word) (e : BitVec 4) : Paged s (s.hostStore addr d e) := by
  unfold State.hostStore
  split
  · exact .refl s
  · exact (Paged.same : Paged s { s with mem := s.mem.writeEnabled addr d e }).trans (State.codeWord_paged _ _ _ _)

theorem State.hostBurst_paged (s : State) : Paged s s.hostBurst := by
  unfold State.hostBurst
  split
  · exact .refl s
  · rename_i a _
    have h := s.load_paged .host a 4
    split <;> rename_i e <;> rw [e] at h <;> exact h.trans .same
  · exact (s.hostStore_paged _ _ _).trans .same

theorem State.burstOf_paged {q : Requester} {b : EngineBurst} (h : s.burstOf q b = some t) : Paged s t := by
  unfold State.burstOf at h
  split at h
  · cases h; exact s.intakeBurst_paged
  · cases h; exact s.recordBurst_paged
  · cases h; exact s.hostBurst_paged
  · split at h
    · split at h
      · cases h; exact s.engineBurst_paged _ _
      · cases h
    · cases h


theorem State.countBurst_paged (s : State) (q : Requester) : Paged s (s.countBurst q) :=
  .same (s.countBurst_unchanged q).pages (State.countBurst_grantOk q)

/-! ## Mode control -/

theorem State.resetAll_paged (s : State) : Paged s s.resetAll := .move .reset fun _ => State.grantOk_of_none rfl

theorem State.endBoot_paged (s : State) : Paged s s.endBoot := by
  have h1 (x : State) (m : Mode) : Paged x (x.leaveBoot m) := (x.enterMode_paged m).trans (State.takeEvent_paged _ _ _ _ _ _)
  have h2 (x : State) (m : Mode) (i : IntakeState) : Paged x
      { ({ x with control.announcements := [] } : State).setViews m with intake.state := i } := .same
  have h3 : Paged s { s with port.boot := .none, control.warned := false, feeder.rasterOn := true } := .same
  exact (((h3.trans (State.releaseHost_unchanged _).paged).trans (h1 _ _)).trans (h2 _ _ _)).trans (State.shutdownTest_paged _)

end Sys2Proof.Machine
end

section
/-! SUPPORT. What every command keeps: the page index changes by moves alone, and a grant stays within its limit. -/

namespace Sys2Proof.Machine

set_option Elab.async false

variable {s t u : State} {a : List Piece}

/-- Whatever a command answers keeps the invariants of the page index and of the grant. -/
def KeepsPages (s : State) (r : Result) : Prop := ∀ t, r = .next t → Paged s t

theorem KeepsPages.next (h : Paged s t) : KeepsPages s (.next t) := by
  rintro _ ⟨⟩
  exact h

theorem KeepsPages.idle : KeepsPages s (.next s) := .next (.refl s)

theorem KeepsPages.close {s0 : State} (h : Paged s t) : KeepsPages s (.next (s0.close t)) := .next (h.trans (s0.close_paged t))

theorem KeepsPages.closeWork {s0 : State} (h : Paged s t) : KeepsPages s (.next (s0.closeWork t)) := .next (h.trans (s0.closeWork_paged t))

theorem State.refuse_paged (s : State) (n : Nat) (w : Word) : Paged s (s.refuse n w) := s.raise_paged _ _ _ _ _

/-- The command of a kind of post word keeps what its owner's act keeps. -/
theorem KeepsPages.takeWord {kind : Nat} {allowed : Mode → Bool} {legal : Nat → Bool} {act : Word → State → State}
    (k : ∀ w x, Paged x (act w x)) : KeepsPages s (s.takeWord kind allowed legal act) := by
  have dispatched (x : State) (w : Word) : Paged x (x.dispatch kind allowed legal act w) := by
    unfold State.dispatch
    split
    · exact State.refuse_paged _ _ _
    · split
      · exact State.refuse_paged _ _ _
      · split
        · exact k w _
        · exact .same
  intro t h
  rcases State.takeWord_cases h with rfl | ⟨w, rest, -, rfl⟩ | ⟨w, -, -, rfl⟩
  · exact .refl _
  · exact KeepsPages.closeWork ((s.wordTaken_paged rest).trans (dispatched _ w)) _ rfl
  · exact KeepsPages.closeWork ((Paged.same : Paged s s.leaveHand).trans (k w _)) _ rfl

/-! ## Sensor events, acceptance, the page monitor -/

theorem execFrameStart_keepsPages (s : State) : KeepsPages s (execFrameStart s) := by
  unfold execFrameStart
  split
  · exact .idle
  · exact .close s.beginFrame_unchanged.paged
  · exact .close s.beginFrame_unchanged.paged
  · exact .close (s.malformedFrame_paged.trans (State.beginFrame_unchanged _).paged)

theorem execFrameEnd_keepsPages (s : State) : KeepsPages s (execFrameEnd s) := by
  unfold execFrameEnd
  split
  · exact .idle
  · exact .idle
  · exact .close .same
  · refine .closeWork ?_
    split
    · exact s.frameComplete_paged
    · exact s.malformedFrame_paged.trans .same

theorem execLineStart_keepsPages (s : State) : KeepsPages s (execLineStart s) := by
  unfold execLineStart
  split
  · refine .close ?_
    split
    · exact s.malformedLine_paged
    · exact .same
  · exact .idle

theorem execLineEnd_keepsPages (s : State) : KeepsPages s (execLineEnd s) := by
  unfold execLineEnd
  split
  · refine .close ?_
    split
    · exact .same
    · exact s.malformedLine_paged
  · exact .idle

theorem execComponent_keepsPages (v : Byte) (s : State) : KeepsPages s (execComponent v s) := by
  unfold execComponent
  split
  · exact .close (s.takeComponent_paged v)
  · exact .idle

theorem execAcceptance_keepsPages (s : State) : KeepsPages s (execAcceptance s) := by
  unfold execAcceptance
  split
  · exact .closeWork (s.acceptPending_paged _)
  · exact .idle

theorem execTileMeansArrival_keepsPages (s : State) : KeepsPages s (execTileMeansArrival s) := by
  unfold execTileMeansArrival
  split
  · exact .closeWork ((Paged.same : Paged s { s with intake.meansOut := _ }).trans (State.takeMeans_paged _ _))
  · exact .idle

theorem execPatternTimeout_keepsPages (s : State) : KeepsPages s (execPatternTimeout s) := by
  unfold execPatternTimeout
  split
  · exact .close s.endPattern_paged
  · exact .idle

/-! ## Capture unit -/

theorem execCaptureDecision_keepsPages (s : State) : KeepsPages s (execCaptureDecision s) := by
  unfold execCaptureDecision
  split
  · exact .closeWork ((Paged.same : Paged s { s with capture.decisions := _ }).trans (State.actOnDecision_paged _ _))
  · exact .idle

theorem execSlotWaitExpiry_keepsPages (s : State) : KeepsPages s (execSlotWaitExpiry s) := by
  unfold execSlotWaitExpiry
  split
  · exact .closeWork (s.missCapture_paged _)
  · exact .idle

theorem execDescriptorReadDone_keepsPages (s : State) : KeepsPages s (execDescriptorReadDone s) := by
  unfold execDescriptorReadDone
  split
  · exact .idle
  · have h := s.drain_paged fun x => x.capture.read.settled
    have k (x : State) : Paged x { x with capture.read := .idle } := .same
    dsimp only
    split
    · exact .closeWork ((h.trans (k _)).trans (State.descriptorRead_paged _ _))
    · exact .closeWork ((h.trans (k _)).trans (State.chainFault_paged _ _))
    · exact .idle

theorem execCaptureCredit_keepsPages (s : State) : KeepsPages s (execCaptureCredit s) := by
  refine .takeWord fun w x => ?_
  split
  · exact x.refuse_paged _ _
  · have h : Paged x (x.setCredit (min 255 (x.capture.credit + postArgument w))) :=
      x.setCredit_paged _
    dsimp only
    split
    · exact (h.trans (.same : Paged _ (State.stopCount _))).trans (State.readHead_paged _)
    · exact h

theorem execCaptureRestart_keepsPages (s : State) : KeepsPages s (execCaptureRestart s) := by
  refine .takeWord fun w x => ?_
  split
  · exact x.refuse_paged _ _
  · exact (Paged.same : Paged x { x with post.inHand := some w, post.controlRead := .waiting }).trans (State.issue_paged _ _ _ _)

theorem execControlWordsReadDone_keepsPages (s : State) : KeepsPages s (execControlWordsReadDone s) := by
  unfold execControlWordsReadDone
  split
  · exact .idle
  · have h := s.drain_paged fun x => x.post.controlRead.settled
    have k (x : State) : Paged x { x with post.controlRead := .idle, post.inHand := none } := .same
    dsimp only
    split
    · exact .closeWork (((h.trans (k _)).trans (State.restartChain_paged _ _)).trans (State.resumeCapture_paged _))
    · exact .closeWork ((h.trans (k _)).trans (State.refuse_paged _ _ _))
    · exact .idle

theorem execCaptureNow_keepsPages (s : State) : KeepsPages s (execCaptureNow s) := by
  refine .takeWord fun w x => ?_
  split
  · exact x.refuse_paged _ _
  · split
    · exact x.refuse_paged _ _
    · exact x.takeDecision_paged _ _ _ _

theorem execLessonBegin_keepsPages (s : State) : KeepsPages s (execLessonBegin s) := by
  refine .takeWord fun w x => ?_
  split
  · exact x.refuse_paged _ _
  · split
    · exact x.refuse_paged _ _
    · exact (((x.beginLesson_paged (not_not.1 ‹_›)).trans (State.setLesson_paged _ _)).trans (.same : Paged _ (State.markLesson _))).trans
        (State.raise_paged _ _ _ _ _ _)

theorem execLessonEnd_keepsPages (s : State) : KeepsPages s (execLessonEnd s) := by
  refine .takeWord fun w x => ?_
  split
  · exact x.refuse_paged _ _
  · have h := (x.setLesson_paged false).trans (.same : Paged _ (State.markLesson _))
    exact (h.trans (State.missWaiting_paged _ _)).trans (State.raise_paged _ _ _ _ _ _)

/-! ## Display feeder -/

theorem State.moveRaster_paged (s : State) (k : Nat) (e : FeederEvent) : Paged s ((s.moveRaster k).feederTakes e) :=
  (Paged.same : Paged s (s.moveRaster k)).trans (State.feederTakes_paged _ _)

theorem execStripScanoutStart_keepsPages (k : Nat) (s : State) : KeepsPages s (execStripScanoutStart k s) := by
  unfold execStripScanoutStart
  split
  · exact .closeWork (s.moveRaster_paged _ _)
  · exact .idle

theorem execFrameTurn_keepsPages (s : State) : KeepsPages s (execFrameTurn s) := by
  unfold execFrameTurn
  split
  · exact .closeWork (s.moveRaster_paged _ _)
  · exact .idle

theorem execLayoutReadDone_keepsPages (s : State) : KeepsPages s (execLayoutReadDone s) := by
  unfold execLayoutReadDone
  split
  · exact .idle
  · have h := s.drain_paged fun x => x.feeder.layoutRead.settled
    have k (x : State) (b : Option (List Byte)) : Paged x (x.resumeTurn b) := x.resumeTurn_paged b
    dsimp only
    split
    · exact .closeWork ((h.trans (k _ _)).trans (State.shutdownTest_paged _))
    · exact .closeWork ((h.trans (k _ _)).trans (State.shutdownTest_paged _))
    · exact .idle

/-- The reads of a unit that ends bring its bytes, or meet an error. -/
theorem finishReads_kept {u : EngineUnit} {b : Bool} (h : s.finishReads u = (t, b)) : Paged s t := by
  have k := s.finishReads_paged u
  rwa [h] at k

theorem execStripComplete_keepsPages (s : State) : KeepsPages s (execStripComplete s) := by
  unfold execStripComplete
  split
  · split
    · split <;> rename_i h
      · exact .closeWork (((finishReads_kept h).trans ((State.stripDone_unchanged _ _ _).paged)).trans (State.dropUnit_paged _))
      · exact .closeWork (((finishReads_kept h).trans (State.stripFaulted_unchanged _ _).paged).trans (State.dropUnit_paged _))
    · exact .idle
  · exact .idle

theorem execTakeLayout_keepsPages (s : State) : KeepsPages s (execTakeLayout s) :=
  .takeWord fun _ _ => State.feederTakes_paged _ _

/-! ## Pieces of captures and jobs -/

/-- A unit ends, and the shutdown's condition is tested. -/
theorem KeepsPages.unitEnds {s0 : State} (h : Paged s t) : KeepsPages s (.next (s0.closeWork t.dropUnit.shutdownTest)) :=
  .closeWork ((h.trans t.dropUnit_paged).trans (State.shutdownTest_paged _))

theorem execCapturePieceComplete_keepsPages (s : State) : KeepsPages s (execCapturePieceComplete s) := by
  unfold execCapturePieceComplete
  split
  · split
    · split <;> rename_i h
      · exact .unitEnds (((finishReads_kept h).trans (State.finishWrites_paged _ _)).trans (State.capturePieceDone_paged _))
      · exact .unitEnds ((finishReads_kept h).trans (State.capturePieceFaulted_paged _))
    · exact .idle
  · exact .idle

theorem execJobPieceComplete_keepsPages (s : State) : KeepsPages s (execJobPieceComplete s) := by
  unfold execJobPieceComplete
  split
  · split
    · split <;> rename_i h
      · exact .unitEnds (((finishReads_kept h).trans (State.finishWrites_paged _ _)).trans (State.jobPieceDone_paged _))
      · exact .unitEnds ((finishReads_kept h).trans (State.jobPieceFaulted_paged _))
    · exact .idle
  · exact .idle

theorem execSignaturePieceComplete_keepsPages (s : State) : KeepsPages s (execSignaturePieceComplete s) := by
  unfold execSignaturePieceComplete
  split
  · split
    · split <;> rename_i h
      · exact .unitEnds ((finishReads_kept h).trans (State.signaturePieceDone_paged _ _))
      · exact .unitEnds ((finishReads_kept h).trans (State.jobPieceFaulted_paged _))
    · exact .idle
  · exact .idle

theorem execJobScanDone_keepsPages (s : State) : KeepsPages s (execJobScanDone s) := by
  unfold execJobScanDone
  split
  · exact .idle
  · dsimp only
    split
    · split
      · exact .closeWork ((s.drain_paged _).trans (State.endScan_paged _ _))
      · exact .idle
    · exact .idle

theorem execJobAdd_keepsPages (s : State) : KeepsPages s (execJobAdd s) :=
  .takeWord fun _ x => (Paged.foldl _ State.addEntry_paged _ x)

theorem execJobCancel_keepsPages (s : State) : KeepsPages s (execJobCancel s) :=
  .takeWord fun _ x => (Paged.foldl _ State.cancelEntry_paged _ x)

/-! ## Memory port -/

theorem execMemoryBurstComplete_keepsPages (l : List Upset) (b : EngineBurst) (s : State) : KeepsPages s (execMemoryBurstComplete l b s) := by
  have h : Paged s (s.befall l) := s.befall_paged l
  unfold execMemoryBurstComplete
  split
  · split
    · exact .closeWork h
    · exact .idle
  · split
    · rename_i e
      have k := State.burstOf_paged e
      exact .closeWork ((h.trans k).trans (State.countBurst_paged _ _))
    · exact .idle

theorem State.hostAccess_keepsPages (s : State) (x : HostAccess) : KeepsPages s (.next (s.close (s.hostAccess x))) :=
  .close ((s.hostAccess_unchanged x).paged)

theorem execRecordQueueAdmit_keepsPages (s : State) : KeepsPages s (execRecordQueueAdmit s) := by
  unfold execRecordQueueAdmit
  split
  · exact .idle
  · exact .closeWork s.admitBlocked_paged

/-! ## Post port -/

theorem execPostWrite_keepsPages (w : Word) (s : State) : KeepsPages s (execPostWrite w s) := by
  unfold execPostWrite
  split
  · exact .idle
  · exact .idle
  · split
    · exact .next .same
    · exact .next (s.setCause_paged _)

theorem execPostUnknownKind_keepsPages (s : State) : KeepsPages s (execPostUnknownKind s) := by
  unfold execPostUnknownKind
  split
  · exact .idle
  · split
    · exact .closeWork ((s.wordTaken_paged ‹_›).trans (State.refuse_paged _ _ _))
    · exact .idle

theorem execApplySetup_keepsPages (s : State) : KeepsPages s (execApplySetup s) :=
  .takeWord fun w x =>
    (Paged.same : Paged x { x with post.inHand := some w, post.handMode := x.control.mode, post.setupRead := .waiting }).trans
      (State.issue_paged _ _ _ _)

theorem execSetupReadDone_keepsPages (s : State) : KeepsPages s (execSetupReadDone s) := by
  unfold execSetupReadDone
  split
  · exact .idle
  · have h := s.drain_paged fun x => x.post.setupRead.settled
    have k (x : State) : Paged x { x with post.setupRead := .idle, post.inHand := none } := .same
    dsimp only
    split
    · exact .closeWork ((h.trans (k _)).trans (State.setupRead_paged _ _))
    · exact .closeWork ((h.trans (k _)).trans (State.takeEvent_paged _ _ _ _ _ _))
    · exact .idle

theorem execEventAck_keepsPages (s : State) : KeepsPages s (execEventAck s) := by
  refine .takeWord fun w x => ?_
  split
  · exact x.acknowledge_paged _
  · exact x.refuse_paged _ _

theorem execEventArrival_keepsPages (n : Nat) (s : State) : KeepsPages s (execEventArrival n s) := by
  unfold execEventArrival
  split
  · exact .idle
  · split
    · exact .close (s.takeRaised_paged _ _)
    · exact .idle

theorem execHoldoffExpiry_keepsPages (s : State) : KeepsPages s (execHoldoffExpiry s) := by
  unfold execHoldoffExpiry
  split
  · exact .next s.signalReady_paged
  · exact .idle

theorem execCauseWrite_keepsPages (v : Word) (s : State) : KeepsPages s (execCauseWrite v s) := by
  unfold execCauseWrite
  split
  · exact .next .same
  · exact .idle

theorem execMaskWrite_keepsPages (v : Word) (s : State) : KeepsPages s (execMaskWrite v s) := by
  unfold execMaskWrite
  split
  · exact .next .same
  · exact .idle

theorem execPageForget_keepsPages (s : State) : KeepsPages s (execPageForget s) := by
  refine .takeWord fun w x => ?_
  split
  · rename_i hv
    refine .move ?_ (x.setEntryState_grantOk _ _ _)
    rw [x.setEntryState_pages]
    exact .forget _ hv
  · exact x.refuse_paged _ _

theorem execClearInstability_keepsPages (s : State) : KeepsPages s (execClearInstability s) :=
  .takeWord fun _ x => (x.setInstability_paged 0).trans (State.setSuspended_paged _ _)

/-! ## Mode control -/

theorem execResetPin_keepsPages (s : State) : KeepsPages s (execResetPin s) := .next (s.resetAll_paged.trans .same)

theorem execSupplyGoodLoss_keepsPages (s : State) : KeepsPages s (execSupplyGoodLoss s) := .next (s.resetAll_paged.trans .same)

theorem execSoftReset_keepsPages (s : State) : KeepsPages s (execSoftReset s) := by
  unfold execSoftReset
  split
  · exact .next s.resetAll_paged
  · exact .idle

theorem execResetRelease_keepsPages (s : State) : KeepsPages s (execResetRelease s) := by
  unfold execResetRelease
  split
  · exact .next .same
  · exact .idle

theorem execBootClearDone_keepsPages (s : State) : KeepsPages s (execBootClearDone s) := by
  unfold execBootClearDone
  split
  · exact .close ((s.clearControl_unchanged.paged.trans .same).trans (State.issueWrite_paged _ _ _ _))
  · exact .idle

theorem execBootEnd_keepsPages (s : State) : KeepsPages s (execBootEnd s) := by
  unfold execBootEnd
  split
  · exact .closeWork ((s.drain_paged _).trans (State.endBoot_paged _))
  · exact .idle

theorem execModeRequestStandby_keepsPages (s : State) : KeepsPages s (execModeRequestStandby s) := by
  unfold execModeRequestStandby
  split
  · exact .closeWork (s.stopReaction_paged.trans (State.changeMode_paged _ _ _))
  · exact .idle

theorem execModeRequestLive_keepsPages (s : State) : KeepsPages s (execModeRequestLive s) := by
  unfold execModeRequestLive
  split
  · exact .closeWork (s.changeMode_paged _ _)
  · exact .next s.stopReaction_paged
  · exact .idle

theorem State.blockEntry_paged (s : State) (b : Block) (m : Mode) : Paged s (s.blockEntry b m) := by
  cases b with
  | intake => exact (s.intakeEntry_unchanged m).paged
  | monitor => exact s.monitorEntry_paged m
  | feeder => exact State.feederTakes_paged _ _
  | capture => exact s.captureEntry_paged m
  | jobs => exact s.jobsEntry_paged m
  | _ => exact .refl s

theorem execModeEntry_keepsPages (b : Block) (s : State) : KeepsPages s (execModeEntry b s) := by
  unfold execModeEntry
  split
  · exact .closeWork (((Paged.same : Paged s (s.dropAnnouncement _)).trans (State.blockEntry_paged _ _ _)).trans
      (State.shutdownTest_paged _))
  · exact .idle

theorem execReactionTimerExpiry_keepsPages (s : State) : KeepsPages s (execReactionTimerExpiry s) := by
  unfold execReactionTimerExpiry
  split
  · exact .closeWork ((s.stopReaction_paged.trans (State.changeMode_paged _ _ _)).trans (State.raise_paged _ _ _ _ _ _))
  · exact .idle

theorem execPowerWarn_keepsPages (s : State) : KeepsPages s (execPowerWarn s) := by
  have h : Paged s { s with control.warnLevel := true } := .same
  unfold execPowerWarn
  split
  · exact .next .same
  · exact .closeWork (h.trans (State.changeMode_paged _ _ _))
  · exact .closeWork (h.trans (State.changeMode_paged _ _ _))
  · exact .next h

theorem execSafeAssert_keepsPages (s : State) : KeepsPages s (execSafeAssert s) := by
  unfold execSafeAssert
  split
  · exact .closeWork (((s.drain_paged _).trans .same).trans (State.setCause_paged _ _))
  · exact .idle

/-! ## Every command, and every step -/

theorem exec_keepsPages (c : Instr) (s : State) : KeepsPages s (exec c s) := by
  cases c with
  | frameStart => exact execFrameStart_keepsPages s
  | frameEnd => exact execFrameEnd_keepsPages s
  | lineStart => exact execLineStart_keepsPages s
  | lineEnd => exact execLineEnd_keepsPages s
  | component v => exact execComponent_keepsPages v s
  | acceptance => exact execAcceptance_keepsPages s
  | tileMeansArrival => exact execTileMeansArrival_keepsPages s
  | patternTimeout => exact execPatternTimeout_keepsPages s
  | captureDecision => exact execCaptureDecision_keepsPages s
  | slotWaitExpiry => exact execSlotWaitExpiry_keepsPages s
  | descriptorReadDone => exact execDescriptorReadDone_keepsPages s
  | stripScanoutStart k => exact execStripScanoutStart_keepsPages k s
  | frameTurn => exact execFrameTurn_keepsPages s
  | layoutReadDone => exact execLayoutReadDone_keepsPages s
  | stripComplete => exact execStripComplete_keepsPages s
  | capturePieceComplete => exact execCapturePieceComplete_keepsPages s
  | jobPieceComplete => exact execJobPieceComplete_keepsPages s
  | signaturePieceComplete => exact execSignaturePieceComplete_keepsPages s
  | jobScanDone => exact execJobScanDone_keepsPages s
  | memoryBurstComplete l b => exact execMemoryBurstComplete_keepsPages l b s
  | hostMemoryRead addr => exact s.hostAccess_keepsPages _
  | hostMemoryWrite addr d e => exact s.hostAccess_keepsPages _
  | recordQueueAdmit => exact execRecordQueueAdmit_keepsPages s
  | postWrite w => exact execPostWrite_keepsPages w s
  | postUnknownKind => exact execPostUnknownKind_keepsPages s
  | applySetup => exact execApplySetup_keepsPages s
  | setupReadDone => exact execSetupReadDone_keepsPages s
  | takeLayout => exact execTakeLayout_keepsPages s
  | captureCredit => exact execCaptureCredit_keepsPages s
  | captureRestart => exact execCaptureRestart_keepsPages s
  | controlWordsReadDone => exact execControlWordsReadDone_keepsPages s
  | captureNow => exact execCaptureNow_keepsPages s
  | lessonBegin => exact execLessonBegin_keepsPages s
  | lessonEnd => exact execLessonEnd_keepsPages s
  | jobAdd => exact execJobAdd_keepsPages s
  | jobCancel => exact execJobCancel_keepsPages s
  | eventAck => exact execEventAck_keepsPages s
  | pageForget => exact execPageForget_keepsPages s
  | clearInstability => exact execClearInstability_keepsPages s
  | eventArrival n => exact execEventArrival_keepsPages n s
  | holdoffExpiry => exact execHoldoffExpiry_keepsPages s
  | causeWrite v => exact execCauseWrite_keepsPages v s
  | maskWrite v => exact execMaskWrite_keepsPages v s
  | softReset => exact execSoftReset_keepsPages s
  | modeRequestStandby => exact execModeRequestStandby_keepsPages s
  | modeRequestLive => exact execModeRequestLive_keepsPages s
  | registerWriteOther r v => exact .idle
  | modeEntry b => exact execModeEntry_keepsPages b s
  | reactionTimerExpiry => exact execReactionTimerExpiry_keepsPages s
  | powerWarn => exact execPowerWarn_keepsPages s
  | safeAssert => exact execSafeAssert_keepsPages s
  | resetPin => exact execResetPin_keepsPages s
  | supplyGoodLoss => exact execSupplyGoodLoss_keepsPages s
  | resetRelease => exact execResetRelease_keepsPages s
  | bootClearDone => exact execBootClearDone_keepsPages s
  | bootEnd => exact execBootEnd_keepsPages s
  | powerWarnInactive => exact .next .same

theorem step_paged (h : step s = .next t) : Paged s t := by
  unfold step at h
  split at h
  · cases h; exact .refl s
  · exact (Paged.same : Paged s { s with pending := _ }).trans (exec_keepsPages _ _ _ h)

end Sys2Proof.Machine
end

section

open Sys2Proof Sys2Proof.Machine

/-- Settles O59: a step changes the page index by moves alone, each of which keeps both of its invariants, and makes, counts or ends a grant
within its limit. -/
theorem everyStepKeepsProvisionalEntryAndGrant : Obligations.EveryStepKeepsProvisionalEntryAndGrant :=
  ⟨fun _ _ hp hg h => ⟨(PageView.moves_keep (step_paged h).pages hp).1, (step_paged h).grant hg⟩,
    fun _ _ hp hk h => pagesOk_iff.2 ((PageView.moves_keep (step_paged h).pages hp).2 (pagesOk_iff.1 hk))⟩

end

section
/-! SUPPORT. What a chain of operations sends: the record operations it issues and the events it raises, in order, where the record queue has
room for them (R13, R155, R174); and the post words that are refused (R169). -/

namespace Sys2Proof.Machine

set_option Elab.async false

/-- A raised event without the mark of its step. -/
def RaisedEvent.entry (e : RaisedEvent) : Block × EventKind × Nat × Nat × Nat := (e.owner, e.kind, e.small, e.a, e.b)

/-- These events have been raised, in order, each with the input frame number. -/
def Raises (news : List (Block × EventKind × Nat × Nat × Nat)) (s t : State) : Prop :=
  t.intake.frameNumber = s.intake.frameNumber
    ∧ ∃ l : List RaisedEvent, t.post.raised = s.post.raised ++ l ∧ l.map RaisedEvent.entry = news
      ∧ ∀ e ∈ l, e.frame = s.intake.frameNumber

/-- With room for them, these record operations join the queue, in order, and these events are raised, in order. -/
def Sends (ops : List RecordOp) (news : List (Block × EventKind × Nat × Nat × Nat)) (s t : State) : Prop :=
  ∀ m, s.roomFor (ops.length + m) → t.roomFor m ∧ t.ops = s.ops ++ ops ∧ Raises news s t

variable {s t u : State} {changed : List Piece} {ops ops' : List RecordOp} {news news' : List (Block × EventKind × Nat × Nat × Nat)}

/-! ## Chains -/

theorem Raises.trans (h : Raises news s t) (k : Raises news' t u) : Raises (news ++ news') s u := by
  obtain ⟨hf, l, hl, rfl, hs⟩ := h
  obtain ⟨kf, m, hm, rfl, ks⟩ := k
  refine ⟨kf.trans hf, l ++ m, by rw [hm, hl, List.append_assoc], List.map_append, fun e he => ?_⟩
  rcases List.mem_append.1 he with he | he
  · exact hs e he
  · exact (ks e he).trans hf

theorem Raises.none (hr : t.post.raised = s.post.raised := by rfl) (hf : t.intake.frameNumber = s.intake.frameNumber := by rfl) :
    Raises [] s t :=
  ⟨hf, [], by rw [hr, List.append_nil], rfl, nofun⟩

/-- What is sent after something that may use what that left in the queue. -/
theorem Sends.bind (h : Sends ops news s t) (k : t.ops = s.ops ++ ops → Sends ops' news' t u) :
    Sends (ops ++ ops') (news ++ news') s u := by
  intro m hm
  rw [List.length_append, Nat.add_assoc] at hm
  obtain ⟨ht, ho, hr⟩ := h _ hm
  obtain ⟨hu, hp, kr⟩ := k ho _ ht
  exact ⟨hu, by rw [hp, ho, List.append_assoc], hr.trans kr⟩

theorem Sends.trans (h : Sends ops news s t) (k : Sends ops' news' t u) : Sends (ops ++ ops') (news ++ news') s u := h.bind fun _ => k

/-- A change that leaves the record queue, the events waiting and the input frame number sends nothing. -/
theorem Sends.same (hp : t.port = s.port := by rfl) (hr : t.post.raised = s.post.raised := by rfl)
    (hf : t.intake.frameNumber = s.intake.frameNumber := by rfl) : Sends [] [] s t := by
  intro m hm
  refine ⟨?_, ?_, .none hr hf⟩
  · rw [List.length_nil, Nat.zero_add] at hm
    unfold State.roomFor State.noneWait at *
    rwa [hp]
  · simp [State.ops, hp]

theorem Sends.refl (s : State) : Sends [] [] s s := .same

/-- After a change that sends nothing. -/
theorem Sends.after (h : Sends [] [] s t) (k : Sends ops news t u) : Sends ops news s u := h.trans k

/-- Before a change that sends nothing. -/
theorem Sends.before (h : Sends ops news s t) (k : Sends [] [] t u) : Sends ops news s u := by
  simpa using h.trans k

/-- Operations issued after what has been sent, with no event. -/
theorem Sends.thenOps (h : Sends ops news s t) (k : Sends ops' [] t u) : Sends (ops ++ ops') news s u := by
  simpa using h.trans k

/-- Events raised after what has been sent, with no operation. -/
theorem Sends.thenNews (h : Sends ops news s t) (k : Sends [] news' t u) : Sends ops (news ++ news') s u := by
  simpa using h.trans k

/-- An operation of which it is known what joins the queue, and which raises nothing. -/
theorem Sends.of_room (h : ∀ k, s.roomFor (k + ops.length) → t.ops = s.ops ++ ops ∧ t.roomFor k)
    (hp : t.post = s.post) (hi : t.intake = s.intake) : Sends ops [] s t := by
  intro k hk
  obtain ⟨ho, hroom⟩ := h k (by rwa [Nat.add_comm])
  exact ⟨hroom, ho, .none (by rw [hp]) (by rw [hi])⟩

/-- What a step sends is what it did. -/
theorem Sends.did (h : Sends ops news s u) (k : Unchanged (changed ++ .records :: closing) s u) : Did changed ops news s (s.closeWork u) :=
  .closeWork k fun hroom => by
    obtain ⟨-, ho, hf, l, hl, hn, hs⟩ := h 0 hroom
    refine ⟨ho, ?_, fun e he => ?_⟩
    · rw [← hn, State.news, hl, List.map_append]
      rfl
    · rw [hl, List.drop_left] at he
      rw [hs e he, hf]

theorem Sends.didOnly (h : Sends ops news s u) (k : Unchanged (changed ++ .records :: closing) s u) :
    DidOnly changed ops news s (s.close u) :=
  .close k fun hroom => by
    obtain ⟨-, ho, hf, l, hl, hn, hs⟩ := h 0 hroom
    refine ⟨ho, ?_, fun e he => ?_⟩
    · rw [← hn, State.news, hl, List.map_append]
      rfl
    · rw [hl, List.drop_left] at he
      rw [hs e he, hf]

/-! ## What each shared operation sends -/

theorem State.issue_sends (s : State) (actor issuer : Block) (op : RecordOp) : Sends [op] [] s (s.issue actor issuer op) :=
  .of_room (fun _ h => State.issue_room h _ _ _) (by simp) (by simp)

theorem State.issueWrite_sends (s : State) (actor issuer : Block) (runs : List (Nat × List Byte)) :
    Sends [writeRuns runs] [] s (s.issueWrite actor issuer runs) := s.issue_sends _ _ _

theorem State.liveField_sends (s : State) (actor : Block) (off size v : Nat) :
    Sends [fieldWrite off size v] [] s (s.liveField actor off size v) := s.issueWrite_sends _ _ _

theorem State.raise_sends (s : State) (o : Block) (k : EventKind) (n a b : Nat) :
    Sends [] [(o, k, n, a, b)] s (s.raise o k n a b) := by
  intro m hm
  rw [List.length_nil, Nat.zero_add] at hm
  rw [State.raise_room hm.1]
  exact ⟨hm, by simp [State.ops], rfl, [_], rfl, rfl, by simp⟩

theorem State.setCounter_sends (s : State) (n : Nat) : Sends (fieldChange (s.capture.counter = n) 0x0A 2 n) [] s (s.setCounter n) :=
  .of_room (fun _ h => State.setCounter_room n h) (by simp) (by simp)

theorem State.setLesson_sends (s : State) (b : Bool) :
    Sends (fieldChange (s.capture.lessonOpen = b) 1 1 (boolByte b)) [] s (s.setLesson b) :=
  .of_room (fun _ h => State.setLesson_room b h) (by simp) (by simp)

theorem State.setCredit_sends (s : State) (n : Nat) : Sends (fieldChange (s.capture.credit = n) 0x0C 1 n) [] s (s.setCredit n) :=
  .of_room (fun _ h => State.setCredit_room n h) (by simp) (by simp)

theorem State.setChain_sends (s : State) (b : Bool) : Sends (fieldChange (s.capture.running = b) 3 1 (boolByte b)) [] s (s.setChain b) :=
  .of_room (fun _ h => State.setChain_room b h) (by simp) (by simp)

theorem State.setContextState_sends (s : State) (c : ContextState) :
    Sends (fieldChange (s.capture.context.state = c) 2 1 c.value) [] s (s.setContextState c) :=
  .of_room (fun _ h => State.setContextState_room c h) (by simp) (by simp)

/-- A live field that changes is written. -/
theorem fieldChange_of_ne {p : Prop} [Decidable p] (h : ¬ p) (off size v : Nat) : fieldChange p off size v = [fieldWrite off size v] :=
  if_neg h

theorem State.changeMode_sends (s : State) (m : Mode) (c : Nat) :
    Sends [fieldWrite 0 1 m.value] [(.mode, .modeChanged, m.value, s.control.mode.value, c)] s (s.changeMode m c) := by
  unfold State.changeMode State.enterMode
  exact Sends.thenNews (Sends.after .same (State.liveField_sends _ _ _ _ _)) (State.raise_sends _ _ _ _ _ _)

/-! ## The page index -/

theorem State.writeEntry_sends (s : State) (b : Block) (n : Nat) (e : IndexEntry) :
    Sends [writeRuns [(0x1000 + 64 * n + 1, e.fieldBytes), (0x1000 + 64 * n, leBytes 1 e.state.value)]] [] s (s.writeEntry b n e) :=
  Sends.after (t := s.setEntry n e) .same (State.issueWrite_sends _ _ _ _)

theorem State.setEntryState_sends (s : State) (b : Block) (n : Nat) (x : EntryState) :
    Sends [writeOf (0x1000 + 64 * n) (leBytes 1 x.value)] [] s (s.setEntryState b n x) :=
  Sends.after (t := s.setEntry n _) .same (State.issueWrite_sends _ _ _ _)

/-! ## Post words (R168, R169) -/

section
variable (s : State) (rest : List Word)

@[simp] theorem State.wordTaken_intake : (s.wordTaken rest).intake = s.intake := by rw [State.wordTaken_eq]
@[simp] theorem State.wordTaken_monitor : (s.wordTaken rest).monitor = s.monitor := by rw [State.wordTaken_eq]
@[simp] theorem State.wordTaken_capture : (s.wordTaken rest).capture = s.capture := by rw [State.wordTaken_eq]
@[simp] theorem State.wordTaken_port : (s.wordTaken rest).port = s.port := by rw [State.wordTaken_eq]
@[simp] theorem State.wordTaken_post : (s.wordTaken rest).post = { s.post with fifo := rest } := by rw [State.wordTaken_eq]
@[simp] theorem State.wordTaken_mode : (s.wordTaken rest).control.mode = s.control.mode := by rw [State.wordTaken_eq]

theorem State.wordTaken_sends : Sends [] [] s (s.wordTaken rest) := .same (by simp) (by simp) (by simp)

end

/-- A step that leaves the FIFO, the hand and mode control as they are when the word has been taken. -/
theorem took_closeWork {w : Word} {rest : List Word} {kind : Nat} (h : s.holdsWord kind w rest)
    (hp : u.post.fifo = (s.wordTaken rest).post.fifo ∧ u.post.inHand = (s.wordTaken rest).post.inHand)
    (hc : u.control = (s.wordTaken rest).control) :
    Took rest s (s.closeWork u) ∧ (s.closeWork u).post.inHand = none := by
  obtain ⟨⟨-, -, hh, -⟩, -⟩ := h
  refine ⟨(s.wordTaken_took rest).of_same ?_ ?_, ?_⟩
  · rw [State.closeWork_post]
    exact hp.1
  · rw [State.closeWork_control]
    exact hc
  · rw [State.closeWork_post]
    exact hp.2.trans (by simpa using hh)

theorem State.refuse_of_free (h : s.free .post = true) (n : Nat) (w : Word) :
    s.refuse n w = { s with post.raised := s.post.raised ++
      [⟨.post, .postRefused, n, postKind w, postArgument w, s.intake.frameNumber, true⟩] } :=
  raise_of_free (by simpa [State.free] using h) _ _ _ _

/-- A word that the port or its owner refuses (R169). -/
theorem refusesWord_of {c : Instr} {w : Word} {rest : List Word} {kind n : Nat} (h : s.holdsWord kind w rest)
    (hx : exec c s = .next (s.closeWork ((s.wordTaken rest).refuse n w))) : RefusesWord c s w rest n := by
  have hf : (s.wordTaken rest).free .post = true := by
    have : s.free .post = true := h.1.2.2.2
    simpa [State.free, State.waiting] using this
  have hr := State.refuse_of_free hf n w
  obtain ⟨ht, hh⟩ := took_closeWork (u := (s.wordTaken rest).refuse n w) h (by rw [hr]; exact ⟨rfl, rfl⟩) (by rw [hr])
  refine ⟨_, hx, ht, hh, ?_, ?_⟩
  · rw [State.closeWork_news, hr]
    simp [State.news]
  · exact ((s.wordTaken_sends rest).after (State.raise_sends _ _ _ _ _ _)).did
      (.comp (s.wordTaken_unchanged rest) (State.refuse_unchanged _ n w) (by simp) (by simp))

/-- A word taken in STANDBY or LIVE whose argument is not legal is refused (R168). -/
theorem takeWord_illegal {kind : Nat} {w : Word} {rest : List Word} {allowed : Mode → Bool} {legal : Nat → Bool}
    {act : Word → State → State} (h : s.holdsWord kind w rest) (hr : s.control.mode ≠ .reset) (hb : s.control.mode ≠ .boot)
    (ha : allowed s.control.mode = true) (hl : legal (postArgument w) = false) :
    s.takeWord kind allowed legal act = .next (s.closeWork ((s.wordTaken rest).refuse 3 w)) := by
  unfold State.takeWord
  rw [headWord_some h.1 hr hb]
  simp [State.dispatch, ha, hl, refusedArgument]

/-- In STANDBY and in LIVE the port takes words of most kinds (R168). -/
theorem takesWords_of {m : Mode} (h : m = .standby ∨ m = .live) : m ≠ .reset ∧ m ≠ .boot ∧ m.takesWords = true := by
  rcases h with rfl | rfl <;> decide

end Sys2Proof.Machine
end

section

open Sys2Proof Sys2Proof.Machine

/-- Settles O33: the entry's state byte is written for a VALID entry, and the port or the monitor refuses every other word. -/
theorem pageForgetEmptiesAValidEntry : Obligations.PageForgetEmptiesAValidEntry := by
  intro s w rest hm h
  obtain ⟨hr, hb, ha⟩ := takesWords_of hm
  refine ⟨fun hn => refusesWord_of h (takeWord_illegal h hr hb ha (by simpa using hn)), fun hn hv => ?_, fun hn hv => ?_⟩
  · have hx := takeWord_of_holds (legal := fun a => decide (a ≤ 63)) (act := fun w t =>
      if (t.monitor.entry (postArgument w)).state = .valid then t.setEntryState .monitor (postArgument w) .empty
      else t.refuse refusedNotValid w) h hr hb ha (by simpa using hn)
    rw [if_pos (by simpa using hv)] at hx
    obtain ⟨ht, hh⟩ := took_closeWork (u := (s.wordTaken rest).setEntryState .monitor (postArgument w) .empty) h
      (by simp [State.setEntryState]) (by simp [State.setEntryState])
    refine ⟨_, hx, ht, hh, by simp [State.setEntryState, State.setEntry], ?_⟩
    exact ((s.wordTaken_sends rest).after (State.setEntryState_sends _ _ _ _)).did
      (.comp (s.wordTaken_unchanged rest) (State.setEntryState_unchanged _ _ _ _) (by simp) (by simp))
  · refine refusesWord_of h ((takeWord_of_holds h hr hb ha (by simpa using hn)).trans ?_)
    rw [if_neg (by simpa using hv)]
    rfl

end

section
/-! SUPPORT. What the page monitor does with the means of a frame: loaded, classified, or judged a STILL frame (R19 to R32). -/

namespace Sys2Proof.Machine

set_option Elab.async false

variable {s t u : State} {f : TileStats} {later : List TileStats} {means : List Nat}

/-! ## Active tiles (R20, R21) -/

/-- The active tiles, counted with the difference of the means to either side. -/
theorem activeTiles_eq (u : Setup) (previous means : List Nat) :
    activeTiles u previous means =
      ((List.range 192).filter fun i => !u.mask.getLsbD i
        && decide (u.threshold ≤ (means.getD i 0 - previous.getD i 0) + (previous.getD i 0 - means.getD i 0))).length := by
  rw [activeTiles, List.countP_eq_length_filter]
  congr 1
  refine List.filter_congr fun i _ => ?_
  have e : ((means.getD i 0 : Int) - (previous.getD i 0 : Int)).natAbs
      = (means.getD i 0 - previous.getD i 0) + (previous.getD i 0 - means.getD i 0) := by omega
  rw [tileActive, Setup.masked, e]

/-! ## The step of a frame's means (R19) -/

/-- The means of a frame have left the intake. -/
def State.meansTaken (s : State) (later : List TileStats) : State := { s with intake.meansOut := later }

/-- The means of the frame are the previous ones. -/
def State.loaded (s : State) (f : TileStats) : State := { s with monitor.previous := some (f.means, f.geometry) }

/-- With no timeout due, the frame's means are judged where they can be compared, and then loaded (R19). -/
theorem execTileMeansArrival_of (h : s.intake.meansOut = f :: later) (hf : s.free .monitor = true) (ht : s.monitor.timeoutDue = false) :
    execTileMeansArrival s = .next (s.closeWork (((s.meansTaken later).judgeMeans f).loaded f)) := by
  have hr : (s.meansTaken later).resolveTimeout = s.meansTaken later := if_neg (by simpa [State.meansTaken] using ht)
  have he : execTileMeansArrival s = .next (s.closeWork ((s.meansTaken later).takeMeans f)) := by
    unfold execTileMeansArrival
    rw [h, hf]
    rfl
  rw [he, State.takeMeans, hr]
  rfl

theorem State.loaded_unchanged (s : State) (f : TileStats) : Unchanged [.pattern] s (s.loaded f) := by
  intro p hp
  cases p <;> simp_all [same, State.loaded]

theorem State.meansTaken_unchanged (s : State) (later : List TileStats) : Unchanged [.statistics] s (s.meansTaken later) := by
  intro p hp
  cases p <;> simp_all [same, State.meansTaken]

theorem State.setPatternDue_unchanged (s : State) (p : Pattern) (b : Bool) :
    Unchanged [.pattern] s { s.setPattern p with monitor.timeoutDue := b } := by
  intro q hq
  cases q <;> simp_all [same, State.setPattern]

/-- Without previous means to compare with, or in SHUTTING, the means are only loaded (R19). -/
theorem State.judgeMeans_load
    (h : s.monitor.previous = none ∨ (∃ means g, s.monitor.previous = some (means, g) ∧ g ≠ f.geometry) ∨ s.monitor.view = .shutting) :
    s.judgeMeans f = s := by
  have none : s.comparable f = none := by
    unfold State.comparable
    rcases h with h | ⟨means, g, h, hg⟩ | h
    · rw [h]
    · simp [h, hg]
    · split
      · exact if_neg fun k => k.2.1 h
      · rfl
  rw [State.judgeMeans, none]

/-- Otherwise the frame is classified by its active tiles (R20, R21). -/
theorem State.judgeMeans_classify (h : s.monitor.previous = some (means, f.geometry)) (h1 : s.monitor.view ≠ .shutting)
    (h2 : s.monitor.view ≠ .powerdown) : s.judgeMeans f = s.classify means f := by
  have some : s.comparable f = some means := by
    unfold State.comparable
    rw [h]
    exact if_pos ⟨rfl, h1, h2⟩
  rw [State.judgeMeans, some]

/-- A frame that is not MOVING, or finds no capture waiting for a pin, moves the pattern alone (R112). -/
theorem State.classify_eq {c : FrameClass} (hc : frameClass s.post.setup (activeTiles s.post.setup means f.means) = c)
    (h : c ≠ .moving ∨ s.capture.context.state ≠ .waitingPin) :
    s.classify means f = s.judgePattern (s.monitor.pattern.step s.post.setup c) f := by
  have tell : s.tellMoving c = s := if_neg fun k => h.elim (· k.1) (· k.2)
  rw [State.classify, hc, tell]

/-- A frame that is not STILL leaves the pattern after R22, due to time out where its age has reached the window (R23). -/
theorem State.judgePattern_of_not_still {p : Pattern} (h : ¬ (p.state = .settling ∧ s.post.setup.settleFrames ≤ p.stillRun)) :
    s.judgePattern p f =
      { s.setPattern p with monitor.timeoutDue := decide (p.state ≠ .settled ∧ s.post.setup.window ≤ p.age) } := by
  have ns : p.still s.post.setup = false := by simpa [Pattern.still] using h
  rw [State.judgePattern, if_neg (by simp [ns]), Pattern.timesOut, Bool.decide_and]

/-- R22's table by the number of active tiles: the state, the motion run, the still run and the age after the frame. -/
def Pattern.row (u : Setup) (n : Nat) (p : Pattern) : PageState × Nat × Nat × Nat :=
  if u.motionTiles ≤ n then
    match p.state with
    | .settled => (.moving, 1, 0, 1)
    | .moving => (.moving, min 255 (p.motionRun + 1), p.stillRun, p.age + 1)
    | .settling => (.moving, 1, 0, p.age + 1)
  else if n ≤ u.quietTiles then
    match p.state with
    | .settled => (.settled, p.motionRun, p.stillRun, p.age)
    | .moving =>
      (if u.motionMin ≤ p.motionRun then (.settling, p.motionRun, 1, p.age + 1) else (.settled, p.motionRun, p.stillRun, p.age + 1))
    | .settling => (.settling, p.motionRun, p.stillRun + 1, p.age + 1)
  else
    match p.state with
    | .settled => (.settled, p.motionRun, p.stillRun, p.age)
    | .moving => (.moving, min 255 (p.motionRun + 1), p.stillRun, p.age + 1)
    | .settling => (.settling, p.motionRun, 0, p.age + 1)

theorem Pattern.step_eq_row (u : Setup) (n : Nat) (p : Pattern) :
    p.step u (frameClass u n) = ⟨(p.row u n).1, (p.row u n).2.1, (p.row u n).2.2.1, (p.row u n).2.2.2⟩ := by
  obtain ⟨st, mr, sr, age⟩ := p
  unfold frameClass Pattern.row
  split
  · cases st <;> rfl
  · split
    · cases st with
      | moving => by_cases h : u.motionMin ≤ mr <;> simp [Pattern.step, h]
      | _ => rfl
    · cases st <;> rfl

theorem frameClass_moving {u : Setup} {n : Nat} : frameClass u n = .moving ↔ u.motionTiles ≤ n := by
  unfold frameClass
  split
  · simpa
  · split <;> simp <;> omega

end Sys2Proof.Machine
end

section

open Sys2Proof Sys2Proof.Machine

/-- Settles O30: the means are loaded, or the pattern takes the row of its state and class. -/
theorem meansLoadOrClassify : Obligations.MeansLoadOrClassify := by
  intro s f later h hf ht
  have hx := execTileMeansArrival_of h hf ht
  refine ⟨fun hload => ⟨_, hx, ?_⟩, fun means hp h1 h2 hpin hstill => ⟨_, hx, ?_⟩⟩
  · rw [State.judgeMeans_load (s := s.meansTaken later) hload]
    refine ⟨⟨by simp [State.loaded, State.meansTaken], by simp [State.loaded, State.meansTaken],
      by simp [State.loaded, State.meansTaken], .quiet ?_⟩, by simp [State.loaded, State.meansTaken]⟩
    exact .comp (s.meansTaken_unchanged later) (State.loaded_unchanged _ f)
  · have hn := activeTiles_eq s.post.setup means f.means
    rw [State.judgeMeans_classify (s := s.meansTaken later) hp h1 h2]
    have hc : frameClass s.post.setup (activeTiles s.post.setup means f.means) ≠ .moving ∨ s.capture.context.state ≠ .waitingPin := by
      rw [Ne, frameClass_moving, hn, Nat.not_le]
      exact hpin.symm
    rw [State.classify_eq (s := s.meansTaken later) rfl hc]
    have hrow := Pattern.step_eq_row s.post.setup (activeTiles s.post.setup means f.means) s.monitor.pattern
    rw [show (s.meansTaken later).monitor.pattern = s.monitor.pattern from rfl,
      show (s.meansTaken later).post.setup = s.post.setup from rfl, hrow]
    rw [hn]
    rw [State.judgePattern_of_not_still (s := s.meansTaken later) hstill]
    refine ⟨⟨by simp [State.loaded, State.meansTaken, State.setPattern], by simp [State.loaded, State.meansTaken, State.setPattern],
      by simp [State.loaded, State.meansTaken, State.setPattern], .quiet ?_⟩, ?_⟩
    · exact .comp (.comp (s.meansTaken_unchanged later) (State.setPatternDue_unchanged _ _ _) (c := [.statistics, .pattern]))
        (State.loaded_unchanged _ f)
    · rw [State.closeWork_monitor]
      rfl

end

section
/-! SUPPORT. The STILL frame in LIVE and in STANDBY (R23, R26 to R32, R184). -/

namespace Sys2Proof.Machine

set_option Elab.async false

variable {s t u : State} {f : TileStats} {later : List TileStats} {means : List Nat}

/-! ## The end of the pattern (R23) -/

/-- The frame's means have left the intake, and the pattern has ended. -/
def State.patternOver (s : State) (later : List TileStats) : State := (s.meansTaken later).setPattern settledPattern

theorem State.patternOver_unchanged (s : State) (later : List TileStats) : Unchanged [.statistics, .pattern] s (s.patternOver later) := by
  intro p hp
  cases p <;> simp_all [same, State.patternOver, State.meansTaken, State.setPattern]

/-- A pattern that ends at a STILL frame: what is left of it, whatever the STILL frame does besides. -/
theorem patternEnded_of (h : ∃ l i, u.monitor = { (s.patternOver later).monitor with levels := l, index := i })
    (hi : u.intake = (s.patternOver later).intake) (ht : s.monitor.timeoutDue = false) :
    PatternEnded s (s.closeWork (u.loaded f)) f later := by
  obtain ⟨l, i, h⟩ := h
  have hi' : (s.closeWork (u.loaded f)).intake = (s.patternOver later).intake := by rw [State.closeWork_intake]; exact hi
  have hm : (s.closeWork (u.loaded f)).monitor
      = { { (s.patternOver later).monitor with levels := l, index := i } with previous := some (f.means, f.geometry) } := by
    rw [State.closeWork_monitor, ← h]
    rfl
  rw [PatternEnded, hi', hm]
  exact ⟨rfl, rfl, rfl, rfl, rfl, rfl, rfl, rfl, ht⟩

/-- At a STILL frame the pattern ends, and the STILL frame in LIVE or in STANDBY follows (R23). -/
theorem stillAt_exec (h : s.StillAt f later means) (hv : s.monitor.view = .live ∨ s.monitor.view = .standby) :
    execTileMeansArrival s = .next (s.closeWork
      ((if s.monitor.view = .live then (s.patternOver later).stillLive f
        else (s.patternOver later).stillStandby (s.monitor.patternAge + 1)).loaded f)) := by
  obtain ⟨hm, hf, ht, hp, hn, hq, hstill⟩ := h
  rw [← activeTiles_eq] at hn hq
  have quiet : frameClass s.post.setup (activeTiles s.post.setup means f.means) = .quiet := by
    rw [frameClass, if_neg (Nat.not_le.2 hn), if_pos hq]
  have step : ∃ p : Pattern, s.monitor.pattern.step s.post.setup .quiet = p ∧ p.still s.post.setup = true
      ∧ p.age = s.monitor.patternAge + 1 := by
    refine ⟨_, rfl, ?_⟩
    rcases hstill with ⟨h1, h2⟩ | ⟨h1, h2, h3⟩
    · simp [Pattern.step, Monitor.pattern, h1, Pattern.still, h2]
    · simp [Pattern.step, Monitor.pattern, h1, Pattern.still, h2, h3]
  obtain ⟨p, hp', hs, hage⟩ := step
  have h1 : s.monitor.view ≠ .shutting := by rcases hv with h | h <;> simp [h]
  have h2 : s.monitor.view ≠ .powerdown := by rcases hv with h | h <;> simp [h]
  rw [execTileMeansArrival_of hm hf ht, State.judgeMeans_classify (s := s.meansTaken later) hp h1 h2,
    State.classify_eq (s := s.meansTaken later) quiet (.inl (by decide)),
    show (s.meansTaken later).monitor.pattern.step (s.meansTaken later).post.setup .quiet = p from hp', State.judgePattern,
    if_pos (show p.still (s.meansTaken later).post.setup = true from hs), hage]
  rfl

/-! ## The levels of a frame (R27) -/

theorem mem_unmaskedMeans {u : Setup} {means : List Nat} (h : means.length = 192) {m : Nat} :
    m ∈ unmaskedMeans u means ↔ ∃ i, (i < 192 ∧ u.mask.getLsbD i = false) ∧ means.getD i 0 = m := by
  unfold unmaskedMeans
  rw [List.mem_filterMap]
  constructor
  · rintro ⟨⟨x, i⟩, hx, hm⟩
    rw [List.mem_zipIdx_iff_getElem?, List.getElem?_eq_some_iff] at hx
    dsimp only at hm hx
    obtain ⟨hi, rfl⟩ := hx
    split at hm
    · cases hm
    · rename_i hk
      cases hm
      exact ⟨i, ⟨h ▸ hi, by simpa [Setup.masked] using hk⟩, by simp [List.getD_eq_getElem?_getD, hi]⟩
  · rintro ⟨i, ⟨hi, hk⟩, rfl⟩
    have hi' : i < means.length := h ▸ hi
    refine ⟨(means.getD i 0, i), ?_, by simp [Setup.masked, hk]⟩
    rw [List.mem_zipIdx_iff_getElem?, List.getD_eq_getElem?_getD, List.getElem?_eq_getElem hi']
    rfl

/-- With an unmasked tile, the levels are the least and the greatest unmasked mean (R27). -/
theorem levelsOf_spec {u : Setup} {means : List Nat} (h : unmaskedMeans u means ≠ []) :
    (levelsOf u means).black ∈ unmaskedMeans u means ∧ (levelsOf u means).white ∈ unmaskedMeans u means
      ∧ (∀ m ∈ unmaskedMeans u means, (levelsOf u means).black ≤ m ∧ m ≤ (levelsOf u means).white)
      ∧ ((levelsOf u means).valid = true ↔ 16 ≤ (levelsOf u means).white - (levelsOf u means).black) := by
  unfold levelsOf
  cases hl : unmaskedMeans u means with
  | nil => exact absurd hl h
  | cons m ms =>
    obtain ⟨hb, hbl⟩ := List.min?_eq_some_iff.1 (rfl : (m :: ms).min? = some (ms.foldl min m))
    obtain ⟨hw, hwl⟩ := List.max?_eq_some_iff.1 (rfl : (m :: ms).max? = some (ms.foldl max m))
    exact ⟨hb, hw, fun x hx => ⟨hbl x hx, hwl x hx⟩, decide_eq_true_iff⟩

end Sys2Proof.Machine
end

section
/-! SUPPORT. What the STILL frame sends, in LIVE and in STANDBY. -/

namespace Sys2Proof.Machine

set_option Elab.async false

variable {s t u : State} {f : TileStats} {later : List TileStats}

/-! ## The STILL frame in LIVE (R26 to R31) -/

/-- The levels of the STILL frame are latched (R26). -/
def State.latched (s : State) (f : TileStats) : State := { s with monitor.levels := levelsOf s.post.setup f.means }

theorem State.latched_unchanged (s : State) (f : TileStats) : Unchanged [.levels] s (s.latched f) := by
  intro p hp
  cases p <;> simp_all [same, State.latched]

/-- With no lesson open nothing more happens (R26). -/
theorem stillLive_no_lesson (h : s.capture.lessonOpen = false) : s.stillLive f = s.latched f :=
  if_pos (by simp [h])

/-- A match is seen (R29, R30). -/
theorem stillLive_match {n d : Nat} (h : s.capture.lessonOpen = true)
    (hl : lookup s.post.setup (signatureOf s.post.setup f.means (levelsOf s.post.setup f.means)) s.monitor.index = some (n, d)) :
    s.stillLive f = (s.latched f).pageSeen n d f.frame := by
  unfold State.stillLive
  dsimp only
  rw [if_neg (by simp [h]), hl]
  rfl

/-- The AUTO decision of the STILL frame goes to the capture unit (R31). -/
def State.decides (s : State) (f : TileStats) : State :=
  { s.latched f with capture.decisions := s.capture.decisions ++
      [⟨f.frame, signatureOf s.post.setup f.means (levelsOf s.post.setup f.means), levelsOf s.post.setup f.means, false, false, false⟩] }

theorem State.decides_unchanged (s : State) (f : TileStats) : Unchanged [.levels, .decisions] s (s.decides f) := by
  intro p hp
  cases p <;> simp_all [same, State.decides, State.latched]

/-- Without a match the AUTO decision goes to the capture unit, if it may (R31). -/
theorem stillLive_new (h : s.capture.lessonOpen = true)
    (hl : lookup s.post.setup (signatureOf s.post.setup f.means (levelsOf s.post.setup f.means)) s.monitor.index = none) :
    s.stillLive f = if s.post.setup.autoCapture = true ∧ s.intake.suspended = false then s.decides f else s.latched f := by
  unfold State.stillLive
  dsimp only
  rw [if_neg (by simp [h]), hl]
  rfl

theorem State.pageSeen_sends (s : State) (n d frame : Nat) :
    Sends
      [writeRuns [(0x1000 + 64 * n + 1, leBytes 1 (min 255 ((s.monitor.entry n).seen + 1))), (0x1000 + 64 * n + 8, leBytes 4 frame),
        (0x1000 + 64 * n, leBytes 1 (s.monitor.entry n).state.value)]]
      [(.monitor, .pageSeen, n, (s.monitor.entry n).page, d)] s (s.pageSeen n d frame) :=
  ((Sends.same : Sends [] [] s (s.setEntry n _)).after (State.issueWrite_sends _ _ _ _)).thenNews (State.raise_sends _ _ _ _ _ _)

theorem State.pageSeen_monitor (s : State) (n d frame : Nat) :
    (s.pageSeen n d frame).monitor =
      { s.monitor with
        index := s.monitor.index.set n
          { s.monitor.entry n with seen := min 255 ((s.monitor.entry n).seen + 1), lastSeen := frame } } := by
  unfold State.pageSeen
  simp only [State.raise_monitor, State.issueWrite_monitor]
  rfl

theorem State.pageSeen_intake (s : State) (n d frame : Nat) : (s.pageSeen n d frame).intake = s.intake := by
  unfold State.pageSeen
  simp only [State.raise_intake, State.issueWrite_intake]
  rfl

/-! ## The STILL frame in STANDBY (R32, R184) -/

/-- The part wakes: the mode is LIVE, and the reaction timer starts with the host wait (R184). -/
theorem wake_of (h : s.control.mode = .standby) (ha : s.post.setup.autoWake = true) :
    s.wake = { s.changeMode .live 2 with control := { (s.changeMode .live 2).control with
      timerOn := decide (s.post.setup.hostWait ≠ 0), timerCount := 0, timerWait := s.post.setup.hostWait } } :=
  if_pos ⟨h, ha⟩

/-- The wake changes the mode and the reaction timer (R182, R184). -/
theorem State.wake_kept (s : State) : Unchanged [.mode, .announcements, .timer, .records, .raised, .arbiter] s s.wake := by
  unfold State.wake
  simp only []
  split
  · refine .comp (s.changeMode_kept .live causePresence (by decide)) (b := [.timer]) (fun p hp => ?_)
    cases p <;> simp_all [same]
  · exact .refl s

theorem wake_of_not (h : s.control.mode ≠ .standby ∨ s.post.setup.autoWake = false) : s.wake = s :=
  if_neg fun k => h.elim (· k.1) fun h => by simp [h] at k

end Sys2Proof.Machine
end

section

open Sys2Proof Sys2Proof.Machine

/-- Settles O31: the levels are the least and the greatest unmasked mean, and the STILL frame ends by its lookup. -/
theorem aStillFrameInLiveSeesOrDecides : Obligations.AStillFrameInLiveSeesOrDecides := by
  intro s f later means hs hv hlen
  have hx := stillAt_exec hs (.inl hv)
  rw [if_pos hv] at hx
  have ht := hs.2.2.1
  have ends := s.patternOver_unchanged later
  refine ⟨fun hall => ?_, fun ⟨i, hi⟩ => ?_, fun hl => ⟨_, hx, ?_⟩, fun hl n d hm => ⟨_, hx, ?_⟩, fun hl hm => ⟨fun ha hsu => ⟨_, hx, ?_⟩,
    fun hno => ⟨_, hx, ?_⟩⟩⟩
  · have : unmaskedMeans s.post.setup f.means = [] := List.eq_nil_iff_forall_not_mem.2 fun m hm => by
      obtain ⟨i, hi, -⟩ := (mem_unmaskedMeans hlen).1 hm
      exact hall i hi
    rw [levelsOf, this]
  · have hne : unmaskedMeans s.post.setup f.means ≠ [] := List.ne_nil_of_mem ((mem_unmaskedMeans hlen).2 ⟨i, hi, rfl⟩)
    obtain ⟨hb, hw, hall, hvalid⟩ := levelsOf_spec hne
    exact ⟨(mem_unmaskedMeans hlen).1 hb, (mem_unmaskedMeans hlen).1 hw,
      fun k hk => hall _ ((mem_unmaskedMeans hlen).2 ⟨k, hk, rfl⟩), hvalid⟩
  · rw [stillLive_no_lesson (s := s.patternOver later) hl]
    refine ⟨⟨patternEnded_of ⟨_, _, rfl⟩ rfl ht, by rw [State.closeWork_monitor]; rfl⟩, .quiet ?_⟩
    exact .comp (.comp ends (State.latched_unchanged _ f) (c := [.statistics, .pattern, .levels])) (State.loaded_unchanged _ f)
  · rw [stillLive_match (s := s.patternOver later) hl hm]
    refine ⟨⟨patternEnded_of ⟨_, _, by rw [State.pageSeen_monitor]; rfl⟩ (by rw [State.pageSeen_intake]; rfl) ht, ?_⟩, ?_, ?_⟩
    · rw [State.closeWork_monitor, State.loaded, State.pageSeen_monitor]
      rfl
    · rw [State.closeWork_monitor, State.loaded, State.pageSeen_monitor]
      rfl
    · refine Sends.did (((Sends.same : Sends [] [] s ((s.patternOver later).latched f)).after (State.pageSeen_sends _ _ _ _)).before .same) ?_
      exact .comp (.comp (.comp ends (State.latched_unchanged _ f) (c := [.statistics, .pattern, .levels])) (State.pageSeen_unchanged _ _ _ _)
        (c := [.statistics, .pattern, .levels, .index, .records, .arbiter, .raised])) (State.loaded_unchanged _ f)
  · rw [stillLive_new (s := s.patternOver later) hl hm, if_pos ⟨ha, hsu⟩]
    refine ⟨⟨patternEnded_of ⟨_, _, rfl⟩ rfl ht, by rw [State.closeWork_monitor]; rfl⟩, ?_, .quiet ?_⟩
    · rw [State.closeWork_capture]
      rfl
    · exact .comp (.comp ends (State.decides_unchanged _ f) (c := [.statistics, .pattern, .levels, .decisions])) (State.loaded_unchanged _ f)
  · rw [stillLive_new (s := s.patternOver later) hl hm, if_neg fun k =>
      hno.elim (fun h => Bool.false_ne_true (h.symm.trans k.1)) fun h => Bool.false_ne_true (k.2.symm.trans h)]
    refine ⟨⟨patternEnded_of ⟨_, _, rfl⟩ rfl ht, by rw [State.closeWork_monitor]; rfl⟩, .quiet ?_⟩
    exact .comp (.comp ends (State.latched_unchanged _ f) (c := [.statistics, .pattern, .levels])) (State.loaded_unchanged _ f)

/-- Settles O32: PRESENCE and the wake at the STILL frame in STANDBY, and the timeout that is due. -/
theorem presenceWakesAndPatternsTimeOut : Obligations.PresenceWakesAndPatternsTimeOut := by
  refine ⟨fun s f later means hs hv => ?_, fun s ht hf => ?_⟩
  · have hx := stillAt_exec hs (.inr hv)
    rw [if_neg (by rw [hv]; decide)] at hx
    have ht := hs.2.2.1
    have ends := s.patternOver_unchanged later
    refine ⟨fun hm ha => ⟨_, hx, ?_⟩, fun hno => ⟨_, hx, ?_⟩⟩
    · have hsetup := (State.raise_unchanged (s.patternOver later) .monitor .presence 0 (s.monitor.patternAge + 1) 0 .setup (by decide)).1
      have hw := wake_of (s := (s.patternOver later).raise .monitor .presence 0 (s.monitor.patternAge + 1) 0)
        (by rw [State.raise_control]; exact hm) (by rw [hsetup]; exact ha)
      have sent := ((Sends.same : Sends [] [] s (s.patternOver later)).after
        (State.raise_sends (s.patternOver later) .monitor .presence 0 (s.monitor.patternAge + 1) 0)).trans (State.changeMode_sends _ .live 2)
      rw [State.raise_control, show (s.patternOver later).control.mode = .standby from hm] at sent
      have wakes := State.wake_kept ((s.patternOver later).raise .monitor .presence 0 (s.monitor.patternAge + 1) 0)
      rw [State.stillStandby]
      rw [hw] at wakes ⊢
      refine ⟨patternEnded_of ⟨(s.patternOver later).monitor.levels, (s.patternOver later).monitor.index, ?_⟩ ?_ ht, ?_, ?_, ?_, ?_, ?_, (sent.before .same).did ?_⟩
      · rw [State.changeMode_monitor, State.raise_monitor]
      · rw [State.changeMode_intake, State.raise_intake]
      · rw [State.closeWork_control, State.loaded, State.changeMode_control]
      · rw [State.closeWork_control]
        exact congrArg (fun u : Setup => decide (u.hostWait ≠ 0)) hsetup
      · rw [State.closeWork_control]
        rfl
      · rw [State.closeWork_control]
        exact congrArg Setup.hostWait hsetup
      · rw [State.closeWork_control, State.loaded, State.changeMode_control, State.raise_control]
        rfl
      · exact .comp (.comp (.comp ends (State.raise_unchanged _ _ _ _ _ _) (c := [.statistics, .pattern, .raised, .records])) wakes
          (c := [.statistics, .pattern, .raised, .records, .mode, .announcements, .timer, .arbiter])) (State.loaded_unchanged _ f)
    · have hw : State.wake ((s.patternOver later).raise .monitor .presence 0 (s.monitor.patternAge + 1) 0) = _ := wake_of_not <| by
        rw [State.raise_control, (State.raise_unchanged _ _ _ _ _ _ .setup (by decide)).1]
        exact hno
      rw [State.stillStandby, hw]
      refine ⟨patternEnded_of ⟨(s.patternOver later).monitor.levels, (s.patternOver later).monitor.index, ?_⟩ ?_ ht, Sends.did ?_ ?_⟩
      · rw [State.raise_monitor]
      · rw [State.raise_intake]
      · exact ((Sends.same : Sends [] [] s (s.patternOver later)).after (State.raise_sends _ _ _ _ _ _)).before .same
      · exact .comp (.comp ends (State.raise_unchanged _ _ _ _ _ _) (c := [.statistics, .pattern, .raised, .records]))
          (State.loaded_unchanged _ f)
  · refine ⟨_, show execPatternTimeout s = _ from if_pos ⟨ht, hf⟩, ?_, Sends.didOnly ?_ ?_⟩
    · rw [State.close_monitor, State.endPattern]
      exact State.raise_monitor _ _ _ _ _ _
    · exact Sends.after (.same : Sends [] [] s { s.setPattern settledPattern with monitor.timeoutDue := false })
        (State.raise_sends _ _ _ _ _ _)
    · exact s.endPattern_unchanged.mono (by simp)

end

section
/-! SUPPORT. The end of a capture and the words of a lesson: what they leave in the capture unit and in the page index, and what they send (R42,
R105, R106, R123). -/

namespace Sys2Proof.Machine

set_option Elab.async false

variable {s t u : State} {ops : List RecordOp} {news : List (Block × EventKind × Nat × Nat × Nat)}

/-! ## The engine's taking of work -/

theorem State.startUnit_capture (s : State) (w : Work) (ps : List Part) : (s.startUnit w ps).capture = s.capture := by
  obtain ⟨e, g, l, p, h⟩ := s.startUnit_is w ps
  rw [h]

/-- Taking work moves a RENDERING capture alone (R94). -/
theorem takeWork_capture_of (h : u.capture.context.state ≠ .rendering) : u.takeWork.capture = u.capture := by
  unfold State.takeWork
  split
  · rfl
  split
  · exact State.startUnit_capture _ _ _
  split
  · exact absurd (offeredCapture_some ‹_›).1 h
  split
  · unfold State.startJobPiece
    dsimp only
    split <;> exact State.startUnit_capture _ _ _
  split
  · exact (u.scanFrom_spec _ _).2.2.2.2.2.2.2.1
  · rfl

theorem closeWork_capture_of (s0 : State) (h : u.capture.context.state ≠ .rendering) : (s0.closeWork u).capture = u.capture := by
  rw [State.closeWork, State.close_capture, takeWork_capture_of h]

/-! ## A descriptor read disregarded (R115) -/

/-- None of these operations reads a descriptor. -/
def NoneReads (ops : List RecordOp) : Prop := ∀ a got, RecordOp.read .descriptor a got ∉ ops

theorem noneReads_append {l m : List RecordOp} : NoneReads (l ++ m) ↔ NoneReads l ∧ NoneReads m := by
  simp [NoneReads, forall_and]

theorem noneReads_write (r : List (Nat × List Byte)) (l : List RecordOp) : NoneReads (writeRuns r :: l) ↔ NoneReads l := by
  simp [NoneReads, writeRuns]

theorem noneReads_nil : NoneReads [] := fun _ _ => List.not_mem_nil

theorem disregardDescriptor_of (h : NoneReads ops) : ops.map disregardDescriptor = ops := by
  refine (List.map_congr_left fun op hop => ?_).trans (List.map_id ops)
  unfold disregardDescriptor
  split
  · exact absurd hop (h _ _)
  · rfl

/-- With no descriptor read in the record queue, none is disregarded. -/
theorem Sends.abandonRead (h : Sends ops news s t) (hs : s.noDescriptorRead) (ho : NoneReads ops) : Sends ops news s t.abandonRead := by
  intro m hm
  obtain ⟨⟨⟨hb, hl⟩, hq⟩, hops, hr⟩ := h m hm
  have hn : NoneReads t.port.queue := by
    have : t.ops = t.port.queue := by simp [State.ops, hb]
    rw [← this, hops, noneReads_append]
    exact ⟨hs, ho⟩
  have he : t.abandonRead.port.queue = t.port.queue := disregardDescriptor_of hn
  have hb' : t.abandonRead.port.blocked = [] := by simp [State.abandonRead, hb]
  refine ⟨⟨⟨hb', by simp [State.abandonRead, hl]⟩, by rwa [he]⟩, ?_, hr⟩
  rw [← hops]
  simp [State.ops, he, hb, hb']

/-! ## A missed capture (R123) -/

/-- The slots with the capture's pin taken off this one, if it has one. -/
def withoutPin (p : Option Nat) (slots : List Slot) : List Slot :=
  match p with
  | some n => slots.modify n fun x => { x with pinCapture := false }
  | none => slots

theorem State.dropCapturePin_intake (s : State) :
    s.dropCapturePin.intake = { s.intake with slots := withoutPin s.capture.context.pinned s.intake.slots } := by
  unfold State.dropCapturePin
  split <;> rename_i h <;> rw [h] <;> rfl

theorem State.dropCapturePin_monitor (s : State) : s.dropCapturePin.monitor = s.monitor := by
  unfold State.dropCapturePin; split <;> rfl

theorem State.dropCapturePin_capture (s : State) : s.dropCapturePin.capture = s.capture := by
  unfold State.dropCapturePin; split <;> rfl

theorem State.dropCapturePin_sends (s : State) : Sends [] [] s s.dropCapturePin := by
  unfold State.dropCapturePin; split <;> exact .same

theorem State.withdraw_intake (s : State) : s.withdraw.intake = s.intake := by
  unfold State.withdraw State.setEntryState; split <;> simp

theorem State.withdraw_capture (s : State) : s.withdraw.capture = s.capture := by
  unfold State.withdraw State.setEntryState; split <;> simp

theorem State.withdraw_of {k : Nat} (h : s.capture.context.entry = some k) : s.withdraw = s.setEntryState .capture k .empty := by
  unfold State.withdraw; rw [h]

theorem State.clearContext_intake (s : State) : s.clearContext.intake = s.intake := by simp [State.clearContext]

theorem State.clearContext_monitor (s : State) : s.clearContext.monitor = s.monitor := by simp [State.clearContext]

theorem State.clearContext_capture (s : State) :
    s.clearContext.capture =
      { s.capture with context := {}, slotWaiting := false, slotCount := 0, slotExpired := false, read := .idle } := by
  simp [State.clearContext, State.abandonRead, State.stopCount]

/-- The capture unit has no capture in hand, counts no slot wait and reads no descriptor. -/
theorem State.missCapture_capture (s : State) (r : Nat) :
    (s.missCapture r).capture =
      { s.capture with context := {}, slotWaiting := false, slotCount := 0, slotExpired := false, read := .idle } := by
  simp only [State.missCapture, State.raise_capture, State.clearContext_capture, State.withdraw_capture, State.dropCapturePin_capture]

theorem State.missCapture_intake (s : State) (r : Nat) : (s.missCapture r).intake = s.dropCapturePin.intake := by
  simp only [State.missCapture, State.raise_intake, State.clearContext_intake, State.withdraw_intake]

theorem State.missCapture_index {k : Nat} (h : s.capture.context.entry = some k) (r : Nat) :
    (s.missCapture r).monitor.index = s.monitor.index.set k { s.monitor.entry k with state := .empty } := by
  have hw := State.withdraw_of (s := s.dropCapturePin) (by rw [State.dropCapturePin_capture]; exact h)
  simp only [State.missCapture, State.raise_monitor, State.clearContext_monitor, hw, State.setEntryState, State.issueWrite_monitor,
    State.setEntry, State.dropCapturePin_monitor]

/-- What has been sent, and then the state of the entry withdrawn, the state of the context and CAPTURE_MISSED. -/
theorem Sends.missCapture (h : Sends ops news s t) (hs : s.noDescriptorRead) (ho : NoneReads ops) {k : Nat}
    (hk : t.capture.context.entry = some k) (hc : t.capture.context.state ≠ .idle) (r : Nat) :
    Sends (ops ++ [writeOf (0x1000 + 64 * k) [0#8], fieldWrite 2 1 0])
      (news ++ [(.capture, .captureMissed, r, t.capture.context.page, t.capture.context.reason.value)]) s (t.missCapture r) := by
  have hd := t.dropCapturePin_capture
  have hw := State.withdraw_of (s := t.dropCapturePin) (by rw [hd]; exact hk)
  have withdrawn : Sends (ops ++ [writeOf (0x1000 + 64 * k) [0#8]]) news s t.dropCapturePin.withdraw := by
    rw [hw]
    exact (h.before t.dropCapturePin_sends).thenOps (State.setEntryState_sends _ _ _ _)
  have cleared := withdrawn.thenOps (State.setContextState_sends _ .idle)
  rw [fieldChange_of_ne (by rw [State.withdraw_capture, hd]; exact hc), List.append_assoc] at cleared
  have reads : NoneReads (ops ++ [writeOf (0x1000 + 64 * k) [0#8], fieldWrite 2 1 0]) :=
    noneReads_append.2 ⟨ho, (noneReads_write _ _).2 ((noneReads_write _ _).2 noneReads_nil)⟩
  exact (((cleared.before (.same : Sends [] [] _ (State.stopCount _))).abandonRead hs reads).before .same).thenNews
    (State.raise_sends _ _ _ _ _ _)

/-- Once a step has missed the capture, it has ended. -/
theorem captureEnded_missCapture (s0 : State) {r : Nat} (hi : t.intake = s.intake) (hp : t.capture.context.pinned = s.capture.context.pinned)
    (hc : u.capture = (t.missCapture r).capture) (hu : u.intake = (t.missCapture r).intake) :
    CaptureEnded s (s0.closeWork u) ∧ (s0.closeWork u).capture = u.capture := by
  have hx : (s0.closeWork u).capture = u.capture := closeWork_capture_of _ (by rw [hc, State.missCapture_capture]; nofun)
  refine ⟨?_, hx⟩
  unfold CaptureEnded
  rw [hx, hc, State.missCapture_capture, State.closeWork_intake, hu, State.missCapture_intake, State.dropCapturePin_intake, hp, hi]
  exact ⟨rfl, rfl, rfl, rfl, rfl, rfl, rfl, rfl⟩

theorem State.missWaiting_counter (s : State) (r : Nat) : (s.missWaiting r).capture.counter = s.capture.counter := by
  unfold State.missWaiting
  split
  · rw [State.missCapture_capture]
  · rfl

/-! ## The page index emptied (R42) -/

/-- The numbers of the entries that are not EMPTY. -/
def Monitor.held (m : Monitor) : List Nat := (List.range 64).filter fun n => decide ((m.entry n).state ≠ .empty)

theorem State.emptyIndex_intake (s : State) : s.emptyIndex.intake = s.intake := by
  unfold State.emptyIndex; dsimp only; split <;> simp

theorem State.emptyIndex_capture (s : State) : s.emptyIndex.capture = s.capture := by
  unfold State.emptyIndex; dsimp only; split <;> simp

theorem State.emptyIndex_control (s : State) : s.emptyIndex.control = s.control := by
  unfold State.emptyIndex; dsimp only; split <;> simp

theorem State.emptyIndex_post (s : State) : s.emptyIndex.post = s.post := by
  unfold State.emptyIndex; dsimp only; split <;> simp

theorem State.emptyIndex_index (s : State) :
    s.emptyIndex.monitor.index = s.monitor.index.map fun e => { e with state := .empty } := by
  unfold State.emptyIndex; dsimp only; split <;> simp

theorem State.emptyIndex_entry (s : State) (n : Nat) : (s.emptyIndex.monitor.entry n).state = .empty := by
  rw [Monitor.entry, State.emptyIndex_index, List.getD_eq_getElem?_getD, List.getElem?_map]
  cases s.monitor.index[n]? <;> rfl

/-- One operation writes the states of the entries that were not EMPTY. -/
theorem State.emptyIndex_sends (s : State) :
    Sends (if s.monitor.held = [] then [] else [writeRuns (s.monitor.held.map fun n => (0x1000 + 64 * n, [0#8]))]) [] s s.emptyIndex := by
  unfold State.emptyIndex
  show Sends _ _ s (if s.monitor.held = [] then _ else _)
  split
  · exact .same
  · exact Sends.after .same (State.issueWrite_sends _ _ _ _)

/-! ## The words of a lesson (R105, R106) -/

/-- What the act of a word leaves alone of the FIFO, the hand and the reaction timer is as the taking of the word left it. -/
theorem took_of_unchanged {w : Word} {rest : List Word} {kind : Nat} {changed : List Piece} (h : s.holdsWord kind w rest)
    (k : Unchanged changed (s.wordTaken rest) u) (hf : Piece.fifo ∉ changed := by decide) (ht : Piece.timer ∉ changed := by decide) :
    Took rest s (s.closeWork u) ∧ (s.closeWork u).post.inHand = none := by
  obtain ⟨⟨-, -, hh, -⟩, -⟩ := h
  obtain ⟨kf, ki, -⟩ := k .fifo hf
  obtain ⟨k1, k2, k3⟩ := k .timer ht
  obtain ⟨t0, t1, t2, t3⟩ := s.wordTaken_took rest
  rw [Took, State.closeWork_control, State.closeWork_post]
  exact ⟨⟨kf.trans t0, k1.trans t1, k2.trans t2, k3.trans t3⟩, ki.trans (by simpa using hh)⟩

/-- LESSON_BEGIN taken. -/
def State.lessonBegun (s : State) : State :=
  ((s.setCounter 0).emptyIndex.setLesson true).markLesson.raise .capture .lessonBegun 0 0 0

theorem State.lessonBegun_capture (s : State) :
    s.lessonBegun.capture = { s.capture with
      lessonOpen := true, counter := 0, decisions := s.capture.decisions.map fun d => { d with sawLesson := true } } := by
  rw [State.lessonBegun, State.raise_capture, State.markLesson]
  simp only [State.setLesson_capture, State.emptyIndex_capture, State.setCounter_capture]

theorem State.lessonBegun_monitor (s : State) : s.lessonBegun.monitor = (s.setCounter 0).emptyIndex.monitor := by
  rw [State.lessonBegun, State.raise_monitor, State.markLesson_monitor, State.setLesson_monitor]

theorem State.lessonBegun_unchanged (s : State) :
    Unchanged [.lesson, .index, .decisions, .records, .arbiter, .raised] s s.lessonBegun := by
  have emptied := (s.setCounter_unchanged 0).comp (State.emptyIndex_unchanged _) (c := [.lesson, .index, .records, .arbiter])
  have opened := emptied.comp (State.setLesson_unchanged _ true) (c := [.lesson, .index, .records, .arbiter])
  exact (opened.comp (State.markLesson_unchanged _) (c := [.lesson, .index, .decisions, .records, .arbiter])).comp
    (State.raise_unchanged _ _ _ _ _ _)

theorem State.lessonBegun_sends (s : State) :
    Sends (fieldChange (s.capture.counter = 0) 0x0A 2 0
        ++ (if s.monitor.held = [] then [] else [writeRuns (s.monitor.held.map fun n => (0x1000 + 64 * n, [0#8]))])
        ++ fieldChange (s.capture.lessonOpen = true) 1 1 1)
      [(.capture, .lessonBegun, 0, 0, 0)] s s.lessonBegun := by
  have emptied := (s.setCounter_sends 0).thenOps (State.emptyIndex_sends _)
  rw [State.setCounter_monitor] at emptied
  have opened := emptied.thenOps (State.setLesson_sends _ true)
  rw [State.emptyIndex_capture, State.setCounter_capture] at opened
  exact (opened.before .same).thenNews (State.raise_sends _ _ _ _ _ _)

/-- The lesson is closed, and every decision on its way sees it. -/
def State.lessonClosed (s : State) : State := (s.setLesson false).markLesson

theorem State.lessonClosed_capture (s : State) :
    s.lessonClosed.capture = { s.capture with
      lessonOpen := false, decisions := s.capture.decisions.map fun d => { d with sawLesson := true } } := by
  rw [State.lessonClosed, State.markLesson]
  simp only [State.setLesson_capture]

theorem State.lessonClosed_intake (s : State) : s.lessonClosed.intake = s.intake := by
  rw [State.lessonClosed, State.markLesson_intake, State.setLesson_intake]

theorem State.lessonClosed_monitor (s : State) : s.lessonClosed.monitor = s.monitor := by
  rw [State.lessonClosed, State.markLesson_monitor, State.setLesson_monitor]

theorem State.lessonClosed_unchanged (s : State) : Unchanged [.lesson, .decisions, .records, .arbiter] s s.lessonClosed :=
  (s.setLesson_unchanged false).comp (State.markLesson_unchanged _)

theorem State.lessonClosed_sends (s : State) : Sends (fieldChange (s.capture.lessonOpen = false) 1 1 0) [] s s.lessonClosed :=
  (s.setLesson_sends false).before .same

end Sys2Proof.Machine
end

section

open Sys2Proof Sys2Proof.Machine

/-- The act of LESSON_END where a lesson is open (R106). -/
theorem lessonEnd_exec {s : State} {w : Word} {rest : List Word} (h : s.holdsWord 7 w rest)
    (hm : s.control.mode = .standby ∨ s.control.mode = .live) (hl : s.capture.lessonOpen = true) :
    exec .lessonEnd s = .next (s.closeWork
      (((s.wordTaken rest).lessonClosed.missWaiting missLessonEnd).raise .capture .lessonEnded 0 s.capture.counter 0)) := by
  obtain ⟨hr, hb, ha⟩ := takesWords_of hm
  have hx := takeWord_of_holds (legal := anyArgument) (act := fun w t =>
    if !t.capture.lessonOpen then t.refuse refusedNoLesson w
    else (t.lessonClosed.missWaiting missLessonEnd).raise .capture .lessonEnded 0 (t.lessonClosed.missWaiting missLessonEnd).capture.counter 0)
    h hr hb ha rfl
  rw [State.missWaiting_counter, State.lessonClosed_capture, State.wordTaken_capture, if_neg (by simp [hl])] at hx
  exact hx

/-- Settles O43: the opening of a lesson step by step, and its closing with no capture that waits and with one. -/
theorem lessonsBeginAndEnd : Obligations.LessonsBeginAndEnd := by
  intro s w rest hm
  obtain ⟨hr, hb, ha⟩ := takesWords_of hm
  have hwc := s.wordTaken_capture rest
  refine ⟨fun h => ⟨fun hl => ?_, fun hl hc => ?_, fun hl hc _ => ?_⟩, fun h => ⟨fun hl => ?_, fun hl => ⟨fun hc => ?_, fun hc hn k hk => ?_⟩⟩⟩
  · refine refusesWord_of h ((takeWord_of_holds h hr hb ha rfl).trans ?_)
    rw [hwc, if_pos hl]
    rfl
  · refine refusesWord_of h ((takeWord_of_holds h hr hb ha rfl).trans ?_)
    rw [hwc, if_neg (by simp [hl]), if_pos hc]
    rfl
  · have hx := takeWord_of_holds (legal := anyArgument) (act := fun w t =>
      if t.capture.lessonOpen then t.refuse refusedLessonOpen w
      else if t.capture.context.state ≠ .idle then t.refuse refusedBusy w else t.lessonBegun) h hr hb ha rfl
    rw [hwc, if_neg (by simp [hl]), if_neg (by simp [hc])] at hx
    have hcap := (s.wordTaken rest).lessonBegun_capture
    rw [hwc] at hcap
    obtain ⟨ht, hh⟩ := took_of_unchanged h (State.lessonBegun_unchanged _)
    have hk := closeWork_capture_of s (u := (s.wordTaken rest).lessonBegun) (by rw [hcap]; simp [hc])
    refine ⟨_, hx, ⟨ht, hh, ?_⟩, ?_, ?_, fun n => ?_, ?_⟩
    · rw [hk, hcap]
    · rw [hk, hcap]
    · rw [hk, hcap]
    · rw [State.closeWork_monitor, State.lessonBegun_monitor]
      exact State.emptyIndex_entry _ n
    · have sent := ((s.wordTaken_sends rest).after (s.wordTaken rest).lessonBegun_sends)
      rw [hwc, State.wordTaken_monitor, fieldChange_of_ne (p := s.capture.lessonOpen = true) (by simp [hl])] at sent
      exact sent.did (.comp (s.wordTaken_unchanged rest) (State.lessonBegun_unchanged _) (by simp) (by simp))
  · refine refusesWord_of h ((takeWord_of_holds h hr hb ha rfl).trans ?_)
    rw [hwc, if_pos (by simp [hl])]
    rfl
  · have hx := lessonEnd_exec h hm hl
    have hcap := (s.wordTaken rest).lessonClosed_capture
    rw [hwc] at hcap
    have hw : (s.wordTaken rest).lessonClosed.waitingCapture = false := by
      rcases hc with hc | hc <;> simp [State.waitingCapture, hcap, hc]
    rw [State.missWaiting, if_neg (by simp [hw])] at hx
    have raised := (s.wordTaken rest).lessonClosed_unchanged.comp (State.raise_unchanged _ .capture .lessonEnded 0 s.capture.counter 0)
      (c := [.lesson, .decisions, .records, .arbiter, .raised])
    have sent := ((s.wordTaken_sends rest).after (s.wordTaken rest).lessonClosed_sends).thenNews
      (State.raise_sends _ .capture .lessonEnded 0 s.capture.counter 0)
    rw [hwc, fieldChange_of_ne (by simp [hl])] at sent
    obtain ⟨ht, hh⟩ := took_of_unchanged h raised
    have hk := s.closeWork_capture ((s.wordTaken rest).lessonClosed.raise .capture .lessonEnded 0 s.capture.counter 0)
    rw [State.raise_capture, hcap] at hk
    refine ⟨_, hx, ⟨ht, hh, ?_⟩, ?_, ?_, sent.did ?_⟩
    · rw [hk]
    · rw [hk]
    · rw [hk]
    · exact .comp (s.wordTaken_unchanged rest) raised (by simp) (by simp)
  · have hx := lessonEnd_exec h hm hl
    have hcap := (s.wordTaken rest).lessonClosed_capture
    have hmon := (s.wordTaken rest).lessonClosed_monitor
    have hint := (s.wordTaken rest).lessonClosed_intake
    rw [hwc] at hcap
    rw [State.wordTaken_monitor] at hmon
    rw [State.wordTaken_intake] at hint
    have hw : (s.wordTaken rest).lessonClosed.waitingCapture = true := by
      rcases hc with hc | hc <;> simp [State.waitingCapture, hcap, hc]
    have hidle : s.capture.context.state ≠ .idle := by rcases hc with hc | hc <;> rw [hc] <;> decide
    rw [State.missWaiting, if_pos hw] at hx
    have raised := ((s.wordTaken rest).lessonClosed_unchanged.comp (State.missCapture_unchanged _ 7)
      (c := [.slots, .index, .records, .context, .slotWait, .descriptorRead, .raised, .arbiter, .lesson, .decisions])).comp
      (State.raise_unchanged _ .capture .lessonEnded 0 s.capture.counter 0)
      (c := [.slots, .index, .records, .context, .slotWait, .descriptorRead, .raised, .arbiter, .lesson, .decisions])
    have closed := (s.wordTaken_sends rest).after (s.wordTaken rest).lessonClosed_sends
    rw [hwc, fieldChange_of_ne (by simp [hl])] at closed
    have missed := closed.missCapture hn ((noneReads_write _ _).2 noneReads_nil) (k := k) (by rw [hcap]; exact hk) (by rw [hcap]; exact hidle) 7
    rw [hcap] at missed
    have sent := missed.thenNews (State.raise_sends _ .capture .lessonEnded 0 s.capture.counter 0)
    obtain ⟨ht, hh⟩ := took_of_unchanged h raised
    obtain ⟨hended, hfin⟩ := captureEnded_missCapture s (r := 7) hint (by rw [hcap])
      (u := ((s.wordTaken rest).lessonClosed.missCapture 7).raise .capture .lessonEnded 0 s.capture.counter 0)
      (State.raise_capture _ _ _ _ _ _) (State.raise_intake _ _ _ _ _ _)
    rw [State.raise_capture, State.missCapture_capture, hcap] at hfin
    refine ⟨_, hx, ⟨ht, hh, ?_⟩, ?_, ?_, hended, ?_, sent.did ?_⟩
    · exact (congrArg Capture.decisions hfin :)
    · exact (congrArg Capture.lessonOpen hfin :)
    · exact (congrArg Capture.counter hfin :)
    · rw [State.closeWork_monitor, State.raise_monitor, State.missCapture_index (by rw [hcap]; exact hk), Monitor.entry, hmon]
      rfl
    · exact .comp (s.wordTaken_unchanged rest) raised (by simp) (by simp)

end

section
/-! SUPPORT. A capture decision (R109 to R115): the insertion of its PROVISIONAL entry (R35, R36), the context filled, and what the request for
a pin comes to. -/

namespace Sys2Proof.Machine

set_option Elab.async false

variable {s t u : State} {ops : List RecordOp} {news : List (Block × EventKind × Nat × Nat × Nat)}

/-! ## Insertion (R35, R36) -/

/-- An entry written at a place of the index, with INDEX_EVICT for the entry that it overwrites. -/
def State.placeEntry (s : State) (b : Block) (k : Nat) (e : IndexEntry) : State :=
  if (s.monitor.entry k).state = .empty then s.writeEntry b k e
  else (s.writeEntry b k e).raise .monitor .indexEvict k (s.monitor.entry k).page (entryAge s.intake.frameNumber (s.monitor.entry k))

theorem Monitor.entry_of_lt {m : Monitor} {k : Nat} (h : k < m.index.length) : m.entry k = m.index[k] := by
  rw [Monitor.entry, List.getD_eq_getElem?_getD, List.getElem?_eq_getElem h]
  rfl

/-- An insertion takes the place of R35 and R36. -/
theorem State.insertEntry_at {k : Nat} (h : s.placeIs k) (b : Block) (e : IndexEntry) : s.insertEntry b e = some (s.placeEntry b k e, k) := by
  obtain ⟨hk, ⟨he, hl⟩ | ⟨hn, hv⟩⟩ := h
  · have hfind : s.monitor.index.findIdx? (fun x => decide (x.state = .empty)) = some k := by
      refine List.findIdx?_eq_some_iff_getElem.2 ⟨hk, ?_, fun j hj => ?_⟩
      · rw [← Monitor.entry_of_lt hk]
        exact decide_eq_true he
      · rw [← Monitor.entry_of_lt (hj.trans hk)]
        simpa using hl j hj
    rw [State.insertEntry, hfind, State.placeEntry, if_pos he]
  · have hfind : s.monitor.index.findIdx? (fun x => decide (x.state = .empty)) = none := by
      refine List.findIdx?_eq_none_iff.2 fun x hx => ?_
      simpa using hn x hx
    have he : (s.monitor.entry k).state ≠ .empty := by rw [Monitor.entry, evictionChoice_valid hv]; decide
    rw [State.insertEntry, hfind]
    dsimp only
    rw [hv, State.placeEntry, if_neg he]

theorem State.placeEntry_capture (s : State) (b : Block) (k : Nat) (e : IndexEntry) : (s.placeEntry b k e).capture = s.capture := by
  unfold State.placeEntry State.writeEntry; split <;> simp

theorem State.placeEntry_intake (s : State) (b : Block) (k : Nat) (e : IndexEntry) : (s.placeEntry b k e).intake = s.intake := by
  unfold State.placeEntry State.writeEntry; split <;> simp

theorem State.placeEntry_index (s : State) (b : Block) (k : Nat) (e : IndexEntry) :
    (s.placeEntry b k e).monitor.index = s.monitor.index.set k e := by
  unfold State.placeEntry State.writeEntry; split <;> simp [State.setEntry]

theorem State.placeEntry_unchanged (s : State) (b : Block) (k : Nat) (e : IndexEntry) :
    Unchanged [.index, .records, .raised, .arbiter] s (s.placeEntry b k e) := by
  unfold State.placeEntry
  split
  · exact (s.writeEntry_unchanged b k e).mono
  · exact (s.writeEntry_unchanged b k e).comp (State.raise_unchanged _ _ _ _ _ _)

/-- The entry is written whole, its state last, with INDEX_EVICT where R36 asks for it. -/
theorem State.placeEntry_sends (s : State) (b : Block) (k : Nat) (e : IndexEntry) :
    Sends [writeRuns [(0x1000 + 64 * k + 1, e.fieldBytes), (0x1000 + 64 * k, leBytes 1 e.state.value)]] (s.evictNews k) s
      (s.placeEntry b k e) := by
  unfold State.placeEntry State.evictNews
  split
  · exact s.writeEntry_sends _ _ _
  · rw [← entryAge_eq, Int.toNat_natCast]
    exact (s.writeEntry_sends _ _ _).thenNews (State.raise_sends _ _ _ _ _ _)

/-! ## The context of a decision taken (R37, R110) -/

/-- The counter and the PROVISIONAL entry of a capture at its place, and its context, before it asks for a pin. -/
def State.filled (s : State) (kind : Reason) (frame : Nat) (sig : Signature) (levels : Levels) (k : Nat) : State :=
  let page := s.capture.counter + 1
  { (s.setCounter page).placeEntry .capture k ⟨.provisional, 0, page, frame, frame, 0, sig⟩ with
    capture.context := { page := page, reason := kind, entry := some k, levels := levels } }

section
variable (s : State) (kind : Reason) (frame : Nat) (sig : Signature) (levels : Levels) (k : Nat)

theorem State.fillContext_at (h : s.placeIs k) :
    s.fillContext kind frame sig levels = (s.filled kind frame sig levels k).requestCapturePin := by
  have hp : (s.setCounter (s.capture.counter + 1)).placeIs k := by
    simpa only [State.placeIs, State.setCounter_monitor, State.setCounter_intake] using h
  rw [State.fillContext]
  dsimp only
  rw [State.insertEntry_at hp]
  rfl

theorem State.filled_capture :
    (s.filled kind frame sig levels k).capture = { s.capture with
      counter := s.capture.counter + 1
      context := { page := s.capture.counter + 1, reason := kind, entry := some k, levels := levels } } := by
  simp only [State.filled, State.placeEntry_capture, State.setCounter_capture]

theorem State.filled_intake : (s.filled kind frame sig levels k).intake = s.intake := by
  simp only [State.filled, State.placeEntry_intake, State.setCounter_intake]

theorem State.filled_index :
    (s.filled kind frame sig levels k).monitor.index =
      s.monitor.index.set k ⟨.provisional, 0, s.capture.counter + 1, frame, frame, 0, sig⟩ := by
  simp only [State.filled, State.placeEntry_index, State.setCounter_monitor]

theorem State.filled_unchanged :
    Unchanged [.lesson, .index, .context, .records, .raised, .arbiter] s (s.filled kind frame sig levels k) := by
  have placed := (s.setCounter_unchanged (s.capture.counter + 1)).comp
    (State.placeEntry_unchanged _ .capture k ⟨.provisional, 0, s.capture.counter + 1, frame, frame, 0, sig⟩)
    (c := [.lesson, .index, .records, .raised, .arbiter])
  refine placed.comp (b := [.context]) (fun p hp => ?_)
  cases p <;> simp_all [same, State.filled]

theorem State.filled_sends :
    Sends [fieldWrite 0x0A 2 (s.capture.counter + 1),
        writeRuns [(0x1000 + 64 * k + 1,
          (⟨.provisional, 0, s.capture.counter + 1, frame, frame, 0, sig⟩ : IndexEntry).fieldBytes), (0x1000 + 64 * k, [1#8])]]
      (s.evictNews k) s (s.filled kind frame sig levels k) := by
  have counted := s.setCounter_sends (s.capture.counter + 1)
  rw [fieldChange_of_ne (by omega)] at counted
  have placed := counted.trans (State.placeEntry_sends _ .capture k ⟨.provisional, 0, s.capture.counter + 1, frame, frame, 0, sig⟩)
  rw [State.evictNews, State.setCounter_monitor, State.setCounter_intake] at placed
  exact placed.before .same

end

/-! ## The request for a pin (R111) -/

theorem requestCapturePin_none
    (h : s.intake.newest = none ∨ ∃ n, s.intake.newest = some n ∧ s.intake.poolGrants n = false) :
    s.requestCapturePin = s.setContextState .waitingPin := by
  unfold State.requestCapturePin
  rcases h with h | ⟨n, h, hg⟩ <;> rw [h]
  dsimp only
  rw [if_neg (by simp [hg])]

theorem requestCapturePin_some {n : Nat} (h : s.intake.newest = some n) (hg : s.intake.poolGrants n = true) :
    s.requestCapturePin = s.capturePinned n := by
  unfold State.requestCapturePin
  rw [h]
  exact if_pos hg

/-! ## The check of chain and credit with the pin given (R113 to R116) -/

/-- The capture has its pin on a slot and waits for a slot descriptor. -/
def State.slotAwaited (s : State) (n : Nat) : State :=
  { s.givePin n .capture with
    capture.context.pinned := some n, capture.context.frame := s.intake.frameNumber }.setContextState .waitingSlot

section
variable (s : State) (n : Nat)

theorem State.slotAwaited_capture :
    (s.slotAwaited n).capture = { s.capture with context := { s.capture.context with
      state := .waitingSlot, pinned := some n, frame := s.intake.frameNumber } } := by
  rw [State.slotAwaited, State.setContextState_capture]
  rfl

theorem State.slotAwaited_intake :
    (s.slotAwaited n).intake =
      { s.intake with slots := s.intake.slots.modify n fun x => { x with pinCapture := true } } := by
  rw [State.slotAwaited, State.setContextState_intake]
  rfl

theorem State.slotAwaited_monitor : (s.slotAwaited n).monitor = s.monitor := by
  rw [State.slotAwaited, State.setContextState_monitor]
  rfl

theorem State.slotAwaited_unchanged : Unchanged [.slots, .context, .records, .arbiter] s (s.slotAwaited n) := by
  refine .comp (a := [.slots, .context]) ?_ (State.setContextState_unchanged _ _)
  refine (s.givePin_unchanged n .capture).comp (b := [.context]) (fun p hp => ?_)
  cases p <;> simp_all [same]

theorem State.slotAwaited_sends (h : s.capture.context.state ≠ .waitingSlot) : Sends [fieldWrite 2 1 2] [] s (s.slotAwaited n) := by
  have sent := State.setContextState_sends
    { s.givePin n .capture with capture.context.pinned := some n, capture.context.frame := s.intake.frameNumber } .waitingSlot
  rw [fieldChange_of_ne (by exact h)] at sent
  exact Sends.after .same sent

variable {s n}

theorem capturePinned_stopped (h : s.capture.running = false) : s.capturePinned n = (s.slotAwaited n).missCapture missNoChain := by
  have hr : (s.slotAwaited n).capture.running = false := by rw [State.slotAwaited_capture]; exact h
  exact if_pos (by rw [hr]; rfl : (!(s.slotAwaited n).capture.running) = true)

/-- With the chain RUNNING, the credit decides. -/
theorem capturePinned_running (h : s.capture.running = true) :
    s.capturePinned n =
      if s.capture.credit = 0 then
        { s.slotAwaited n with capture.slotWaiting := true, capture.slotCount := 0, capture.slotExpired := false }
      else (s.slotAwaited n).readHead := by
  have hr : (s.slotAwaited n).capture.running = true := by rw [State.slotAwaited_capture]; exact h
  have hc : (s.slotAwaited n).capture.credit = s.capture.credit := by rw [State.slotAwaited_capture]
  rw [← hc]
  exact if_neg (by rw [hr]; decide : ¬ (!(s.slotAwaited n).capture.running) = true)

end

/-- The third test of R115, on an area of the size of a descriptor. -/
theorem headProtected_iff {head : Nat} :
    (sharesWith head 32 0 Config.controlTop || sharesWith head 32 Config.slotsBase Config.slotsTop) = true ↔
      head < 0x10000 ∨ (head < 0x8800000 ∧ 0x1000000 < head + 32) := by
  simp [sharesWith, Config.controlTop, Config.slotsBase, Config.slotsTop]

/-- The addresses that R115 lets be read are those with no fault. -/
theorem headFault_none {head : Nat} (h : headReadable head) : headFault head = none := by
  obtain ⟨ha, hlow, htop, hslots⟩ := h
  rw [headFault, if_neg (by omega), if_neg (show ¬ 0x10000000 < head + 32 by omega), if_neg (by rw [headProtected_iff]; omega)]

theorem headFault_some {head : Nat} (h : ¬ headReadable head) : headFault head = some (headFaultKind head) := by
  unfold headFault headFaultKind
  split
  · rfl
  split
  · rfl
  · rename_i ha ht
    have ht : ¬ 0x10000000 < head + 32 := ht
    unfold headReadable at h
    rw [if_pos (by rw [headProtected_iff]; omega)]
    rfl

theorem readHead_of (h : headReadable s.capture.head) :
    s.readHead = { s with capture.read := .waiting }.issue .capture .capture (.read .descriptor s.capture.head []) := by
  rw [State.readHead, headFault_none h]

theorem readHead_fault (h : ¬ headReadable s.capture.head) : s.readHead = s.chainFault (headFaultKind s.capture.head) := by
  rw [State.readHead, headFault_some h]

/-! ## A chain fault (R116) -/

/-- The chain stopped with CHAIN_FAULT, before the capture is missed. -/
def State.chainStopped (s : State) (kind : Nat) : State :=
  ((s.setCredit 0).setChain false).raise .capture .chainFault kind s.capture.head s.capture.context.page

section
variable (s : State) (kind : Nat)

theorem State.chainStopped_capture : (s.chainStopped kind).capture = { s.capture with credit := 0, running := false } := by
  rw [State.chainStopped, State.raise_capture, State.setChain_capture, State.setCredit_capture]

theorem State.chainStopped_intake : (s.chainStopped kind).intake = s.intake := by
  rw [State.chainStopped, State.raise_intake, State.setChain_intake, State.setCredit_intake]

theorem State.chainStopped_monitor : (s.chainStopped kind).monitor = s.monitor := by
  rw [State.chainStopped, State.raise_monitor, State.setChain_monitor, State.setCredit_monitor]

theorem State.chainStopped_unchanged : Unchanged [.chain, .records, .raised, .arbiter] s (s.chainStopped kind) :=
  ((s.setCredit_unchanged 0).comp (State.setChain_unchanged _ false) (c := [.chain, .records, .arbiter])).comp
    (State.raise_unchanged _ _ _ _ _ _)

theorem State.chainStopped_sends (hr : s.capture.running = true) (hc : 1 ≤ s.capture.credit) :
    Sends [fieldWrite 0x0C 1 0, fieldWrite 3 1 0] [(.capture, .chainFault, kind, s.capture.head, s.capture.context.page)] s
      (s.chainStopped kind) := by
  have credited := s.setCredit_sends 0
  rw [fieldChange_of_ne (by omega)] at credited
  have stopped := credited.thenOps (State.setChain_sends _ false)
  rw [fieldChange_of_ne (by simp [hr])] at stopped
  exact stopped.thenNews (State.raise_sends _ _ _ _ _ _)

theorem State.chainFault_eq : s.chainFault kind = (s.chainStopped kind).missCapture missChain := rfl

end

/-! ## A decision taken -/

/-- The entry and the context of a capture that begins, and the operations that count its page and write its entry (R37). -/
abbrev provisional (page frame : Nat) (sig : Signature) : IndexEntry := ⟨.provisional, 0, page, frame, frame, 0, sig⟩
abbrev beginning (page : Nat) (kind : Reason) (levels : Levels) (k : Nat) : Context :=
  { page := page, reason := kind, entry := some k, levels := levels }
abbrev beginningOps (page k : Nat) (e : IndexEntry) : List RecordOp :=
  [fieldWrite 0x0A 2 page, writeRuns [(0x1000 + 64 * k + 1, e.fieldBytes), (0x1000 + 64 * k, [1#8])]]

/-- A command takes a decision in x, where it has changed the pieces moved alone and sent nothing; what also holds after the command holds
for whatever the capture unit does then. -/
structure Deciding (c : Instr) (s x : State) (moved : List Piece) (also : State → Prop) (kind : Reason) (frame : Nat) (sig : Signature)
    (levels : Levels) : Prop where
  exec : exec c s = .next (s.closeWork (x.takeDecision kind frame sig levels))
  sends : Sends [] [] s x
  unchanged : Unchanged moved s x
  capture : ∃ l, x.capture = { s.capture with decisions := l }
  intake : x.intake = s.intake
  monitor : x.monitor = s.monitor
  also : ∀ u, Unchanged capturing x u → also (s.closeWork u)

section
variable {c : Instr} {x : State} {moved : List Piece} {also : State → Prop} {kind : Reason} {frame : Nat} {sig : Signature} {levels : Levels}

/-- A decision missed with the context untouched (R110). -/
theorem Deciding.missed (d : Deciding c s x moved also kind frame sig levels) {r : Nat}
    (h : x.takeDecision kind frame sig levels = x.missDecision r kind) :
    Completes c s fun t => also t ∧ Did moved [] [(.capture, .captureMissed, r, 0, kind.value)] s t := by
  refine ⟨_, by rw [d.exec, h], d.also _ (State.missDecision_unchanged _ _ _).mono, ?_⟩
  exact (d.sends.after (State.raise_sends _ _ _ _ _ _)).did
    (.comp d.unchanged (State.missDecision_unchanged x r kind) (by simp) (by simp))

theorem takeDecision_busy (h : x.capture.context.state ≠ .idle) : x.takeDecision kind frame sig levels = x.missDecision 1 kind :=
  if_pos h

theorem takeDecision_full (h : x.capture.context.state = .idle) (hc : x.capture.counter = 65535) :
    x.takeDecision kind frame sig levels = x.missDecision 2 kind := by
  rw [State.takeDecision, if_neg (by simp [h]), if_pos hc]
  rfl

theorem takeDecision_taken (h : x.capture.context.state = .idle) (hc : x.capture.counter ≠ 65535) {k : Nat} (hk : x.placeIs k) :
    x.takeDecision kind frame sig levels = (x.filled kind frame sig levels k).requestCapturePin := by
  rw [State.takeDecision, if_neg (by simp [h]), if_neg hc, State.fillContext_at _ _ _ _ _ _ hk]

/-- The context is filled in y, and the capture is about to ask for its pin. -/
structure Filling (c : Instr) (s y : State) (moved : List Piece) (also : State → Prop) (kind : Reason) (frame : Nat) (sig : Signature)
    (levels : Levels) (k : Nat) : Prop where
  exec : exec c s = .next (s.closeWork y.requestCapturePin)
  place : k < s.monitor.index.length
  sends : Sends (beginningOps (s.capture.counter + 1) k (provisional (s.capture.counter + 1) frame sig)) (s.evictNews k) s y
  unchanged : Unchanged (moved ++ [.lesson, .index, .context, .records, .raised, .arbiter]) s y
  capture : ∃ l, y.capture = { s.capture with
    decisions := l, counter := s.capture.counter + 1, context := beginning (s.capture.counter + 1) kind levels k }
  intake : y.intake = s.intake
  index : y.monitor.index = s.monitor.index.set k (provisional (s.capture.counter + 1) frame sig)
  also : ∀ u, Unchanged capturing y u → also (s.closeWork u)

theorem Deciding.filling (d : Deciding c s x moved also kind frame sig levels) (hi : s.capture.context.state = .idle)
    (hc : s.capture.counter ≠ 65535) {k : Nat} (hk : s.placeIs k) :
    Filling c s (x.filled kind frame sig levels k) moved also kind frame sig levels k := by
  obtain ⟨l, hcap⟩ := d.capture
  have hcount : x.capture.counter = s.capture.counter := by rw [hcap]
  have hp : x.placeIs k := by simpa only [State.placeIs, d.intake, d.monitor] using hk
  have filled := x.filled_unchanged kind frame sig levels k
  refine ⟨?_, hk.1, ?_, d.unchanged.comp filled (by simp) (by simp), ⟨l, ?_⟩, ?_, ?_, fun u hu => d.also u (filled.comp hu)⟩
  · rw [d.exec, takeDecision_taken (by rw [hcap]; exact hi) (by rw [hcount]; exact hc) hp]
  · have sent := d.sends.after (x.filled_sends kind frame sig levels k)
    rw [hcount, State.evictNews, d.monitor, d.intake] at sent
    exact sent
  · rw [State.filled_capture, hcap]
  · rw [State.filled_intake, d.intake]
  · rw [State.filled_index, d.monitor, hcount]

/-- What a decision that was taken leaves in the capture unit whatever comes of it. -/
def Begun (also : State → Prop) (s t : State) : Prop :=
  also t ∧ t.capture.counter = s.capture.counter + 1 ∧ t.capture.lessonOpen = s.capture.lessonOpen

variable {y : State} {k n : Nat}

/-- Without a pin, the capture waits for one (R111). -/
theorem Filling.waits (d : Filling c s y moved also kind frame sig levels k)
    (h : s.intake.newest = none ∨ ∃ n, s.intake.newest = some n ∧ s.intake.poolGrants n = false) :
    Completes c s fun t =>
      Begun also s t
        ∧ t.monitor.index = s.monitor.index.set k (provisional (s.capture.counter + 1) frame sig)
        ∧ t.capture.context = { beginning (s.capture.counter + 1) kind levels k with state := .waitingPin }
        ∧ Did (moved ++ [.lesson, .index] ++ [.context])
            (beginningOps (s.capture.counter + 1) k (provisional (s.capture.counter + 1) frame sig) ++ [fieldWrite 2 1 1])
            (s.evictNews k) s t := by
  obtain ⟨l, hcap⟩ := d.capture
  have hx := d.exec
  rw [requestCapturePin_none (by rwa [d.intake])] at hx
  have hfin := closeWork_capture_of s (u := y.setContextState .waitingPin) (by rw [State.setContextState_capture]; nofun)
  rw [State.setContextState_capture, hcap] at hfin
  have sent := d.sends.thenOps (y.setContextState_sends .waitingPin)
  rw [fieldChange_of_ne (by rw [hcap]; nofun)] at sent
  refine ⟨_, hx, ⟨d.also _ (State.setContextState_unchanged _ _).mono, ?_, ?_⟩, ?_, ?_, sent.did ?_⟩
  · rw [hfin]
  · rw [hfin]
  · rw [State.closeWork_monitor, State.setContextState_monitor, d.index]
  · rw [hfin]
  · exact d.unchanged.comp (State.setContextState_unchanged _ _) (by simp) (by simp)

/-- The operations of a decision up to the wait for a slot. -/
abbrev awaitingOps (page k : Nat) (e : IndexEntry) : List RecordOp := beginningOps page k e ++ [fieldWrite 2 1 2]

/-- The capture has its pin in z, and the chain is about to be checked (R113). -/
structure Awaiting (c : Instr) (s z : State) (moved : List Piece) (also : State → Prop) (kind : Reason) (frame : Nat) (sig : Signature)
    (levels : Levels) (k n : Nat) : Prop where
  place : k < s.monitor.index.length
  sends : Sends (awaitingOps (s.capture.counter + 1) k (provisional (s.capture.counter + 1) frame sig)) (s.evictNews k) s z
  unchanged : Unchanged (moved ++ [.lesson, .index, .context, .slots, .records, .raised, .arbiter]) s z
  capture : ∃ l, z.capture = { s.capture with
    decisions := l
    counter := s.capture.counter + 1
    context := { beginning (s.capture.counter + 1) kind levels k with
      state := .waitingSlot, pinned := some n, frame := s.intake.frameNumber } }
  intake : z.intake = { s.intake with slots := s.intake.slots.modify n fun x => { x with pinCapture := true } }
  index : z.monitor.index = s.monitor.index.set k (provisional (s.capture.counter + 1) frame sig)
  also : ∀ u, Unchanged capturing z u → also (s.closeWork u)

theorem Filling.awaiting (d : Filling c s y moved also kind frame sig levels k) (n : Nat) :
    Awaiting c s (y.slotAwaited n) moved also kind frame sig levels k n := by
  obtain ⟨l, hcap⟩ := d.capture
  have given := y.slotAwaited_unchanged n
  refine ⟨d.place, d.sends.thenOps (y.slotAwaited_sends n ?_), d.unchanged.comp given (by simp) (by simp), ⟨l, ?_⟩, ?_, ?_,
    fun u hu => d.also u (given.comp hu)⟩
  · rw [hcap]
    nofun
  · rw [State.slotAwaited_capture, hcap, d.intake]
  · rw [State.slotAwaited_intake, d.intake]
  · rw [State.slotAwaited_monitor, d.index]

theorem Filling.exec_running (d : Filling c s y moved also kind frame sig levels k) (hn : s.intake.newest = some n)
    (hg : s.intake.poolGrants n = true) (hr : s.capture.running = true) :
    Sys2Proof.Machine.exec c s = .next (s.closeWork
      (if s.capture.credit = 0 then
        { y.slotAwaited n with capture.slotWaiting := true, capture.slotCount := 0, capture.slotExpired := false }
      else (y.slotAwaited n).readHead)) := by
  obtain ⟨l, hcap⟩ := d.capture
  have hx := d.exec
  rw [requestCapturePin_some (by rw [d.intake]; exact hn) (by rw [d.intake]; exact hg),
    capturePinned_running (by rw [hcap]; exact hr), hcap] at hx
  exact hx

theorem Filling.exec_stopped (d : Filling c s y moved also kind frame sig levels k) (hn : s.intake.newest = some n)
    (hg : s.intake.poolGrants n = true) (hr : s.capture.running = false) :
    Sys2Proof.Machine.exec c s = .next (s.closeWork ((y.slotAwaited n).missCapture missNoChain)) := by
  obtain ⟨l, hcap⟩ := d.capture
  have hx := d.exec
  rw [requestCapturePin_some (by rw [d.intake]; exact hn) (by rw [d.intake]; exact hg),
    capturePinned_stopped (by rw [hcap]; exact hr)] at hx
  exact hx

/-- The capture has its pin and waits for a slot. -/
def PinGiven (s t : State) (kind : Reason) (frame : Nat) (sig : Signature) (levels : Levels) (k n : Nat) : Prop :=
  t.capture.context = { beginning (s.capture.counter + 1) kind levels k with
      state := .waitingSlot, pinned := some n, frame := s.intake.frameNumber }
    ∧ t.monitor.index = s.monitor.index.set k (provisional (s.capture.counter + 1) frame sig)
    ∧ t.intake.slots = s.intake.slots.modify n (fun x => { x with pinCapture := true })
    ∧ t.intake.newest = s.intake.newest ∧ t.intake.hold = s.intake.hold

/-- The capture was missed, and its pin and its entry are withdrawn. -/
def PinWithdrawn (s t : State) (frame : Nat) (sig : Signature) (k n : Nat) : Prop :=
  t.capture.context = {} ∧ t.capture.slotWaiting = false
    ∧ t.monitor.index = s.monitor.index.set k { provisional (s.capture.counter + 1) frame sig with state := .empty }
    ∧ (∀ m, (t.intake.slot m).pinCapture = (decide (m ≠ n) && (s.intake.slot m).pinCapture))
    ∧ t.intake.newest = s.intake.newest ∧ t.intake.hold = s.intake.hold

variable {z w : State}

theorem Awaiting.given (d : Awaiting c s z moved also kind frame sig levels k n) (s0 : State)
    (hc : w.capture.context = z.capture.context) (hi : w.intake = z.intake) (hm : w.monitor = z.monitor) :
    PinGiven s (s0.closeWork w) kind frame sig levels k n ∧ (s0.closeWork w).capture = w.capture := by
  obtain ⟨l, hcap⟩ := d.capture
  have hctx : w.capture.context.state ≠ .rendering := by rw [hc, hcap]; nofun
  have hfin := closeWork_capture_of s0 hctx
  refine ⟨⟨?_, ?_, ?_, ?_, ?_⟩, hfin⟩
  · rw [hfin, hc, hcap]
  · rw [State.closeWork_monitor, hm, d.index]
  · rw [State.closeWork_intake, hi, d.intake]
  · rw [State.closeWork_intake, hi, d.intake]
  · rw [State.closeWork_intake, hi, d.intake]

/-- With the capture's pin given and taken off again, no other pin has changed. -/
theorem pinCapture_withdrawn {i j : Intake} (h : j.slots = withoutPin (some n) (i.slots.modify n fun x => { x with pinCapture := true }))
    (m : Nat) : (j.slot m).pinCapture = (decide (m ≠ n) && (i.slot m).pinCapture) := by
  rw [Intake.slot, h, withoutPin, getD_modify, getD_modify, List.length_modify, Intake.slot]
  by_cases hm : n = m
  · subst hm
    by_cases hl : n < i.slots.length
    · simp [hl]
    · simp [hl]
  · simp [hm, Ne.symm hm]

theorem Awaiting.withdrawn (d : Awaiting c s z moved also kind frame sig levels k n) (s0 : State) {r : Nat}
    (hc : w.capture.context = z.capture.context) (hi : w.intake = z.intake) (hm : w.monitor = z.monitor) :
    PinWithdrawn s (s0.closeWork (w.missCapture r)) frame sig k n
      ∧ (s0.closeWork (w.missCapture r)).capture =
        { w.capture with context := {}, slotWaiting := false, slotCount := 0, slotExpired := false, read := .idle } := by
  obtain ⟨l, hcap⟩ := d.capture
  have hmiss := w.missCapture_capture r
  have hfin := closeWork_capture_of s0 (u := w.missCapture r) (by rw [hmiss]; nofun)
  rw [hmiss] at hfin
  have hpin : w.capture.context.pinned = some n := by rw [hc, hcap]
  have hent : w.capture.context.entry = some k := by rw [hc, hcap]
  have hint := w.missCapture_intake r
  rw [State.dropCapturePin_intake, hi, d.intake, hpin] at hint
  refine ⟨⟨?_, ?_, ?_, fun m => ?_, ?_, ?_⟩, hfin⟩
  · rw [hfin]
  · rw [hfin]
  · rw [State.closeWork_monitor, State.missCapture_index hent, Monitor.entry, hm, d.index]
    simp [d.place]
  · rw [State.closeWork_intake]
    exact pinCapture_withdrawn (by rw [hint]) m
  · rw [State.closeWork_intake, hint]
  · rw [State.closeWork_intake, hint]

/-- With credit 0 the capture counts its slot wait (R114). -/
theorem Awaiting.counts (d : Awaiting c s z moved also kind frame sig levels k n)
    (hx : Sys2Proof.Machine.exec c s = .next (s.closeWork { z with capture.slotWaiting := true, capture.slotCount := 0, capture.slotExpired := false })) :
    Completes c s fun t =>
      Begun also s t ∧ PinGiven s t kind frame sig levels k n ∧ t.capture.slotWaiting = true ∧ t.capture.slotCount = 0
        ∧ t.capture.slotExpired = false ∧ t.capture.read = s.capture.read
        ∧ Did (moved ++ [.lesson, .index] ++ endingCapture)
            (awaitingOps (s.capture.counter + 1) k (provisional (s.capture.counter + 1) frame sig)) (s.evictNews k) s t := by
  obtain ⟨l, hcap⟩ := d.capture
  have counting : Unchanged [.slotWait] z { z with capture.slotWaiting := true, capture.slotCount := 0, capture.slotExpired := false } := by
    intro p hp; cases p <;> simp_all [same]
  obtain ⟨hg, hfin⟩ := d.given s
    (w := { z with capture.slotWaiting := true, capture.slotCount := 0, capture.slotExpired := false }) rfl rfl rfl
  refine ⟨_, hx, ⟨d.also _ counting.mono, ?_, ?_⟩, hg, ?_, ?_, ?_, ?_, (d.sends.before .same).did ?_⟩
  · rw [hfin, hcap]
  · rw [hfin, hcap]
  · rw [hfin]
  · rw [hfin]
  · rw [hfin]
  · rw [hfin, hcap]
  · exact d.unchanged.comp counting (by simp) (by simp)

/-- With credit, the head descriptor is read (R115). -/
theorem Awaiting.reads (d : Awaiting c s z moved also kind frame sig levels k n) (hh : headReadable s.capture.head)
    (hx : Sys2Proof.Machine.exec c s = .next (s.closeWork z.readHead)) :
    Completes c s fun t =>
      Begun also s t ∧ PinGiven s t kind frame sig levels k n ∧ t.capture.slotWaiting = s.capture.slotWaiting
        ∧ t.capture.read = .waiting
        ∧ Did (moved ++ [.lesson, .index] ++ endingCapture)
            (awaitingOps (s.capture.counter + 1) k (provisional (s.capture.counter + 1) frame sig)
              ++ [.read .descriptor s.capture.head []]) (s.evictNews k) s t := by
  obtain ⟨l, hcap⟩ := d.capture
  have hhead : z.capture.head = s.capture.head := by rw [hcap]
  rw [readHead_of (by rwa [hhead]), hhead] at hx
  have waiting : Unchanged [.descriptorRead] z { z with capture.read := .waiting } := by
    intro p hp; cases p <;> simp_all [same]
  have reading := waiting.comp (State.issue_unchanged _ .capture .capture (.read .descriptor s.capture.head []))
    (c := [.descriptorRead, .records, .arbiter])
  obtain ⟨hg, hfin⟩ := d.given s
    (w := { z with capture.read := .waiting }.issue .capture .capture (.read .descriptor s.capture.head []))
    (by rw [State.issue_capture]) (by rw [State.issue_intake]) (by rw [State.issue_monitor])
  rw [State.issue_capture] at hfin
  have sent := (d.sends.before (.same : Sends [] [] z { z with capture.read := .waiting })).thenOps
    (State.issue_sends _ .capture .capture (.read .descriptor s.capture.head []))
  refine ⟨_, hx, ⟨d.also _ reading.mono, ?_, ?_⟩, hg, ?_, ?_, sent.did ?_⟩
  · rw [hfin, hcap]
  · rw [hfin, hcap]
  · rw [hfin, hcap]
  · rw [hfin]
  · exact d.unchanged.comp reading (by simp) (by simp)

theorem noneReads_awaiting (page : Nat) (e : IndexEntry) : NoneReads (awaitingOps page k e) :=
  (noneReads_write _ _).2 ((noneReads_write _ _).2 ((noneReads_write _ _).2 noneReads_nil))

/-- A chain that is STOPPED misses the capture (R113). -/
theorem Awaiting.misses (d : Awaiting c s z moved also kind frame sig levels k n) (hd : s.noDescriptorRead)
    (hx : Sys2Proof.Machine.exec c s = .next (s.closeWork (z.missCapture missNoChain))) :
    Completes c s fun t =>
      Begun also s t ∧ PinWithdrawn s t frame sig k n
        ∧ Did (moved ++ [.lesson, .index] ++ endingCapture)
            (beginningOps (s.capture.counter + 1) k (provisional (s.capture.counter + 1) frame sig)
              ++ [fieldWrite 2 1 2, writeOf (0x1000 + 64 * k) [0#8], fieldWrite 2 1 0])
            (s.evictNews k ++ [(.capture, .captureMissed, 4, s.capture.counter + 1, kind.value)]) s t := by
  obtain ⟨l, hcap⟩ := d.capture
  have hctx : z.capture.context.state ≠ .idle := by rw [hcap]; nofun
  have sent := d.sends.missCapture hd (noneReads_awaiting _ _) (k := k) (by rw [hcap]) hctx missNoChain
  rw [hcap] at sent
  obtain ⟨hw, hfin⟩ := d.withdrawn s (w := z) (r := missNoChain) rfl rfl rfl
  rw [hcap] at hfin
  refine ⟨_, hx, ⟨d.also _ (State.missCapture_unchanged _ _).mono, ?_, ?_⟩, hw, sent.did ?_⟩
  · rw [hfin]
  · rw [hfin]
  · exact d.unchanged.comp (State.missCapture_unchanged _ _) (by simp) (by simp)

/-- A head that may not be read stops the chain and misses the capture (R115, R116). -/
theorem Awaiting.faults (d : Awaiting c s z moved also kind frame sig levels k n) (hr : s.capture.running = true)
    (h1 : 1 ≤ s.capture.credit) (hh : ¬ headReadable s.capture.head) (hd : s.noDescriptorRead)
    (hx : Sys2Proof.Machine.exec c s = .next (s.closeWork z.readHead)) :
    Completes c s fun t =>
      Begun also s t ∧ PinWithdrawn s t frame sig k n ∧ t.capture.credit = 0 ∧ t.capture.running = false
        ∧ t.capture.head = s.capture.head
        ∧ Did (moved ++ [.lesson, .index] ++ endingCapture ++ [.chain])
            (beginningOps (s.capture.counter + 1) k (provisional (s.capture.counter + 1) frame sig) ++ fieldWrite 2 1 2 :: chainFaultOps k)
            (s.evictNews k ++ chainFaultNews (headFaultKind s.capture.head) s.capture.head (s.capture.counter + 1) kind) s t := by
  obtain ⟨l, hcap⟩ := d.capture
  have hhead : z.capture.head = s.capture.head := by rw [hcap]
  rw [readHead_fault (by rwa [hhead]), hhead, State.chainFault_eq] at hx
  have hstop := z.chainStopped_capture (headFaultKind s.capture.head)
  have stopping := z.chainStopped_unchanged (headFaultKind s.capture.head)
  have faulting := stopping.comp (State.missCapture_unchanged _ missChain) (c := capturing)
  have stopped := d.sends.trans (z.chainStopped_sends (headFaultKind s.capture.head) (by rw [hcap]; exact hr) (by rw [hcap]; exact h1))
  have reads : NoneReads (awaitingOps (s.capture.counter + 1) k (provisional (s.capture.counter + 1) frame sig)
      ++ [fieldWrite 0x0C 1 0, fieldWrite 3 1 0]) :=
    noneReads_append.2 ⟨noneReads_awaiting _ _, (noneReads_write _ _).2 ((noneReads_write _ _).2 noneReads_nil)⟩
  have sent := stopped.missCapture hd reads (k := k) (by rw [hstop, hcap]) (by rw [hstop, hcap]; nofun) missChain
  rw [hstop, hcap, List.append_assoc, List.append_assoc, List.append_assoc] at sent
  obtain ⟨hw, hfin⟩ := d.withdrawn s (w := z.chainStopped (headFaultKind s.capture.head)) (r := missChain) (by rw [hstop])
    (z.chainStopped_intake _) (z.chainStopped_monitor _)
  rw [hstop, hcap] at hfin
  refine ⟨_, hx, ⟨d.also _ faulting, ?_, ?_⟩, hw, ?_, ?_, ?_, sent.did ?_⟩
  · rw [hfin]
  · rw [hfin]
  · rw [hfin]
  · rw [hfin]
  · rw [hfin]
  · exact (d.unchanged.comp stopping (by simp) (by simp) (c := moved ++ [.lesson, .index, .context, .slots, .records, .raised, .arbiter, .chain])).comp
      (State.missCapture_unchanged _ _) (by simp) (by simp)

/-- A decision that has passed the tests of R110 is taken. -/
theorem Deciding.taken (d : Deciding c s x moved also kind frame sig levels) (hi : s.capture.context.state = .idle)
    (hc : s.capture.counter ≠ 65535) : DecisionTaken c s moved also kind frame sig levels := by
  intro k hk
  have f := d.filling hi hc hk
  refine ⟨fun h => f.waits h, fun n hn hg => ?_⟩
  have a := f.awaiting n
  have credit (hr : s.capture.running = true) (h1 : 1 ≤ s.capture.credit) := f.exec_running hn hg hr |>.trans (by rw [if_neg (by omega)])
  refine ⟨fun hr h0 => a.counts ((f.exec_running hn hg hr).trans (by rw [if_pos h0])), fun hr h1 hh => a.reads hh (credit hr h1),
    fun hr h1 hh hd => a.faults hr h1 hh hd (credit hr h1), fun hr hd => a.misses hd (f.exec_stopped hn hg hr)⟩

end

end Sys2Proof.Machine
end

section

open Sys2Proof Sys2Proof.Machine

/-- The oldest AUTO decision, where no mode and no lesson word has come before it, is put to the tests of R110. -/
theorem captureDecision_deciding {s : State} {d : Decision} {later : List Decision} (hd : s.capture.decisions = d :: later)
    (hf : s.free .capture = true) (hm : s.decisionMiss d = none) :
    Deciding .captureDecision s { s with capture.decisions := later } [.decisions] (fun t => t.capture.decisions = later) .auto d.frame
      d.signature d.levels := by
  refine ⟨?_, .same, fun p hp => by cases p <;> simp_all [same], ⟨later, rfl⟩, rfl, rfl, fun u hu => ?_⟩
  · show execCaptureDecision s = _
    have hm' : State.decisionMiss { s with capture.decisions := later } d = none := hm
    unfold execCaptureDecision
    rw [hd, hf]
    dsimp only
    rw [State.actOnDecision, hm']
  · rw [State.closeWork_capture]
    exact hu .decisions (by decide)

/-- Settles O35: why a decision is missed before the context is looked at, and the tests of R110 for one that is not. -/
theorem captureDecisionsAreTakenOrMissed : Obligations.CaptureDecisionsAreTakenOrMissed := by
  intro s d later hd hf
  have early {r : Nat} (hm : s.decisionMiss d = some r) :
      Completes .captureDecision s fun t =>
        t.capture.decisions = later ∧ Did [.decisions] [] [(.capture, .captureMissed, r, 0, 0)] s t := by
    have hm' : State.decisionMiss { s with capture.decisions := later } d = some r := hm
    have hx : execCaptureDecision s = .next (s.closeWork (State.missDecision { s with capture.decisions := later } r .auto)) := by
      unfold execCaptureDecision
      rw [hd, hf]
      dsimp only
      rw [State.actOnDecision, hm']
    have popped : Unchanged [.decisions] s { s with capture.decisions := later } := by
      intro p hp
      cases p <;> simp_all [same]
    refine ⟨_, hx, ?_, Sends.did (Sends.after .same (State.raise_sends _ _ _ _ _ _)) (popped.comp (State.missDecision_unchanged _ r .auto))⟩
    rw [State.closeWork_capture, State.missDecision, State.raise_capture]
  refine ⟨fun hp => early ?_, fun hp hs => early ?_, fun hp hs hl => early ?_, fun hp hs hl => ?_⟩
  · simp only [State.decisionMiss, missPower]
    rw [if_pos (by simpa [or_assoc] using hp)]
  · simp only [State.decisionMiss, missStandby]
    rw [if_neg (by simpa [or_assoc] using hp), if_pos (by simpa using hs)]
  · simp only [State.decisionMiss, missLessonEnd]
    rw [if_neg (by simpa [or_assoc] using hp), if_neg (by simpa using hs), if_pos hl]
  · have hm : s.decisionMiss d = none := by
      rw [State.decisionMiss, if_neg (by simpa [or_assoc] using hp), if_neg (by simpa using hs), if_neg (by simp [hl])]
    have deciding := captureDecision_deciding hd hf hm
    exact ⟨fun hb => deciding.missed (takeDecision_busy hb), fun hi hc => deciding.missed (takeDecision_full hi hc),
      fun hi hc => deciding.taken hi hc⟩

/-- What CAPTURE_NOW does once its word is taken (R109). -/
def captureNowAct (w : Word) (t : State) : State :=
  if !t.capture.lessonOpen then t.refuse refusedNoLesson w
  else if t.intake.newest = none then t.refuse refusedNoFrame w
  else
    let held := t.intake.held.getD ⟨[], t.intake.frameNumber, ⟨0, 0⟩⟩
    t.takeDecision .requested held.frame (signatureOf t.post.setup held.means t.monitor.levels) t.monitor.levels

theorem captureNow_exec {s : State} {w : Word} {rest : List Word} (hm : s.control.mode = .live) (h : s.holdsWord 5 w rest) :
    exec .captureNow s = .next (s.closeWork (captureNowAct w (s.wordTaken rest))) := by
  have hx : execCaptureNow s = s.takeWord 5 (fun m => decide (m = .live)) anyArgument captureNowAct := by
    refine congrArg (s.takeWord 5 _ _) (funext fun w => funext fun t => ?_)
    unfold captureNowAct
    split
    · rfl
    · cases t.intake.newest <;> rfl
  exact hx.trans (takeWord_of_holds h (by rw [hm]; decide) (by rw [hm]; decide) (by rw [hm]; rfl) rfl)

/-- CAPTURE_NOW with a lesson open and a newest frame makes its REQUESTED decision in the same step (R109). -/
theorem captureNow_deciding {s : State} {w : Word} {rest : List Word} (hm : s.control.mode = .live) (h : s.holdsWord 5 w rest)
    (hl : s.capture.lessonOpen = true) (hn : s.intake.newest ≠ none) :
    let held := s.intake.held.getD ⟨[], s.intake.frameNumber, ⟨0, 0⟩⟩
    Deciding .captureNow s (s.wordTaken rest) [.fifo, .timer] (fun t => Took rest s t ∧ t.post.inHand = none) .requested held.frame
      (signatureOf s.post.setup held.means s.monitor.levels) s.monitor.levels := by
  refine ⟨?_, s.wordTaken_sends rest, s.wordTaken_unchanged rest, ⟨s.capture.decisions, by rw [State.wordTaken_capture]⟩,
    s.wordTaken_intake rest, s.wordTaken_monitor rest, fun u hu => took_of_unchanged h hu⟩
  rw [captureNow_exec hm h, captureNowAct, if_neg (by simp [hl]), if_neg (by simpa using hn), State.wordTaken_intake,
    State.wordTaken_monitor, State.wordTaken_post]

/-- Settles O36: CAPTURE_NOW refused, and its decision put to the tests of R110. -/
theorem captureNowDecides : Obligations.CaptureNowDecides := by
  intro s w rest hm h
  have hx := captureNow_exec hm h
  refine ⟨fun hl => refusesWord_of h ?_, fun hl hn => refusesWord_of h ?_, fun hl hn => ?_⟩
  · rw [hx, captureNowAct, if_pos (by simp [hl])]
    rfl
  · rw [hx, captureNowAct, if_neg (by simp [hl]), if_pos (by simpa using hn)]
    rfl
  · have deciding := captureNow_deciding hm h hl hn
    have hcap := s.wordTaken_capture rest
    refine ⟨fun hb => (deciding.missed (takeDecision_busy (by rwa [hcap]))).imp fun t ⟨ht, ⟨hk, hh⟩, hd⟩ => ⟨ht, hk, hh, hd⟩,
      fun hi hc => (deciding.missed (takeDecision_full (by rwa [hcap]) (by rwa [hcap]))).imp fun t ⟨ht, ⟨hk, hh⟩, hd⟩ => ⟨ht, hk, hh, hd⟩,
      fun hi hc g hg => ?_⟩
    have taken := deciding.taken hi hc
    rw [hg] at taken
    exact taken

end

section
/-! SUPPORT. The end of a unit of the running job: the reads that are left to it (R102, R162, R163), the end of a job with no pin (R145), and the
engine's going on with other work (R94, R187). -/

namespace Sys2Proof.Machine

set_option Elab.async false

variable {s t u x y z : State} {ops : List RecordOp} {news : List (Block × EventKind × Nat × Nat × Nat)} {changed : List Piece}

/-- What leaves the record queue, the events waiting and the frame number sends nothing. -/
theorem Sends.of_unchanged (h : Unchanged changed s t) (hr : Piece.records ∉ changed := by decide) (ha : Piece.raised ∉ changed := by decide)
    (hf : Piece.statistics ∉ changed := by decide) : Sends [] [] s t := by
  obtain ⟨hq, hb, hl⟩ := h .records hr
  intro m hm
  refine ⟨?_, by simp [State.ops, hq, hb], .none (h .raised ha) (h .statistics hf).2.1⟩
  rw [List.length_nil, Nat.zero_add] at hm
  unfold State.roomFor State.noneWait at *
  rwa [hq, hb, hl]

/-! ## Blocks that wait go on waiting (R155) -/

/-- A block that waits for room in the record queue still waits. -/
def WaitsOn (s t : State) : Prop := ∀ b, s.free b = false → t.free b = false

theorem WaitsOn.trans (h : WaitsOn s t) (k : WaitsOn t u) : WaitsOn s u := fun b hb => k b (h b hb)

theorem WaitsOn.same (h : t.port.blocked = s.port.blocked := by rfl) (k : t.port.later = s.port.later := by rfl) : WaitsOn s t := by
  intro b hb
  rwa [State.free, State.waiting, h, k]

theorem WaitsOn.of_unchanged (h : Unchanged changed s t) (hr : Piece.records ∉ changed := by decide) : WaitsOn s t := by
  obtain ⟨-, hb, hl⟩ := h .records hr
  exact .same hb hl

theorem State.issue_waitsOn (s : State) (actor issuer : Block) (op : RecordOp) : WaitsOn s (s.issue actor issuer op) := by
  intro b hb
  by_contra hf
  rw [free_of_issue (Bool.eq_true_of_not_eq_false hf)] at hb
  exact absurd hb (by decide)

theorem State.raise_waitsOn (s : State) (o : Block) (k : EventKind) (n a b : Nat) : WaitsOn s (s.raise o k n a b) := by
  intro c hc
  unfold State.raise State.emit
  split
  · simp only [State.free, State.waiting, Bool.not_eq_false', Bool.or_eq_true] at hc ⊢
    refine hc.imp_right fun h => ?_
    simp only [State.hold, List.any_append, h, Bool.true_or]
  · exact hc

/-! ## Outcomes (R131, R145) -/

theorem State.writeOutcome_sends (s : State) (n : Nat) (e : JobEntry) :
    Sends [outcomeOp n e.state.value e.reason e.pieces e.index] [] s (s.writeOutcome n e) :=
  Sends.after (t := s.setJobEntry n e) .same (State.issueWrite_sends _ _ _ _)

theorem State.writePieces_sends (s : State) (n d : Nat) :
    Sends [writeRuns [(0x800 + 64 * n + 0x34, leBytes 4 d), (0x800 + 64 * n + 0x30, leBytes 1 (s.jobs.entry n).state.value)]] [] s
      (s.writePieces n d) :=
  Sends.after (t := s.setJobEntry n _) .same (State.issueWrite_sends _ _ _ _)

theorem State.writeOutcome_entries (s : State) (n : Nat) (e : JobEntry) :
    (s.writeOutcome n e).jobs.entries = s.jobs.entries.set n e := by
  rw [State.writeOutcome, State.issueWrite_jobs]
  rfl

theorem State.writePieces_entries (s : State) (n d : Nat) :
    (s.writePieces n d).jobs.entries = s.jobs.entries.set n { s.jobs.entry n with pieces := d } := by
  rw [State.writePieces, State.issueWrite_jobs]
  rfl

theorem Jobs.entry_set {j k : Jobs} {n : Nat} {e : JobEntry} (h : k.entries = j.entries.set n e) (hn : n < j.entries.length) (m : Nat) :
    k.entry m = if m = n then e else j.entry m := by
  unfold Jobs.entry
  rw [h, List.getD_eq_getElem?_getD, List.getD_eq_getElem?_getD, List.getElem?_set]
  by_cases hm : n = m
  · subst hm
    simp [hn]
  · simp [hm, Ne.symm hm]

/-- A job with no pin has ended (R145). -/
theorem endJob_of_unpinned {j : RunningJob} (h : j.pin = none) (st : JobState) (reason index : Nat) :
    s.endJob j st reason index =
      ((s.writeOutcome j.entry ⟨st, reason, j.done, index⟩).raise .jobs .jobEnd j.entry st.value reason).setRunning none := by
  unfold State.endJob State.releaseJobPin
  rw [h]

section
variable {j : RunningJob} (hp : j.pin = none) (st : JobState) (reason index : Nat)
include hp

theorem endJob_sends (s : State) :
    Sends [outcomeOp j.entry st.value reason j.done index] [(.jobs, .jobEnd, j.entry, st.value, reason)] s (s.endJob j st reason index) := by
  rw [endJob_of_unpinned hp]
  exact ((s.writeOutcome_sends j.entry ⟨st, reason, j.done, index⟩).thenNews (State.raise_sends _ _ _ _ _ _)).before .same

theorem endJob_unchanged (s : State) :
    Unchanged [.jobEntries, .runningJob, .records, .raised, .arbiter] s (s.endJob j st reason index) := by
  rw [endJob_of_unpinned hp]
  have written := (s.writeOutcome_unchanged j.entry ⟨st, reason, j.done, index⟩).comp
    (State.raise_unchanged _ .jobs .jobEnd j.entry st.value reason) (c := [.jobEntries, .records, .raised, .arbiter])
  exact written.comp (State.setRunning_unchanged _ none)

theorem endJob_waitsOn (s : State) : WaitsOn s (s.endJob j st reason index) := by
  rw [endJob_of_unpinned hp]
  have written : WaitsOn s (s.writeOutcome j.entry ⟨st, reason, j.done, index⟩) :=
    (WaitsOn.same : WaitsOn s (s.setJobEntry j.entry ⟨st, reason, j.done, index⟩)).trans (State.issue_waitsOn _ _ _ _)
  exact (written.trans (State.raise_waitsOn _ _ _ _ _ _)).trans .same

theorem endJob_jobs (s : State) :
    (s.endJob j st reason index).jobs.running = none
      ∧ (s.endJob j st reason index).jobs.entries = s.jobs.entries.set j.entry ⟨st, reason, j.done, index⟩ := by
  rw [endJob_of_unpinned hp]
  refine ⟨rfl, ?_⟩
  show (State.raise _ _ _ _ _ _).jobs.entries = _
  rw [State.raise_jobs, State.writeOutcome_entries]

end

/-! ## The end of a unit (R93, R94, R187) -/

/-- The unit in progress has gone, and nothing else has changed but what the arbiter grants. -/
def UnitGone (y z : State) : Prop := Unchanged [.unit, .arbiter] y z ∧ z.engine.unit = none

theorem State.dropUnit_gone (y : State) : UnitGone y y.dropUnit := ⟨y.dropUnit_unchanged, y.dropUnit_unit⟩

theorem UnitGone.counted (h : UnitGone y z) (q : Requester) : UnitGone y (z.countBurst q) := by
  obtain ⟨hu, hn⟩ := h
  refine ⟨hu.comp (z.countBurst_unchanged q), ?_⟩
  obtain ⟨g, e⟩ := z.countBurst_is q
  rw [e]
  exact hn

/-- The step that ended the unit did what came before its end, and the engine has taken its next work. -/
theorem UnitGone.did (h : UnitGone y z) (sent : Sends ops news s y) (k : Unchanged (changed ++ .records :: closing) s y)
    (hu : Piece.unit ∈ changed) : Did changed ops news s (s.closeWork z) ∧ (s.closeWork z).tookNext := by
  obtain ⟨hz, hn⟩ := h
  refine ⟨(sent.before (.of_unchanged hz)).did ?_, s.closeWork_tookNext hn⟩
  refine k.comp hz (List.Subset.refl _) fun p hp => ?_
  simp only [List.mem_cons, List.not_mem_nil, or_false] at hp
  rcases hp with rfl | rfl
  · exact List.mem_append_left _ hu
  · exact List.mem_append_right _ (by simp)

/-- The end of a job does not make the test of R187 hold where a capture keeps the part up, or the part does not shut down. -/
theorem shutdownTest_of_upAfterJob (h : s.upAfterJob) (hu : Unchanged changed s t) (hw : WaitsOn s t)
    (k : ∀ p ∈ [Piece.mode, .announcements, .frameTurn, .context], p ∉ changed := by decide) : t.shutdownTest = t := by
  have h1 : t.control.mode = s.control.mode := hu .mode (k _ (by simp))
  have h2 : t.control.announcements = s.control.announcements := hu .announcements (k _ (by simp))
  have h3 := hu .frameTurn (k _ (by simp))
  have h4 : t.capture.context = s.capture.context := hu .context (k _ (by simp))
  have he : t.entriesDone = s.entriesDone := by simp [State.entriesDone, h2, h3.2.2]
  unfold State.shutdownTest
  refine if_neg fun ⟨k1, k2, k3, _, k5, _⟩ => ?_
  rcases h with h | h | h | h
  · exact h (h1.symm.trans k1)
  · exact Bool.false_ne_true (h.symm.trans (he.symm.trans k2))
  · exact h (h4 ▸ k3)
  · exact Bool.false_ne_true ((hw _ h).symm.trans k5)

/-- Taking work moves the running job's next piece at most by one (R94). -/
theorem closeWork_running_cases (s0 : State) {j : RunningJob} (h : u.jobs.running = some j) :
    ∃ next, j.next ≤ next ∧ next ≤ j.next + 1 ∧ (s0.closeWork u).jobs.running = some { j with next := next } := by
  have unit (x : State) (w : Work) (ps : List Part) : (x.startUnit w ps).jobs = x.jobs := by
    obtain ⟨e, g, l, p, h⟩ := x.startUnit_is w ps
    rw [h]
  rw [State.closeWork, State.close_jobs]
  rcases u.takeWork_is with e | ⟨w, ps, e⟩ | ⟨w, ps, e⟩ | ⟨i, w, ps, hi, e⟩ | ⟨-, e⟩
  · exact ⟨j.next, Nat.le_refl _, Nat.le_succ _, by rw [e, h]⟩
  · exact ⟨j.next, Nat.le_refl _, Nat.le_succ _, by rw [e, unit, h]⟩
  · exact ⟨j.next, Nat.le_refl _, Nat.le_succ _, by rw [e, unit, h]⟩
  · obtain rfl : i = j := Option.some.inj (hi.symm.trans h)
    exact ⟨i.next + 1, Nat.le_succ _, Nat.le_refl _, by rw [e, unit]⟩
  · exact ⟨j.next, Nat.le_refl _, Nat.le_succ _, by rw [e, (u.scanFrom_spec _ _).2.2.2.2.2.2.2.2.2.1, h]⟩

theorem closeWork_running_none (s0 : State) (h : u.jobs.running = none) : (s0.closeWork u).jobs.running = none := by
  have := s0.closeWork_running u
  rw [h] at this
  simpa using this

/-! ## A step of the running job -/

/-- What a step has come to in x before its job ends: what it has sent and changed, and that it leaves the outcomes of other entries. -/
structure JobAt (s x : State) (entry : Nat) (changed : List Piece) (ops : List RecordOp)
    (news : List (Block × EventKind × Nat × Nat × Nat)) : Prop where
  sends : Sends ops news s x
  unchanged : Unchanged (changed ++ .records :: closing) s x
  waits : WaitsOn s x
  length : x.jobs.entries.length = s.jobs.entries.length
  others : ∀ m, m ≠ entry → x.jobs.entry m = s.jobs.entry m

theorem JobAt.refl (s : State) (entry : Nat) : JobAt s s entry changed [] [] := ⟨.refl s, .refl s, .same, rfl, fun _ _ => rfl⟩

/-- A further act that leaves the outcomes. -/
theorem JobAt.andThen {entry : Nat} {ops' : List RecordOp} {news' : List (Block × EventKind × Nat × Nat × Nat)} {more : List Piece}
    (d : JobAt s x entry changed ops news) (sent : Sends ops' news' x y) (hu : Unchanged more x y) (hw : WaitsOn x y)
    (hm : more ⊆ changed ++ .records :: closing) (he : y.jobs.entries = x.jobs.entries) :
    JobAt s y entry changed (ops ++ ops') (news ++ news') := by
  refine ⟨d.sends.trans sent, d.unchanged.comp hu (List.Subset.refl _) hm, d.waits.trans hw, by rw [he, d.length], fun m h => ?_⟩
  rw [Jobs.entry, he]
  exact d.others m h

/-- The count of pieces written where the piece is not the last (R141). -/
theorem JobAt.counted {n done : Nat} (d : JobAt s x n changed ops news) (hn : n < s.jobs.entries.length) (hc : Piece.jobEntries ∈ changed) :
    JobAt s (x.writePieces n done) n changed
      (ops ++ [writeRuns [(0x800 + 64 * n + 0x34, leBytes 4 done), (0x800 + 64 * n + 0x30, leBytes 1 (x.jobs.entry n).state.value)]]) news := by
  have he := x.writePieces_entries n done
  refine ⟨d.sends.thenOps (x.writePieces_sends n done), ?_, ?_, ?_, fun m h => ?_⟩
  · refine d.unchanged.comp (x.writePieces_unchanged n done) (List.Subset.refl _) fun p hp => ?_
    simp only [List.mem_cons, List.not_mem_nil, or_false] at hp
    rcases hp with rfl | rfl | rfl
    · exact List.mem_append_left _ hc
    · simp
    · simp
  · exact d.waits.trans ((WaitsOn.same : WaitsOn x (x.setJobEntry n _)).trans (State.issue_waitsOn _ _ _ _))
  · rw [he, List.length_set, d.length]
  · rw [Jobs.entry_set he (by rw [d.length]; exact hn), if_neg h]
    exact d.others m h

/-- No job runs, the engine has taken other work, and the outcome of the job's entry alone has changed. -/
def JobClosed (s t : State) (n : Nat) (e : JobEntry) : Prop :=
  t.tookNext ∧ t.jobs.running = none ∧ t.jobs.entry n = e ∧ ∀ m, m ≠ n → t.jobs.entry m = s.jobs.entry m

/-- The job's end closes the step. -/
theorem JobAt.ends {j : RunningJob} (d : JobAt s x j.entry changed ops news) (hp : j.pin = none) (hn : j.entry < s.jobs.entries.length)
    (hc : [.jobEntries, .runningJob, .unit] ⊆ changed) {st : JobState} {reason index : Nat} (h : UnitGone (x.endJob j st reason index) z) :
    JobClosed s (s.closeWork z) j.entry ⟨st, reason, j.done, index⟩
      ∧ Did changed (ops ++ [outcomeOp j.entry st.value reason j.done index]) (news ++ [(.jobs, .jobEnd, j.entry, st.value, reason)]) s
          (s.closeWork z) := by
  simp only [List.cons_subset] at hc
  obtain ⟨c1, c2, c3, -⟩ := hc
  obtain ⟨hr, he⟩ := endJob_jobs hp st reason index x
  have unchanged : Unchanged (changed ++ .records :: closing) s (x.endJob j st reason index) := by
    refine d.unchanged.comp (endJob_unchanged hp st reason index x) (List.Subset.refl _) fun p hp => ?_
    simp only [List.mem_cons, List.not_mem_nil, or_false] at hp
    rcases hp with rfl | rfl | rfl | rfl | rfl <;> simp [c1, c2]
  obtain ⟨did, took⟩ := h.did (d.sends.trans (endJob_sends hp st reason index x)) unchanged c3
  have hz : (s.closeWork z).jobs.entries = x.jobs.entries.set j.entry ⟨st, reason, j.done, index⟩ := by
    rw [State.closeWork_entries]
    exact Eq.trans (h.1 .jobEntries (by decide)) he
  have entry := Jobs.entry_set hz (by rw [d.length]; exact hn)
  refine ⟨⟨took, closeWork_running_none _ ?_, ?_, fun m hm => ?_⟩, did⟩
  · exact Eq.trans (h.1 .runningJob (by decide)) hr
  · rw [entry, if_pos rfl]
  · rw [entry, if_neg hm]
    exact d.others m hm

/-- What the end of a job and of its unit changes, up to the end of the step. -/
theorem UnitGone.after_endJob {j : RunningJob} (hp : j.pin = none) {st : JobState} {reason index : Nat} (s : State)
    (h : UnitGone (x.endJob j st reason index) z) :
    Unchanged [.jobEntries, .runningJob, .records, .raised, .arbiter, .unit, .context, .scan] x (s.closeWork z) :=
  ((endJob_unchanged hp st reason index x).comp h.1 (c := [.jobEntries, .runningJob, .records, .raised, .arbiter, .unit])).comp
    (s.closeWork_unchanged z)

/-- The end of the job leaves the test of R187 unmet. -/
theorem JobAt.staysUp {j : RunningJob} (d : JobAt s x j.entry changed ops news) (hp : j.pin = none) (h : s.upAfterJob)
    (hc : ∀ p ∈ [Piece.mode, .announcements, .frameTurn, .context], p ∉ changed) (st : JobState) (reason index : Nat) :
    (x.endJob j st reason index).dropUnit.shutdownTest = (x.endJob j st reason index).dropUnit := by
  have unchanged := (d.unchanged.comp (endJob_unchanged hp st reason index x)
    (c := changed ++ [.records, .arbiter, .raised, .jobEntries, .runningJob, .unit]) (by simp) (by simp)).comp
    (State.dropUnit_unchanged _) (c := changed ++ [.records, .arbiter, .raised, .jobEntries, .runningJob, .unit]) (by simp) (by simp)
  refine shutdownTest_of_upAfterJob h unchanged ((d.waits.trans (endJob_waitsOn hp st reason index x)).trans
    (.of_unchanged (State.dropUnit_unchanged _))) fun p hp => ?_
  have := hc p hp
  simp only [List.mem_cons, List.not_mem_nil, or_false] at hp
  rcases hp with rfl | rfl | rfl | rfl <;> simpa using this

end Sys2Proof.Machine
end

section
/-! SUPPORT. Reads of a unit that meet errors, in a burst or at its completion (R102, R162, R163), and the job that a faulted piece ends (R146). -/

namespace Sys2Proof.Machine

set_option Elab.async false

variable {s t x y z : State} {q : Requester} {u : EngineUnit}

/-! ## Correctable errors counted (R162) -/

/-- So many correctable errors have been counted. -/
def State.counted (s : State) (k : Nat) : State := { s with port.correctable := s.correctableAfter k }

theorem State.counted_zero (s : State) : s.counted 0 = s := rfl

theorem State.counted_succ (s : State) (k : Nat) : s.countCorrectable.counted k = s.counted (k + 1) := by
  have h : s.countCorrectable.correctableAfter k = s.correctableAfter (k + 1) := by
    unfold State.correctableAfter State.countCorrectable satInc
    rw [if_neg (Nat.succ_ne_zero k)]
    dsimp only [Config.counterMax]
    split <;> omega
  unfold State.counted
  rw [h]
  rfl

theorem foldl_countCorrectable (l : List Nat) (s : State) : l.foldl (fun t _ => t.countCorrectable) s = s.counted l.length := by
  induction l generalizing s with
  | nil => rfl
  | cons w l ih => rw [List.foldl_cons, ih, State.counted_succ, List.length_cons]

theorem State.counted_unchanged (s : State) (k : Nat) : Unchanged [.errors] s (s.counted k) := by
  intro p hp
  cases p <;> simp_all [same, State.counted]

/-- The correctable words among the first m words from w. -/
def State.weakAmong (s : State) (w m : Nat) : Nat := ((List.range m).filter fun i => decide (w + i ∈ s.port.weak)).length

theorem State.weakAmong_succ (s : State) (w m : Nat) :
    s.weakAmong w (m + 1) = (if w ∈ s.port.weak then 1 else 0) + s.weakAmong (w + 1) m := by
  unfold State.weakAmong
  rw [List.range_succ_eq_map, List.filter_cons, List.filter_map, Nat.add_zero]
  have hf : ((fun i => decide (w + i ∈ s.port.weak)) ∘ Nat.succ) = fun i => decide (w + 1 + i ∈ s.port.weak) := by
    funext i
    show decide (w + (i + 1) ∈ _) = _
    rw [Nat.add_right_comm, Nat.add_assoc]
  rw [hf]
  split <;> rename_i h
  · rw [if_pos (by simpa using h), List.length_cons, List.length_map, Nat.add_comm]
  · rw [if_neg (by simpa using h), List.length_map, Nat.zero_add]

/-- A read is abandoned at its first uncorrectable word, with the correctable words before it counted (R162, R163). -/
theorem checkWords_fault {w n v : Nat} (hb : v ∈ s.port.bad) (h1 : w ≤ v) (h2 : v < w + n)
    (h : ∀ y, w ≤ y → y < v → y ∉ s.port.bad) :
    s.checkWords q w n = ((s.counted (s.weakAmong w (v - w))).reportUncorrectable q v, false) := by
  induction n generalizing w s with
  | zero => omega
  | succ n ih =>
    by_cases k : w = v
    · subst k
      rw [State.checkWords, if_pos hb, Nat.sub_self]
      rfl
    · rw [State.checkWords, if_neg (h w (Nat.le_refl _) (by omega)), show v - w = v - (w + 1) + 1 by omega, State.weakAmong_succ]
      split
      · rw [ih (s := s.countCorrectable) hb (by omega) (by omega) fun y h1 h2 => h y (by omega) h2, State.counted_succ, Nat.add_comm]
        rfl
      · rw [ih hb (by omega) (by omega) fun y h1 h2 => h y (by omega) h2, Nat.zero_add]

/-! ## The reads left to a unit -/

theorem finishReads_clean (h : ∀ w, w ∈ s.port.bad ∨ w ∈ s.port.weak → u.needsWord w = false) : s.finishReads u = (s, true) := by
  have hb : u.firstNeeded s.port.bad = none := by
    unfold EngineUnit.firstNeeded
    rw [List.filter_eq_nil_iff.2 fun w hw => by simp [h w (.inl hw)]]
    rfl
  have hw : u.countable s.port.weak none = [] := List.filter_eq_nil_iff.2 fun w hw => by simp [h w (.inr hw)]
  unfold State.finishReads
  rw [hb]
  dsimp only
  rw [hw]
  rfl

theorem finishReads_fault {v : Nat} (hb : v ∈ s.port.bad) (hn : u.needsWord v = true) (h : ∀ y ∈ s.port.bad, u.needsWord y = true → v ≤ y) :
    s.finishReads u = ((s.counted (s.port.weak.filter fun y => u.needsWord y && decide (y < v)).length).reportUncorrectable .engine v, false) := by
  have hf : u.firstNeeded s.port.bad = some v := by
    unfold EngineUnit.firstNeeded
    rw [List.min?_eq_some_iff]
    exact ⟨List.mem_filter.2 ⟨hb, hn⟩, fun y hy => h y (List.mem_filter.1 hy).1 (List.mem_filter.1 hy).2⟩
  unfold State.finishReads
  rw [hf]
  dsimp only
  rw [foldl_countCorrectable]
  rfl

/-! ## The error reported (R163) -/

theorem State.reportUncorrectable_sends (s : State) (q : Requester) (w : Nat) :
    Sends [] [(.memory, .memoryFault, q.value, 4 * w, min 4294967295 (s.port.uncorrectable + 1))] s (s.reportUncorrectable q w) :=
  Sends.after (t := { s with port.uncorrectable := satInc Config.counterMax s.port.uncorrectable }.setCause .memoryFault)
    (fun m hm => ⟨by rw [List.length_nil, Nat.zero_add] at hm; exact hm, by simp [State.ops], .none⟩) (State.raise_sends _ _ _ _ _ _)

theorem State.reportUncorrectable_jobs (s : State) (q : Requester) (w : Nat) : (s.reportUncorrectable q w).jobs = s.jobs :=
  State.raise_jobs _ _ _ _ _ _

/-! ## A job ended by a fault (R146) -/

/-- The error is counted, MEMORY_FAULT is set, and the correctable words read before it are counted. -/
theorem faultReported_of {s0 : State} {v k : Nat} {changed : List Piece} (he : same s s0 .errors) (hc : same s s0 .cause)
    (h : Unchanged changed ((s0.counted k).reportUncorrectable q v) t) (h1 : Piece.errors ∉ changed) (h2 : Piece.cause ∉ changed) :
    FaultReported s t k ∧ t.port.uncorrectable = min 4294967295 (s.port.uncorrectable + 1) := by
  obtain ⟨t1, t2, t3, t4⟩ := h .errors h1
  have t5 : t.post.cause = _ := h .cause h2
  obtain ⟨p1, p2⟩ := (s0.counted k).reportUncorrectable_port q v
  obtain ⟨r1, r2, r3, r4⟩ := State.raise_unchanged
    ({ s0.counted k with port.uncorrectable := satInc Config.counterMax (s0.counted k).port.uncorrectable }.setCause .memoryFault)
    .memory .memoryFault q.value (4 * v) (satInc Config.counterMax (s0.counted k).port.uncorrectable) .errors (by decide)
  obtain ⟨e1, e2, e3, e4⟩ := he
  have hu : t.port.uncorrectable = min 4294967295 (s.port.uncorrectable + 1) := by
    rw [t2, p1, ← e2]
    rfl
  refine ⟨⟨hu, ?_, ?_, ?_, fun i => ?_⟩, hu⟩
  · rw [t1]
    refine r1.trans ?_
    show s0.correctableAfter k = _
    rw [State.correctableAfter, State.correctableAfter, e1]
  · rw [t4]
    exact r4.trans e4
  · rw [t3]
    exact r3.trans e3
  · rw [t5, p2, withCause_bit]
    exact congrArg (fun c : BitVec 6 => c.getLsbD i || decide (i = 5)) hc

/-- The reads of a unit of the job runner meet an uncorrectable word in a burst, or at the completion. -/
theorem jobFault_exec {completion cmd : Instr} {v k : Nat} (h : s.faultsAt u completion cmd v k)
    (hfin : ∀ r, s.finishReads u = (r, false) → exec completion s = .next (s.closeWork r.jobPieceFaulted.dropUnit.shutdownTest))
    (hwork : ∀ r : State, r.faultUnit u = r.jobPieceFaulted.dropUnit.shutdownTest) :
    ∃ s0, (s0 = s ∨ s0 = s.atBurst) ∧ ∃ z,
      exec cmd s = .next (s.closeWork z)
        ∧ (z = ((s0.counted k).reportUncorrectable .engine v).jobPieceFaulted.dropUnit.shutdownTest
          ∨ z = (((s0.counted k).reportUncorrectable .engine v).jobPieceFaulted.dropUnit.shutdownTest).countBurst .engine) := by
  obtain ⟨hb, hu, ⟨rfl, hn, hmin, rfl⟩ | ⟨b, g, rfl, hg, hw, hwr, hm, h1, h2, hbad, rfl⟩⟩ := h
  · exact ⟨s, .inl rfl, _, hfin _ (finishReads_fault hb hn hmin), .inl rfl⟩
  · refine ⟨s.atBurst, .inr rfl, _, exec_engineBurst hg hw hu hm rfl, .inr ?_⟩
    have hl : s.atBurst.load .engine b.addr b.len =
        ((s.atBurst.counted (s.weakAmong (b.addr / 4) (v - b.addr / 4))).reportUncorrectable .engine v, none) := by
      unfold State.load
      rw [checkWords_fault (s := s.atBurst) hb h1 (by omega) hbad]
      rfl
    unfold State.engineBurst
    rw [if_neg (by simp [hwr]), hl]
    dsimp only
    rw [hwork]
    rfl

/-- The running job, which has no pin, ends FAILED with reason MEMORY, and the engine goes on with other work. -/
theorem jobFault_ends {completion cmd : Instr} {v k : Nat} {j : RunningJob} (h : s.faultsAt u completion cmd v k)
    (hfin : ∀ r, s.finishReads u = (r, false) → exec completion s = .next (s.closeWork r.jobPieceFaulted.dropUnit.shutdownTest))
    (hwork : ∀ r : State, r.faultUnit u = r.jobPieceFaulted.dropUnit.shutdownTest)
    (hj : s.jobs.running = some j) (hn : j.entry < s.jobs.entries.length) (hp : j.pin = none) (hup : s.upAfterJob) :
    Completes cmd s fun t =>
      JobClosed s t j.entry ⟨.failed, 9, j.done, 255⟩
        ∧ FaultReported s t k
        ∧ Did [.jobEntries, .runningJob, .unit, .errors, .cause] [outcomeOp j.entry 5 9 j.done 255]
            [(.memory, .memoryFault, 1, 4 * v, t.port.uncorrectable), (.jobs, .jobEnd, j.entry, 5, 9)] s t := by
  obtain ⟨s0, hs, z, hx, hz⟩ := jobFault_exec h hfin hwork
  have h0 : Unchanged [.unit] s s0 := by
    rcases hs with rfl | rfl
    · exact .refl _
    · intro p hp
      cases p <;> simp_all [same, State.atBurst]
  have counted := h0.comp (s0.counted_unchanged k) (c := [.unit, .errors])
  have reported := counted.comp (State.reportUncorrectable_unchanged _ .engine v) (c := [.unit, .errors, .cause, .raised, .records, .arbiter])
  have hjobs : ((s0.counted k).reportUncorrectable .engine v).jobs = s.jobs := by
    rw [State.reportUncorrectable_jobs]
    rcases hs with rfl | rfl <;> rfl
  have d : JobAt s ((s0.counted k).reportUncorrectable .engine v) j.entry [.jobEntries, .runningJob, .unit, .errors, .cause] []
      [(.memory, .memoryFault, 1, 4 * v, min 4294967295 (s.port.uncorrectable + 1))] := by
    have he : (s0.counted k).port.uncorrectable = s.port.uncorrectable := by rcases hs with rfl | rfl <;> rfl
    rw [← he]
    refine ⟨(Sends.of_unchanged counted).after (State.reportUncorrectable_sends _ .engine v), reported.mono,
      (WaitsOn.of_unchanged counted).trans (WaitsOn.trans .same (State.raise_waitsOn _ _ _ _ _ _)), by rw [hjobs], fun m _ => by rw [hjobs]⟩
  have hend : ((s0.counted k).reportUncorrectable .engine v).jobPieceFaulted =
      ((s0.counted k).reportUncorrectable .engine v).endJob j .failed reasonMemory 255 := by
    unfold State.jobPieceFaulted
    rw [hjobs, hj]
  have gone : UnitGone (((s0.counted k).reportUncorrectable .engine v).endJob j .failed reasonMemory 255) z := by
    rw [hend, d.staysUp hp hup (by decide)] at hz
    rcases hz with rfl | rfl
    · exact State.dropUnit_gone _
    · exact (State.dropUnit_gone _).counted _
  obtain ⟨ended, did⟩ := d.ends hp hn (by decide) gone
  obtain ⟨fault, count⟩ := faultReported_of (s := s) (h0 .errors (by decide)) (h0 .cause (by decide)) (gone.after_endJob hp s) (by decide) (by decide)
  refine ⟨_, hx, ended, fault, ?_⟩
  rw [count]
  exact did

end Sys2Proof.Machine
end

section
/-! SUPPORT. The tile sums of a signature piece (R12, R66): each sample is added once, to the sum of its tile. -/

namespace Sys2Proof.Machine

set_option Elab.async false

/-- A quotient is the number of the interval that holds its dividend. -/
theorem div_eq_iff_between {x d c : Nat} (hd : 0 < d) : x / d = c ↔ c * d ≤ x ∧ x < (c + 1) * d := by
  rw [← Nat.le_div_iff_mul_le hd, ← Nat.div_lt_iff_lt_mul hd]
  omega

/-- What a sample adds to the sum of tile n. -/
def addedTo (w h n : Nat) (v : Nat × Nat → Nat) (p : Nat × Nat) : Nat :=
  if p.1 / (w / 16) = n % 16 ∧ p.2 / (h / 12) = n / 16 then v p else 0

/-- With all samples added, each tile has the sum of those that lie in it. -/
theorem foldl_addSample (w h : Nat) (v : Nat × Nat → Nat) (l : List (Nat × Nat)) {sums : List Nat} (hs : sums.length = 192) :
    (l.foldl (fun s p => addSample s w h p.1 p.2 (v p)) sums).length = 192
      ∧ ∀ n, n < 192 →
          (l.foldl (fun s p => addSample s w h p.1 p.2 (v p)) sums).getD n 0 = sums.getD n 0 + (l.map (addedTo w h n v)).sum := by
  induction l generalizing sums with
  | nil => exact ⟨hs, fun n _ => rfl⟩
  | cons p l ih =>
    obtain ⟨hl, hd⟩ := ih ((addSample_length sums w h p.1 p.2 (v p)).trans hs)
    refine ⟨hl, fun n hn => ?_⟩
    rw [List.foldl_cons, hd n hn, addSample_getD hs _ _ _ _ _ hn, List.map_cons, List.sum_cons, Nat.add_assoc]
    rfl

/-- The sums of a piece's samples by tile are those of R66. -/
theorem sum_addedTo {p : Part} {rd : Getter} {n : Nat} (hw : 16 ≤ p.render.ws) (hh : 12 ≤ p.render.hs) :
    (p.pixels.map (addedTo p.render.ws p.render.hs n fun q => rd (p.render.lumaAddr q.1 q.2))).sum = p.tileSum rd (n % 16) (n / 16) := by
  unfold Part.pixels Part.tileSum
  rw [List.map_flatMap, List.flatMap_def, List.sum_flatten, List.map_map]
  refine congrArg List.sum (List.map_congr_left fun dy _ => congrArg List.sum ?_)
  beta_reduce
  rw [List.map_map]
  refine List.map_congr_left fun dx _ => if_congr ?_ rfl rfl
  rw [div_eq_iff_between (by omega), div_eq_iff_between (by omega), and_assoc]

/-- The sums with a signature piece added (R66). -/
theorem addSamples_eq {p : Part} {rd : Getter} {sums : List Nat} (hw : 16 ≤ p.render.ws) (hh : 12 ≤ p.render.hs) (hl : sums.length = 192) :
    p.addSamples rd sums = (List.range 192).map fun n => sums.getD n 0 + p.tileSum rd (n % 16) (n / 16) := by
  obtain ⟨hlen, hget⟩ := foldl_addSample p.render.ws p.render.hs (fun q => rd (p.render.lumaAddr q.1 q.2)) p.pixels hl
  rw [show p.pixels.foldl (fun s q => addSample s p.render.ws p.render.hs q.1 q.2 (rd (p.render.lumaAddr q.1 q.2))) sums
    = p.addSamples rd sums from rfl] at hlen hget
  refine List.ext_getElem (hlen.trans (by simp)) fun n h1 h2 => ?_
  have hn : n < 192 := by simpa using h2
  have hd := hget n hn
  rw [sum_addedTo hw hh, List.getD_eq_getElem _ _ h1] at hd
  rw [List.getElem_map, List.getElem_range, hd]

end Sys2Proof.Machine
end

section
/-! SUPPORT. A signature piece counted, and the signature formed and inserted after the last (R40, R66, R141, R143, R144). -/

namespace Sys2Proof.Machine

set_option Elab.async false

variable {s t u x y z : State} {ops : List RecordOp} {news : List (Block × EventKind × Nat × Nat × Nat)} {changed : List Piece}

/-! ## A piece counted (R141) -/

/-- The running job as its piece leaves it, its count written where the piece is not the last. -/
def State.pieceCounted (s : State) (j : RunningJob) : State :=
  if j.done < j.total then (s.setRunning (some j)).writePieces j.entry j.done else s.setRunning (some j)

/-- The operation that writes the count of pieces. -/
abbrev countOp (s : State) (n done : Nat) : RecordOp :=
  writeRuns [(0x800 + 64 * n + 0x34, leBytes 4 done), (0x800 + 64 * n + 0x30, leBytes 1 (s.jobs.entry n).state.value)]

theorem jobAt_running (s : State) (entry : Nat) (j : Option RunningJob) (hc : Piece.runningJob ∈ changed) :
    JobAt s (s.setRunning j) entry changed [] [] :=
  ⟨.same, (s.setRunning_unchanged j).mono (by simp [hc]), .same, rfl, fun _ _ => rfl⟩

theorem pieceCounted_jobAt {j : RunningJob} (hn : j.entry < s.jobs.entries.length) (hc : [.jobEntries, .runningJob] ⊆ changed) :
    JobAt s (s.pieceCounted j) j.entry changed (if j.done < j.total then [countOp s j.entry j.done] else []) [] := by
  simp only [List.cons_subset] at hc
  have running := jobAt_running s j.entry (some j) hc.2.1
  unfold State.pieceCounted
  split
  · exact running.counted hn hc.1
  · exact running

theorem pieceCounted_running (s : State) (j : RunningJob) : (s.pieceCounted j).jobs.running = some j := by
  unfold State.pieceCounted
  split
  · rw [State.writePieces, State.issueWrite_jobs]
    rfl
  · rfl

theorem pieceCounted_entry {j : RunningJob} (hn : j.entry < s.jobs.entries.length) (hl : j.done < j.total) :
    (s.pieceCounted j).jobs.entry j.entry = { s.jobs.entry j.entry with pieces := j.done } := by
  unfold State.pieceCounted
  rw [if_pos hl, Jobs.entry_set ((s.setRunning (some j)).writePieces_entries j.entry j.done) hn, if_pos rfl]
  rfl

/-- The running job with one piece of its signature more. -/
def RunningJob.withPiece (j : RunningJob) (sums : List Nat) : RunningJob := { j with done := j.done + 1, sums := sums }

section
variable {u : EngineUnit} {p : Part} {j : RunningJob} (hj : s.jobs.running = some j) (hu : u.parts = [p])
include hj hu

theorem signaturePieceDone_stopped {reason : Nat} (h : j.stop = some reason) :
    s.signaturePieceDone u =
      (s.pieceCounted (j.withPiece (p.addSamples (s.getter u) j.sums))).endJob (j.withPiece (p.addSamples (s.getter u) j.sums))
        .cancelled reason 255 := by
  unfold State.signaturePieceDone
  rw [hj, hu]
  dsimp only
  split
  · rename_i k
    obtain rfl := Option.some.inj (k.symm.trans h)
    rfl
  · rename_i k
    cases h.symm.trans k

theorem signaturePieceDone_more (h : j.stop = none) (hl : j.done + 1 < j.total) :
    s.signaturePieceDone u = s.pieceCounted (j.withPiece (p.addSamples (s.getter u) j.sums)) := by
  unfold State.signaturePieceDone
  rw [hj, hu]
  dsimp only
  split
  · rename_i k
    cases h.symm.trans k
  · exact if_pos hl

theorem signaturePieceDone_last (h : j.stop = none) (hl : j.total ≤ j.done + 1) :
    s.signaturePieceDone u =
      (s.setRunning (some (j.withPiece (p.addSamples (s.getter u) j.sums)))).finishSignature
        (j.withPiece (p.addSamples (s.getter u) j.sums)) := by
  have hn : ¬ j.done + 1 < j.total := Nat.not_lt.2 hl
  unfold State.signaturePieceDone
  rw [hj, hu]
  dsimp only
  split
  · rename_i k
    cases h.symm.trans k
  · rw [if_neg hn, if_neg hn]
    rfl

end

/-! ## The insertion of a SIGNATURE job's entry (R40) -/

/-- A capture's PROVISIONAL entry has this page. -/
def State.pageCaptured (s : State) (page : Nat) : Prop := ∃ k, (s.monitor.entry k).state = .provisional ∧ (s.monitor.entry k).page = page

/-- Entry k is VALID and has this page. -/
def State.holdsPage (s : State) (page k : Nat) : Prop := (s.monitor.entry k).state = .valid ∧ (s.monitor.entry k).page = page

/-- The counter raised to a page above it. -/
def State.raisedTo (s : State) (page : Nat) : State := if s.capture.counter < page then s.setCounter page else s

theorem any_entry_iff {m : Monitor} {f : IndexEntry → Bool} (hf : f {} = false) : m.index.any f = true ↔ ∃ k, f (m.entry k) = true := by
  rw [List.any_eq_true]
  refine ⟨fun ⟨e, he, h⟩ => ?_, fun ⟨k, h⟩ => ?_⟩
  · obtain ⟨k, hk, rfl⟩ := List.getElem_of_mem he
    exact ⟨k, by rwa [Monitor.entry_of_lt hk]⟩
  · by_cases hk : k < m.index.length
    · rw [Monitor.entry_of_lt hk] at h
      exact ⟨_, List.getElem_mem hk, h⟩
    · rw [Monitor.entry, List.getD_eq_getElem?_getD, List.getElem?_eq_none (Nat.le_of_not_lt hk)] at h
      exact absurd (h.symm.trans hf) (by decide)

theorem pageCaptured_iff (s : State) (page : Nat) :
    (s.monitor.index.any fun e => decide (e.state = .provisional) && decide (e.page = page)) = true ↔ s.pageCaptured page := by
  rw [any_entry_iff (by rfl)]
  simp [State.pageCaptured]

/-- The entry with which a SIGNATURE job's page joins the index. -/
abbrev insertedEntry (page frame image : Nat) (sig : Signature) : IndexEntry := ⟨.valid, 0, page, frame, frame, image, sig⟩

section
variable {page image k : Nat} {sig : Signature}

theorem signatureInsert_noLesson (h : s.capture.lessonOpen = false) : s.signatureInsert page sig image = (s, .inl 6) := if_pos h

theorem signatureInsert_busy (h : s.capture.lessonOpen = true) (hc : s.pageCaptured page) : s.signatureInsert page sig image = (s, .inl 8) := by
  rw [State.signatureInsert, if_neg (by simp [h]), if_pos ((pageCaptured_iff s page).2 hc)]
  rfl

theorem State.raisedTo_monitor (s : State) (page : Nat) : (s.raisedTo page).monitor = s.monitor := by
  unfold State.raisedTo
  split
  · exact s.setCounter_monitor page
  · rfl

theorem State.raisedTo_intake (s : State) (page : Nat) : (s.raisedTo page).intake = s.intake := by
  unfold State.raisedTo
  split
  · exact s.setCounter_intake page
  · rfl

theorem State.raisedTo_capture (s : State) (page : Nat) :
    (s.raisedTo page).capture = { s.capture with counter := max s.capture.counter page } := by
  unfold State.raisedTo
  split
  · rename_i h
    rw [State.setCounter_capture, Nat.max_eq_right (Nat.le_of_lt h)]
  · rename_i h
    rw [Nat.max_eq_left (Nat.le_of_not_lt h)]

theorem State.raisedTo_unchanged (s : State) (page : Nat) : Unchanged [.lesson, .records, .arbiter] s (s.raisedTo page) := by
  unfold State.raisedTo
  split
  · exact s.setCounter_unchanged page
  · exact .refl s

theorem State.raisedTo_jobs (s : State) (page : Nat) : (s.raisedTo page).jobs = s.jobs := by
  unfold State.raisedTo
  split
  · exact s.setCounter_jobs page
  · rfl

theorem State.raisedTo_waitsOn (s : State) (page : Nat) : WaitsOn s (s.raisedTo page) := by
  unfold State.raisedTo State.setCounter
  split
  · split
    · exact .same
    · exact (WaitsOn.same : WaitsOn s { s with capture.counter := page }).trans (State.issue_waitsOn _ _ _ _)
  · exact .same

theorem State.raisedTo_sends (s : State) (page : Nat) :
    Sends (if s.capture.counter < page then [fieldWrite 0x0A 2 page] else []) [] s (s.raisedTo page) := by
  unfold State.raisedTo
  split
  · have sent := s.setCounter_sends page
    rwa [fieldChange_of_ne (by omega)] at sent
  · exact .refl s

/-- An entry is written at place k, from a state with this index and frame number, with these events. -/
def PutsAt (s : State) (put : State → State) (k : Nat) (e : IndexEntry) (evicted : List (Block × EventKind × Nat × Nat × Nat)) : Prop :=
  ∀ x, x.monitor = s.monitor → x.intake = s.intake →
    Sends [writeRuns [(0x1000 + 64 * k + 1, e.fieldBytes), (0x1000 + 64 * k, leBytes 1 e.state.value)]] evicted x (put x)
      ∧ Unchanged [.index, .records, .raised, .arbiter] x (put x) ∧ WaitsOn x (put x) ∧ (put x).jobs = x.jobs
      ∧ (put x).monitor.index = s.monitor.index.set k e

theorem State.writeEntry_waitsOn (s : State) (b : Block) (k : Nat) (e : IndexEntry) : WaitsOn s (s.writeEntry b k e) :=
  (WaitsOn.same : WaitsOn s (s.setEntry k e)).trans (State.issue_waitsOn _ _ _ _)

theorem putsAt_writeEntry (s : State) (b : Block) (k : Nat) (e : IndexEntry) : PutsAt s (fun x => x.writeEntry b k e) k e [] := by
  intro x hm _
  refine ⟨x.writeEntry_sends b k e, (x.writeEntry_unchanged b k e).mono, x.writeEntry_waitsOn b k e, State.issueWrite_jobs _ _ _ _, ?_⟩
  show (State.issueWrite _ _ _ _).monitor.index = _
  rw [State.issueWrite_monitor, State.setEntry, hm]

theorem putsAt_placeEntry (s : State) (b : Block) (k : Nat) (e : IndexEntry) :
    PutsAt s (fun x => x.placeEntry b k e) k e (s.evictNews k) := by
  intro x hm hi
  have he : x.evictNews k = s.evictNews k := by rw [State.evictNews, State.evictNews, hm, hi]
  refine ⟨he ▸ x.placeEntry_sends b k e, x.placeEntry_unchanged b k e, ?_, ?_, by rw [State.placeEntry_index, hm]⟩
  · unfold State.placeEntry
    beta_reduce
    split
    · exact x.writeEntry_waitsOn b k e
    · exact (x.writeEntry_waitsOn b k e).trans (State.raise_waitsOn _ _ _ _ _ _)
  · unfold State.placeEntry State.writeEntry
    beta_reduce
    split
    · rw [State.issueWrite_jobs]
      rfl
    · rw [State.raise_jobs, State.issueWrite_jobs]
      rfl

/-- With a lesson open and no capture of the page, the page is inserted (R40). -/
theorem signatureInsert_inserts (h : s.capture.lessonOpen = true) (hc : ¬ s.pageCaptured page) {w : State}
    (hw : (∃ k', s.monitor.index.findIdx? (fun e => decide (e.state = .valid) && decide (e.page = page)) = some k'
          ∧ w = (s.raisedTo page).writeEntry .jobs k' (insertedEntry page s.intake.frameNumber image sig) ∧ k = k')
      ∨ (s.monitor.index.findIdx? (fun e => decide (e.state = .valid) && decide (e.page = page)) = none
          ∧ (s.raisedTo page).insertEntry .jobs (insertedEntry page s.intake.frameNumber image sig) = some (w, k))) :
    s.signatureInsert page sig image = (w, .inr k) := by
  rw [State.signatureInsert, if_neg (by simp [h]), if_neg fun k => hc ((pageCaptured_iff s page).1 k)]
  show (match (s.raisedTo page).monitor.index.findIdx? _ with | some n => _ | none => _) = _
  rw [State.raisedTo_monitor]
  rcases hw with ⟨k', hf, rfl, rfl⟩ | ⟨hf, hi⟩
  · rw [hf]
    rfl
  · rw [hf]
    dsimp only
    rw [show (if s.capture.counter < page then s.setCounter page else s).insertEntry .jobs _ = some (w, k) from hi]

theorem holdsPage_iff (s : State) (page k : Nat) :
    s.holdsPage page k ↔ (decide ((s.monitor.entry k).state = .valid) && decide ((s.monitor.entry k).page = page)) = true := by
  simp [State.holdsPage]

theorem State.holdsPage.lt (h : s.holdsPage page k) : k < s.monitor.index.length := by
  by_contra hk
  have hs := h.1
  rw [Monitor.entry, List.getD_eq_getElem?_getD, List.getElem?_eq_none (Nat.le_of_not_lt hk)] at hs
  cases hs

/-- An entry that holds the page is written over (R40). -/
theorem signatureInsert_held (h : s.capture.lessonOpen = true) (hc : ¬ s.pageCaptured page) (hk : s.holdsPage page k)
    (hl : ∀ i, i < k → ¬ s.holdsPage page i) :
    s.signatureInsert page sig image =
      ((s.raisedTo page).writeEntry .jobs k (insertedEntry page s.intake.frameNumber image sig), .inr k) := by
  refine signatureInsert_inserts h hc (.inl ⟨k, List.findIdx?_eq_some_iff_getElem.2 ⟨hk.lt, ?_, fun i hi => ?_⟩, rfl, rfl⟩)
  · rw [← Monitor.entry_of_lt hk.lt]
    exact (holdsPage_iff s page k).1 hk
  · rw [← Monitor.entry_of_lt (hi.trans hk.lt)]
    exact fun c => hl i hi ((holdsPage_iff s page i).2 c)

/-- With none that holds it, the page takes the place of R35 and R36. -/
theorem signatureInsert_placed (h : s.capture.lessonOpen = true) (hc : ¬ s.pageCaptured page) (hn : ∀ i, ¬ s.holdsPage page i)
    (hk : s.placeIs k) :
    s.signatureInsert page sig image =
      ((s.raisedTo page).placeEntry .jobs k (insertedEntry page s.intake.frameNumber image sig), .inr k) := by
  refine signatureInsert_inserts h hc (.inr ⟨List.findIdx?_eq_none_iff.2 fun e he => ?_, State.insertEntry_at ?_ _ _⟩)
  · obtain ⟨i, hi, rfl⟩ := List.getElem_of_mem he
    have := hn i
    rw [holdsPage_iff, Monitor.entry_of_lt hi] at this
    exact Bool.eq_false_of_not_eq_true this
  · simpa only [State.placeIs, State.raisedTo_monitor, State.raisedTo_intake] using hk

end

/-! ## The last piece (R143, R144) -/

/-- The signature of a job written at its destination. -/
def State.signatureWritten (s : State) (j : RunningJob) : State :=
  s.issueWrite .jobs .jobs [(j.render.destination, leBytes 48 (s.jobSignature j).toNat)]

theorem finishSignature_plain {j : RunningJob} (h : j.indexOption = false) :
    s.finishSignature j = (s.signatureWritten j).endJob j .done 0 255 :=
  if_neg (by simp [h])

theorem finishSignature_refused {j : RunningJob} (h : j.indexOption = true) {r : Nat}
    (hi : (s.signatureWritten j).signatureInsert j.page (s.jobSignature j) j.render.source = (y, .inl r)) :
    s.finishSignature j = y.endJob j .failed r 255 :=
  (if_pos h).trans (congrArg (fun r => State.endInserted r j) hi)

theorem finishSignature_inserted {j : RunningJob} (h : j.indexOption = true) {k : Nat}
    (hi : (s.signatureWritten j).signatureInsert j.page (s.jobSignature j) j.render.source = (y, .inr k)) :
    s.finishSignature j = y.endJob j .done 0 k :=
  (if_pos h).trans (congrArg (fun r => State.endInserted r j) hi)

/-! ## SIGNATURE_PIECE_COMPLETE -/

section
variable {u : EngineUnit} {n : Nat} (hu : s.engine.unit = some u) (hw : u.work = .signaturePiece n)
include hu hw

theorem signaturePieceComplete_clean (h : ∀ w, w ∈ s.port.bad ∨ w ∈ s.port.weak → u.needsWord w = false) :
    exec .signaturePieceComplete s = .next (s.closeWork (s.signaturePieceDone u).dropUnit.shutdownTest) := by
  show execSignaturePieceComplete s = _
  unfold execSignaturePieceComplete
  rw [hu]
  dsimp only
  rw [hw]
  dsimp only
  rw [finishReads_clean h]

theorem signaturePieceComplete_fault {r : State} (h : s.finishReads u = (r, false)) :
    exec .signaturePieceComplete s = .next (s.closeWork r.jobPieceFaulted.dropUnit.shutdownTest) := by
  show execSignaturePieceComplete s = _
  unfold execSignaturePieceComplete
  rw [hu]
  dsimp only
  rw [hw]
  dsimp only
  rw [h]

end

theorem faultUnit_signature {u : EngineUnit} {n : Nat} (hw : u.work = .signaturePiece n) (r : State) :
    r.faultUnit u = r.jobPieceFaulted.dropUnit.shutdownTest := by
  unfold State.faultUnit
  rw [hw]

/-- With a job RUNNING the test of R187 does not hold. -/
theorem shutdownTest_of_running {j : RunningJob} (h : s.jobs.running = some j) : s.shutdownTest = s := by
  unfold State.shutdownTest
  exact if_neg fun ⟨_, _, _, k, _⟩ => by simp [h] at k

/-- The step ends with the end of the job. -/
theorem JobAt.completes {c : Instr} {j : RunningJob} {st : JobState} {reason index : Nat} (d : JobAt s y j.entry changed ops news)
    (hx : exec c s = .next (s.closeWork (y.endJob j st reason index).dropUnit.shutdownTest)) (hp : j.pin = none)
    (hn : j.entry < s.jobs.entries.length) (hup : s.upAfterJob) (hc : [.jobEntries, .runningJob, .unit] ⊆ changed := by decide)
    (hk : ∀ p ∈ [Piece.mode, .announcements, .frameTurn, .context], p ∉ changed := by decide) :
    Completes c s fun t =>
      JobClosed s t j.entry ⟨st, reason, j.done, index⟩
        ∧ Did changed (ops ++ [outcomeOp j.entry st.value reason j.done index]) (news ++ [(.jobs, .jobEnd, j.entry, st.value, reason)]) s t
        ∧ Unchanged [.jobEntries, .runningJob, .records, .raised, .arbiter, .unit, .context, .scan] y t := by
  rw [d.staysUp hp hup hk] at hx
  have gone := (y.endJob j st reason index).dropUnit_gone
  obtain ⟨ended, did⟩ := d.ends hp hn hc gone
  exact ⟨_, hx, ended, did, gone.after_endJob hp s⟩

/-- A piece that is not the last: its count is written, and the job goes on (R141). -/
theorem pieceGoesOn {c : Instr} {j : RunningJob} (hx : exec c s = .next (s.closeWork (s.pieceCounted j).dropUnit.shutdownTest))
    (hn : j.entry < s.jobs.entries.length) (hl : j.done < j.total) :
    Completes c s fun t =>
      t.tookNext ∧ t.jobs.entry j.entry = { s.jobs.entry j.entry with pieces := j.done }
        ∧ (∀ m, m ≠ j.entry → t.jobs.entry m = s.jobs.entry m)
        ∧ (∃ next, j.next ≤ next ∧ next ≤ j.next + 1 ∧ t.jobs.running = some { j with next := next })
        ∧ Did [.jobEntries, .runningJob, .unit] [countOp s j.entry j.done] [] s t := by
  have d := pieceCounted_jobAt (changed := [.jobEntries, .runningJob, .unit]) hn (by decide)
  rw [if_pos hl] at d
  have gone := (s.pieceCounted j).dropUnit_gone
  have hr : (s.pieceCounted j).dropUnit.jobs.running = some j :=
    Eq.trans (gone.1 .runningJob (by decide)) (pieceCounted_running s j)
  have he : (s.closeWork (s.pieceCounted j).dropUnit).jobs.entries = (s.pieceCounted j).jobs.entries := by
    rw [State.closeWork_entries]
    exact gone.1 .jobEntries (by decide)
  obtain ⟨did, took⟩ := gone.did d.sends d.unchanged (by decide)
  rw [shutdownTest_of_running hr] at hx
  refine ⟨_, hx, took, ?_, fun m hm => ?_, closeWork_running_cases s hr, did⟩
  · rw [Jobs.entry, he]
    exact pieceCounted_entry hn hl
  · rw [Jobs.entry, he]
    exact d.others m hm

/-- What the last piece has come to once its signature is written: no more than one record operation. -/
theorem signatureWritten_jobAt (s : State) (j : RunningJob) (hc : Piece.runningJob ∈ changed) :
    JobAt s ((s.setRunning (some j)).signatureWritten j) j.entry changed
      [writeOf j.render.destination (leBytes 48 ((s.setRunning (some j)).jobSignature j).toNat)] [] :=
  (jobAt_running s j.entry (some j) hc).andThen (State.issueWrite_sends _ _ _ _) (State.issueWrite_unchanged _ _ _ _)
    (State.issue_waitsOn _ _ _ _) (by simp) (by rw [State.signatureWritten, State.issueWrite_jobs])

theorem signatureWritten_capture (s : State) (j i : RunningJob) : ((s.setRunning (some j)).signatureWritten i).capture = s.capture := by
  rw [State.signatureWritten, State.issueWrite_capture]
  rfl

theorem signatureWritten_monitor (s : State) (j i : RunningJob) : ((s.setRunning (some j)).signatureWritten i).monitor = s.monitor := by
  rw [State.signatureWritten, State.issueWrite_monitor]
  rfl

theorem signatureWritten_intake (s : State) (j i : RunningJob) : ((s.setRunning (some j)).signatureWritten i).intake = s.intake := by
  rw [State.signatureWritten, State.issueWrite_intake]
  rfl

/-- The signature that is formed after the last piece. -/
abbrev finalSignature (s : State) (j : RunningJob) : Signature := (s.setRunning (some j)).jobSignature j

/-- The entry of its page. -/
abbrev finalEntry (s : State) (j : RunningJob) : IndexEntry :=
  insertedEntry j.page s.intake.frameNumber j.render.source (finalSignature s j)

/-- What a page inserted leaves: the entry at its place, the counter at least the page, the lesson open, and the job DONE with the place. -/
def Inserted (s : State) (j : RunningJob) (k : Nat) (evicted : List (Block × EventKind × Nat × Nat × Nat)) (t : State) : Prop :=
    JobClosed s t j.entry ⟨.done, 0, j.done, k⟩
      ∧ t.monitor.index = s.monitor.index.set k (finalEntry s j)
      ∧ t.capture.counter = max s.capture.counter j.page ∧ t.capture.lessonOpen = true
      ∧ Did [.jobEntries, .runningJob, .unit, .lesson, .index]
          (writeOf j.render.destination (leBytes 48 (finalSignature s j).toNat)
              :: (if s.capture.counter < j.page then [fieldWrite 0x0A 2 j.page] else [])
            ++ [writeRuns [(0x1000 + 64 * k + 1, (finalEntry s j).fieldBytes), (0x1000 + 64 * k, [2#8])], outcomeOp j.entry 3 0 j.done k])
          (evicted ++ [(.jobs, .jobEnd, j.entry, 3, 0)]) s t

section
variable {c : Instr} {j : RunningJob} {k : Nat}
  (hx : exec c s = .next (s.closeWork ((s.setRunning (some j)).finishSignature j).dropUnit.shutdownTest))
  (hp : j.pin = none) (hn : j.entry < s.jobs.entries.length) (hup : s.upAfterJob)
include hx hp hn hup

/-- Without the index option the job is DONE (R144). -/
theorem lastPiece_plain (hi : j.indexOption = false) :
    Completes c s fun t =>
      JobClosed s t j.entry ⟨.done, 0, j.done, 255⟩
        ∧ Did [.jobEntries, .runningJob, .unit]
            [writeOf j.render.destination (leBytes 48 (finalSignature s j).toNat), outcomeOp j.entry 3 0 j.done 255]
            [(.jobs, .jobEnd, j.entry, 3, 0)] s t := by
  rw [finishSignature_plain hi] at hx
  exact ((signatureWritten_jobAt s j (by decide)).completes hx hp hn hup).imp fun t ⟨ht, ended, did, _⟩ => ⟨ht, ended, did⟩

/-- An insertion that the page monitor refuses ends the job FAILED (R144). -/
theorem lastPiece_refused (hi : j.indexOption = true) {r : Nat}
    (hs : ((s.setRunning (some j)).signatureWritten j).signatureInsert j.page (finalSignature s j) j.render.source =
      ((s.setRunning (some j)).signatureWritten j, .inl r)) :
    Completes c s fun t =>
      JobClosed s t j.entry ⟨.failed, r, j.done, 255⟩
        ∧ Did [.jobEntries, .runningJob, .unit]
            [writeOf j.render.destination (leBytes 48 (finalSignature s j).toNat), outcomeOp j.entry 5 r j.done 255]
            [(.jobs, .jobEnd, j.entry, 5, r)] s t := by
  rw [finishSignature_refused hi hs] at hx
  exact ((signatureWritten_jobAt s j (by decide)).completes hx hp hn hup).imp fun t ⟨ht, ended, did, _⟩ => ⟨ht, ended, did⟩

/-- The page monitor's insertion ends the job DONE (R40, R144). -/
theorem lastPiece_inserted (hi : j.indexOption = true) (ho : s.capture.lessonOpen = true)
    {put : State → State} (evicted : List (Block × EventKind × Nat × Nat × Nat))
    (hs : ((s.setRunning (some j)).signatureWritten j).signatureInsert j.page (finalSignature s j) j.render.source =
      (put (((s.setRunning (some j)).signatureWritten j).raisedTo j.page), .inr k))
    (hput : PutsAt s put k (finalEntry s j) evicted) :
    Completes c s (Inserted s j k evicted) := by
  rw [finishSignature_inserted hi hs] at hx
  have d := signatureWritten_jobAt (changed := [.jobEntries, .runningJob, .unit, .lesson, .index]) s j (by decide)
  have hcap := signatureWritten_capture s j j
  have hmon := signatureWritten_monitor s j j
  have hint := signatureWritten_intake s j j
  generalize (s.setRunning (some j)).signatureWritten j = x at hx d hcap hmon hint
  obtain ⟨psent, punch, pwait, pjobs, pindex⟩ := hput (x.raisedTo j.page) (by rw [State.raisedTo_monitor, hmon])
    (by rw [State.raisedTo_intake, hint])
  have raised := d.andThen (x.raisedTo_sends j.page) (x.raisedTo_unchanged j.page) (x.raisedTo_waitsOn j.page) (by decide)
    (by rw [State.raisedTo_jobs])
  have placed := raised.andThen psent punch pwait (by decide) (by rw [pjobs])
  rw [hcap, List.append_assoc] at placed
  have hlesson := punch .lesson (by decide)
  have hold := x.raisedTo_capture j.page
  obtain ⟨t, ht, ended, did, after⟩ := placed.completes hx hp hn hup
  obtain ⟨h1, h2⟩ := after .lesson (by decide)
  refine ⟨t, ht, ended, Eq.trans (after .index (by decide)) pindex, ?_, ?_, ?_⟩
  · rw [h2, hlesson.2, hold, hcap]
  · rw [h1, hlesson.1, hold, hcap]
    exact ho
  · rw [List.append_assoc, List.append_assoc] at did
    exact did

/-- A page that a capture holds is refused (R40). -/
theorem lastPiece_busy (hi : j.indexOption = true) (ho : s.capture.lessonOpen = true) (hc : s.pageCaptured j.page) :
    Completes c s fun t =>
      JobClosed s t j.entry ⟨.failed, 8, j.done, 255⟩
        ∧ Did [.jobEntries, .runningJob, .unit]
            [writeOf j.render.destination (leBytes 48 (finalSignature s j).toNat), outcomeOp j.entry 5 8 j.done 255]
            [(.jobs, .jobEnd, j.entry, 5, 8)] s t :=
  lastPiece_refused hx hp hn hup hi
    (signatureInsert_busy (by rw [signatureWritten_capture]; exact ho) (by rwa [State.pageCaptured, signatureWritten_monitor]))

/-- A page that an entry holds is written over (R40). -/
theorem lastPiece_held (hi : j.indexOption = true) (ho : s.capture.lessonOpen = true) (hc : ¬ s.pageCaptured j.page)
    (hk : s.holdsPage j.page k) (hl : ∀ i, i < k → ¬ s.holdsPage j.page i) : Completes c s (Inserted s j k []) := by
  refine lastPiece_inserted hx hp hn hup hi ho [] (put := fun x => x.writeEntry .jobs k (finalEntry s j)) ?_ (putsAt_writeEntry s .jobs k _)
  rw [signatureInsert_held (k := k) (by rw [signatureWritten_capture]; exact ho) (by rwa [State.pageCaptured, signatureWritten_monitor])
    (by rwa [State.holdsPage, signatureWritten_monitor])
    (fun i hik => by rw [State.holdsPage, signatureWritten_monitor]; exact hl i hik), signatureWritten_intake]

/-- A page that no entry holds takes a place of its own (R35, R36). -/
theorem lastPiece_placed (hi : j.indexOption = true) (ho : s.capture.lessonOpen = true) (hc : ¬ s.pageCaptured j.page)
    (hno : ∀ i, ¬ s.holdsPage j.page i) (hk : s.placeIs k) : Completes c s (Inserted s j k (s.evictNews k)) := by
  refine lastPiece_inserted hx hp hn hup hi ho (s.evictNews k) (put := fun x => x.placeEntry .jobs k (finalEntry s j)) ?_
    (putsAt_placeEntry s .jobs k _)
  rw [signatureInsert_placed (k := k) (by rw [signatureWritten_capture]; exact ho) (by rwa [State.pageCaptured, signatureWritten_monitor])
    (fun i => by rw [State.holdsPage, signatureWritten_monitor]; exact hno i)
    (by simpa only [State.placeIs, signatureWritten_monitor, signatureWritten_intake] using hk), signatureWritten_intake]

end

end Sys2Proof.Machine
end

section

open Sys2Proof Sys2Proof.Machine

/-- Settles O47: a piece that is not the last, a stop pending, a fault, and the last piece with what becomes of its page. -/
theorem signaturePiecesComplete : Obligations.SignaturePiecesComplete := by
  intro s u n p j hu hw hparts hj hn hp
  dsimp only
  refine ⟨fun clean sized hstop hl => ?_, fun clean reason hstop hup => ?_, fun cmd x weak h hup => ?_,
    fun clean sized hstop hl hup => ?_⟩
  · obtain ⟨hws, hhs, hsums⟩ := sized
    have hx := signaturePieceComplete_clean hu hw clean
    rw [signaturePieceDone_more hj hparts hstop hl, addSamples_eq hws hhs hsums] at hx
    exact pieceGoesOn hx hn hl
  · have hx := signaturePieceComplete_clean hu hw clean
    rw [signaturePieceDone_stopped hj hparts hstop] at hx
    have d := pieceCounted_jobAt (s := s) (changed := [.jobEntries, .runningJob, .unit])
      (j := j.withPiece (p.addSamples (s.getter u) j.sums)) hn (by decide)
    exact (d.completes hx hp hn hup).imp fun t ⟨ht, ended, did, _⟩ => ⟨ht, ended, did⟩
  · have done := jobFault_ends h (fun r => signaturePieceComplete_fault hu hw) (faultUnit_signature hw) hj hn hp hup
    exact done
  · obtain ⟨hws, hhs, hsums⟩ := sized
    have hx := signaturePieceComplete_clean hu hw clean
    rw [signaturePieceDone_last hj hparts hstop hl, addSamples_eq hws hhs hsums] at hx
    refine ⟨fun hi => ?_, fun hi ho => ?_, fun hi ho => ⟨fun hc => ?_, fun hc k hk hlow => ?_, fun hc hno k hk => ?_⟩⟩
    · exact lastPiece_plain hx hp hn hup hi
    · exact lastPiece_refused hx hp hn hup hi (signatureInsert_noLesson (by rw [signatureWritten_capture]; exact ho))
    · exact lastPiece_busy hx hp hn hup hi ho hc
    · exact lastPiece_held hx hp hn hup hi ho hc hk hlow
    · exact lastPiece_placed hx hp hn hup hi ho hc hno hk

end

section
/-! SUPPORT. Sending where the record queue has no room, or where a block waits for it (R155, assumption log 22). -/

namespace Sys2Proof.Machine

set_option Elab.async false

variable {s t : State} {changed : List Piece} {actor issuer : Block}

/-! ## A block that waits -/

theorem State.waiting_of_busy (h : s.free actor = false) : s.waiting actor = true := by simpa [State.free] using h

theorem State.waiting_of_free (h : s.free actor = true) : s.waiting actor = false := by simpa [State.free] using h

/-- What a block that waits sends is held behind its wait. -/
theorem State.emit_of_busy (h : s.free actor = false) (x : Sent) : s.emit actor x = s.hold ⟨actor, x⟩ :=
  if_pos (State.waiting_of_busy h)

/-- The blocks of an output held back wait for as long as it is held. -/
theorem State.hold_busy (s : State) {o : Output} {b : Block} (h : b ∈ o.blocks) : (s.hold o).free b = false := by
  simp [State.free, State.waiting, State.hold, h]

/-- An operation that a waiting block asks for makes the block that issues it wait too, but for the post port. -/
theorem State.issue_of_busy (h : s.free actor = false) (hi : issuer ≠ .post) (op : RecordOp) :
    (s.issue actor issuer op).free issuer = false := by
  rw [State.issue, State.emit_of_busy h]
  exact s.hold_busy (by simp [Output.blocks, hi])

/-- An entry written for a waiting block over a full index waits, with INDEX_EVICT behind it. -/
theorem State.insertEntry_of_busy (h : s.free actor = false) (e : IndexEntry) {n : Nat} (hn : ∀ x ∈ s.monitor.index, x.state ≠ .empty)
    (hv : evictionChoice s.intake.frameNumber s.monitor.index = some n) :
    s.insertEntry actor e = some
      ({ s with
          monitor.index := s.monitor.index.set n e
          port.later := s.port.later ++
            [⟨actor, .op .monitor (writeRuns [(0x1000 + 64 * n + 1, e.fieldBytes), (0x1000 + 64 * n, leBytes 1 e.state.value)])⟩,
              ⟨.monitor, .event .indexEvict n (s.monitor.entry n).page
                (((s.intake.frameNumber : Int) - (s.monitor.entry n).lastSeen) % 4294967296).toNat⟩] }, n) := by
  have hfind : s.monitor.index.findIdx? (fun x => decide (x.state = .empty)) = none :=
    List.findIdx?_eq_none_iff.2 fun x hx => by simpa using hn x hx
  have hset : (s.setEntry n e).free actor = false := h
  have hm : (s.writeEntry actor n e).free .monitor = false := State.issue_of_busy hset (by decide) _
  have hw : s.writeEntry actor n e = (s.setEntry n e).hold
      ⟨actor, .op .monitor (writeRuns [(0x1000 + 64 * n + 1, e.fieldBytes), (0x1000 + 64 * n, leBytes 1 e.state.value)])⟩ :=
    State.emit_of_busy hset _
  have age : entryAge s.intake.frameNumber (s.monitor.entry n)
      = (((s.intake.frameNumber : Int) - (s.monitor.entry n).lastSeen) % 4294967296).toNat := by
    rw [← entryAge_eq, Int.toNat_natCast]
  unfold State.insertEntry
  rw [hfind]
  dsimp only
  rw [hv]
  dsimp only
  rw [State.raise, State.emit_of_busy hm, hw, age]
  simp [State.hold, State.setEntry]

/-! ## No room in the queue -/

/-- The record queue is full, or others wait for room in it already (R155). -/
def State.noRoom (s : State) : Prop := 32 ≤ s.port.queue.length ∨ s.port.blocked ≠ []

/-- The blocks that wait for an operation with no room (R155). -/
def waiters (issuer actor : Block) : List Block :=
  if issuer = .post then [Block.post] else if actor = issuer then [issuer] else [issuer, actor]

theorem waiters_eq (issuer actor : Block) :
    waiters issuer actor = if waitsFor issuer actor = issuer then [issuer] else [issuer, waitsFor issuer actor] := by
  unfold waiters waitsFor
  by_cases h : issuer = .post <;> simp [h]

/-- An operation that finds no room waits behind those that wait already. -/
theorem State.join_noRoom (h : s.noRoom) (issuer actor : Block) (op : RecordOp) :
    s.join issuer actor op = { s with port.blocked := s.port.blocked ++ [⟨waiters issuer actor, op⟩] } := by
  have hn : ¬ (s.port.blocked = [] ∧ s.port.queue.length < Config.recordRoom) := fun ⟨hb, hq⟩ =>
    h.elim (fun k => absurd hq (Nat.not_lt.2 k)) fun k => k hb
  rw [State.join, if_neg hn, waiters_eq]

/-- With room, it joins the queue, and the arbiter alone can change beside. -/
theorem State.join_room (hb : s.port.blocked = []) (hq : s.port.queue.length < 32) (issuer actor : Block) (op : RecordOp) :
    (s.join issuer actor op).port.queue = s.port.queue ++ [op] ∧ (s.join issuer actor op).port.blocked = []
      ∧ (s.join issuer actor op).port.later = s.port.later := by
  rw [State.join, if_pos ⟨hb, hq⟩]
  obtain ⟨g, l, p, hg⟩ := State.makeGrant_is { s with port.queue := s.port.queue ++ [op] }
  rw [hg]
  exact ⟨rfl, hb, rfl⟩

/-- What blocks that do not wait send on as an operation goes to the queue, or waits for room in it. -/
theorem State.emit_op_of_free (ha : s.free actor = true) (hi : s.free issuer = true) (op : RecordOp) :
    s.emit actor (.op issuer op) = s.join issuer actor op := by
  rw [State.emit, if_neg (by simp [State.waiting_of_free ha]), State.put, if_neg (by simp [State.waiting_of_free hi])]

/-- A block that issues its own operation with no room waits. -/
theorem State.issue_noRoom (h : s.noRoom) (ha : s.free actor = true) (op : RecordOp) :
    s.issue actor actor op = { s with port.blocked := s.port.blocked ++ [⟨[actor], op⟩] } := by
  rw [State.issue, State.emit_op_of_free ha ha, State.join_noRoom h]
  unfold waiters
  by_cases hp : actor = .post <;> simp [hp]

/-! ## The end of a step with the engine at work -/

/-- With a unit in progress the end of a step leaves the record queue and what waits for it. -/
theorem closeWork_port_of_unit {u : EngineUnit} (h : t.engine.unit = some u) (s : State) :
    (s.closeWork t).port.queue = t.port.queue ∧ (s.closeWork t).port.blocked = t.port.blocked
      ∧ (s.closeWork t).port.later = t.port.later ∧ Unchanged closing t (s.closeWork t) := by
  rw [State.closeWork, takeWork_kept h]
  have hu := s.close_unchanged t
  obtain ⟨hq, hb, hl⟩ := hu .records (by decide)
  exact ⟨hq, hb, hl, hu⟩

/-! ## A page forgotten with no room (R41) -/

theorem pageForget_waits {u : EngineUnit} {w : Word} {rest : List Word} (hm : s.control.mode = .standby ∨ s.control.mode = .live)
    (h : s.holdsWord 11 w rest) (hn : postArgument w ≤ 63) (hv : (s.monitor.entry (postArgument w)).state = .valid)
    (hu : s.engine.unit = some u) (hq : s.noRoom) :
    Completes .pageForget s fun t =>
        Took rest s t ∧ t.post.inHand = none
          ∧ t.monitor.index = s.monitor.index.set (postArgument w) { s.monitor.entry (postArgument w) with state := .empty }
          ∧ t.port.queue = s.port.queue
          ∧ t.port.blocked = s.port.blocked ++ [⟨[.monitor], writeOf (0x1000 + 64 * postArgument w) [0#8]⟩]
          ∧ t.port.later = s.port.later
          ∧ t.news = s.news ∧ Unchanged (.fifo :: .timer :: .index :: .records :: closing) s t := by
  obtain ⟨hr, hb, ha⟩ := takesWords_of hm
  have hx := takeWord_of_holds (legal := fun a => decide (a ≤ 63)) (act := fun w t =>
    if (t.monitor.entry (postArgument w)).state = .valid then t.setEntryState .monitor (postArgument w) .empty
    else t.refuse refusedNotValid w) h hr hb ha (by simpa using hn)
  rw [if_pos (by simpa using hv)] at hx
  generalize hy : (s.wordTaken rest).setEntryState .monitor (postArgument w) .empty = y at hx
  have hfree : s.free .monitor = true := by simpa [State.ownersFree, wordOwners] using h.2
  have hw : y = { (s.wordTaken rest).setEntry (postArgument w) { s.monitor.entry (postArgument w) with state := .empty } with
      port.blocked := s.port.blocked ++ [⟨[.monitor], writeOf (0x1000 + 64 * postArgument w) [0#8]⟩] } := by
    have hi := State.issue_noRoom (s := (s.wordTaken rest).setEntry (postArgument w) { s.monitor.entry (postArgument w) with state := .empty })
      (actor := .monitor) (by simpa [State.noRoom, State.setEntry] using hq)
      (by simpa [State.free, State.waiting, State.setEntry] using hfree) (writeOf (0x1000 + 64 * postArgument w) [0#8])
    rw [← hy, State.setEntryState, State.wordTaken_monitor]
    refine hi.trans ?_
    simp [State.setEntry]
  have hun : Unchanged [.fifo, .timer, .index, .records, .arbiter] s y := by
    rw [← hy]
    exact .comp (s.wordTaken_unchanged rest) (State.setEntryState_unchanged _ _ _ _) (by simp) (by simp)
  have hunit : y.engine.unit = some u := by rw [hun .unit (by decide), hu]
  obtain ⟨k1, k2, k3, k4⟩ := closeWork_port_of_unit hunit s
  obtain ⟨ht, hh⟩ := took_closeWork (u := y) h (by simp [hw, State.setEntry]) (by simp [hw, State.setEntry])
  refine ⟨_, hx, ht, hh, ?_, k1.trans ?_, k2.trans ?_, k3.trans ?_, ?_, hun.comp k4 (by simp) (by simp)⟩
  · simp [hw, State.setEntry]
  · simp [hw, State.setEntry]
  · simp [hw]
  · simp [hw, State.setEntry]
  · rw [State.closeWork_news]
    exact hun.news
end Sys2Proof.Machine
end

section
/-! SUPPORT. An event whose record finds the queue full: the registers of the port change, and what it sends on waits (R155, R174). -/

namespace Sys2Proof.Machine

set_option Elab.async false

variable {s t : State}

/-- What waits behind a record of an event: the put index, and EVENTS_READY where the moderation is due. -/
def State.behindRecord (s : State) : List Output :=
  [⟨.post, .op .post (fieldWrite 0x04 2 (ringNext s.post.setup.queueSize s.post.put))⟩]
    ++ if s.post.setup.watermark ≤ s.post.fill + 1 then [⟨.post, .cause .eventsReady⟩] else []

/-- The put index published by a port that waits. -/
theorem publishPut_of_busy (h : s.free .post = false) (n : Nat) :
    s.publishPut n = { s with post.put := n, port.later := s.port.later ++ [⟨.post, .op .post (fieldWrite 0x04 2 n)⟩] } :=
  State.emit_of_busy (s := { s with post.put := n }) h _

/-- The moderation of a port that waits: the cause waits with it. -/
theorem moderate_of_busy (h : s.free .post = false) :
    ∃ timer due, s.moderate =
      { s with
        post.unsignalled := if s.post.setup.watermark ≤ s.post.fill then 0 else s.post.unsignalled + 1
        post.timer := timer
        post.holdoffDue := due
        port.later := s.port.later ++ if s.post.setup.watermark ≤ s.post.fill then [⟨.post, .cause .eventsReady⟩] else [] } := by
  unfold State.moderate
  split
  · refine ⟨none, false, (State.emit_of_busy (s := { s.stopTimer with post.unsignalled := 0 }) h _).trans ?_⟩
    simp [State.hold, State.stopTimer]
  · split
    · exact ⟨some 0, false, by simp⟩
    · exact ⟨s.post.timer, s.post.holdoffDue, by simp⟩

/-- The record of an event that finds no room waits, and what the port sends on waits behind it. -/
theorem writeEvent_noRoom (h : s.noRoom) (hf : s.free .post = true) (k : EventKind) (n a b frame : Nat) :
    ∃ timer due, s.writeEvent k n a b frame =
      { s with
        post.fill := s.post.fill + 1
        post.sequence := (s.post.sequence + 1) % 65536
        post.put := ringNext s.post.setup.queueSize s.post.put
        post.unsignalled := if s.post.setup.watermark ≤ s.post.fill + 1 then 0 else s.post.unsignalled + 1
        post.timer := timer
        post.holdoffDue := due
        port.blocked := s.port.blocked ++ [⟨[.post], s.eventOp k.value n a b frame⟩]
        port.later := s.port.later ++ s.behindRecord } := by
  have hi := State.issue_noRoom h hf (s.eventOp k.value n a b frame)
  have hr : s.recorded k n a b frame =
      { s with
        post.fill := s.post.fill + 1
        post.sequence := (s.post.sequence + 1) % 65536
        port.blocked := s.port.blocked ++ [⟨[.post], s.eventOp k.value n a b frame⟩] } :=
    congrArg (fun x : State => { x with post := { s.post with fill := s.post.fill + 1, sequence := (s.post.sequence + 1) % 65536 } }) hi
  have hb : (s.recorded k n a b frame).free .post = false := by
    rw [hr]
    simp [State.free, State.waiting]
  have hp := publishPut_of_busy hb (ringNext s.post.setup.queueSize s.post.put)
  have hb' : ((s.recorded k n a b frame).publishPut (ringNext s.post.setup.queueSize s.post.put)).free .post = false := by
    rw [hp, hr]
    simp [State.free, State.waiting]
  obtain ⟨timer, due, hm⟩ := moderate_of_busy hb'
  refine ⟨timer, due, ?_⟩
  rw [State.writeEvent_eq, hm, hp, hr]
  simp [State.behindRecord]

/-- POWER_SAFE taken by a port that waits: mode control is told of it behind the wait (R187). -/
theorem watchSafe_of_busy (h : s.free .post = false) (k : EventKind) :
    s.watchSafe k = { s with port.later := s.port.later ++ if k = .powerSafe then [⟨.post, .safe⟩] else [] } := by
  unfold State.watchSafe
  split
  · rw [State.emit_of_busy h]
    simp [State.hold]
  · simp

/-- What follows the record of an event: the put index, EVENTS_READY where it is due, and the word of POWER_SAFE. -/
def State.behindEvent (s : State) (k : EventKind) : List Output :=
  s.behindRecord ++ if k = .powerSafe then [⟨.post, .safe⟩] else []

/-- The oldest event taken where its record finds no room. -/
theorem takeRaised_noRoom {e : RaisedEvent} {later : List RaisedEvent} (he : s.post.raised = e :: later) (hf : s.free .post = true)
    (hd : s.post.holdoffDue = false) (hq : s.post.fill < s.post.setup.queueSize) (h : s.noRoom) :
    ∃ timer due, s.takeRaised 0 e =
      { s with
        post.raised := later
        post.fill := s.post.fill + 1
        post.sequence := (s.post.sequence + 1) % 65536
        post.put := ringNext s.post.setup.queueSize s.post.put
        post.unsignalled := if s.post.setup.watermark ≤ s.post.fill + 1 then 0 else s.post.unsignalled + 1
        post.timer := timer
        post.holdoffDue := due
        port.blocked := s.port.blocked ++ [⟨[.post], s.eventOp e.kind.value e.small e.a e.b e.frame⟩]
        port.later := s.port.later ++ s.behindEvent e.kind } := by
  obtain ⟨timer, due, hw⟩ := writeEvent_noRoom (s := s.without 0) h hf e.kind e.small e.a e.b e.frame
  have hb : ((s.without 0).writeEvent e.kind e.small e.a e.b e.frame).free .post = false := by
    rw [hw]
    simp [State.free, State.waiting]
  have hq' : (s.without 0).post.fill < (s.without 0).post.setup.queueSize := hq
  refine ⟨timer, due, ?_⟩
  rw [State.takeRaised_eq, takeEvent_of_settled (s := s.without 0) hd, if_pos hq', watchSafe_of_busy hb, hw]
  simp [State.without, he, State.behindEvent, State.behindRecord, State.eventOp]

theorem eventArrival_waits {e : RaisedEvent} {later : List RaisedEvent} (he : s.post.raised = e :: later) (hf : s.free .post = true)
    (hd : s.post.holdoffDue = false) (hq : s.post.fill < s.post.setup.queueSize) (h : s.noRoom) :
    let put := if s.post.put + 1 < s.post.setup.queueSize then s.post.put + 1 else 0
    let ready := s.post.setup.watermark ≤ s.post.fill + 1
    Completes (.eventArrival 0) s fun t =>
        t.post.raised = later ∧ t.post.put = put ∧ t.post.get = s.post.get ∧ t.post.fill = s.post.fill + 1
          ∧ t.post.sequence = (s.post.sequence + 1) % 65536
          ∧ t.post.unsignalled = (if ready then 0 else s.post.unsignalled + 1)
          ∧ t.port.queue = s.port.queue
          ∧ t.port.blocked = s.port.blocked ++ [⟨[.post], s.eventOp e.kind.value e.small e.a e.b e.frame⟩]
          ∧ t.port.later = s.port.later ++ [⟨.post, .op .post (fieldWrite 0x04 2 put)⟩]
              ++ (if ready then [⟨.post, .cause .eventsReady⟩] else [])
              ++ (if e.kind = .powerSafe then [⟨.post, .safe⟩] else [])
          ∧ Unchanged (.events :: .moderation :: .records :: closing) s t := by
  obtain ⟨timer, due, ht⟩ := takeRaised_noRoom he hf hd hq h
  have hx := execEventArrival_of_eligible (n := 0) (e := e) (by rw [he]; rfl) (by rw [he]; rfl) hf
  generalize s.takeRaised 0 e = x at ht hx
  have hl : unlinkAt s.post.raised.length x.post.raised = x.post.raised := List.modify_eq_self (by simp [ht, he])
  have hp : (s.close x).post = x.post := by rw [State.close_post, hl]
  obtain ⟨kq, kb, kl⟩ := s.close_unchanged x .records (by decide)
  have hu : Unchanged [.events, .moderation, .records, .raised] s x := by
    intro p hp
    cases p <;> simp_all [same]
  refine ⟨_, hx, ?_, ?_, ?_, ?_, ?_, ?_, kq.trans ?_, kb.trans ?_, kl.trans ?_, hu.comp (s.close_unchanged x) (by simp) (by simp)⟩
  any_goals rw [hp]
  all_goals rw [ht]
  · rfl
  · simp [State.behindEvent, State.behindRecord, ringNext]
end Sys2Proof.Machine
end

section
/-! SUPPORT. What a block that waits for room does not take, and the post words that are kept in hand for it (R155, R168). -/

namespace Sys2Proof.Machine

set_option Elab.async false

variable {s t : State} {kind : Nat} {allowed : Mode → Bool} {legal : Nat → Bool} {act : Word → State → State} {w : Word}

/-! ## The command of a kind of post word, without a word for it -/

theorem handWord_none (h : ∀ w, s.keepsWord w → postKind w ≠ kind) : s.handWord kind = none := by
  unfold State.handWord State.dispatched
  by_cases hr : s.post.setupRead = .idle ∧ s.post.controlRead = .idle
  · rw [if_pos hr]
    cases hw : s.post.inHand with
    | none => rfl
    | some w => exact if_neg fun k => h w ⟨hw, hr⟩ k.1
  · rw [if_neg hr]

/-- With no word that the port can take, and none of the kind to act on, the command does nothing. -/
theorem takeWord_idle (h : s.headWord kind = none) (k : s.handWord kind = none) : s.takeWord kind allowed legal act = .next s := by
  rw [State.takeWord, h, k]

/-- The port takes no word while it holds one in hand. -/
theorem State.keepsWord.headWord (h : s.keepsWord w) (kind : Nat) : s.headWord kind = none :=
  headWord_none kind (.inl (by rw [h.1]; exact Option.some_ne_none w))

theorem State.keepsWord.unique {v : Word} (h : s.keepsWord w) (k : s.keepsWord v) : v = w :=
  Option.some.inj (k.1.symm.trans h.1)

/-- The owner of the word in hand, waiting no longer, acts on it. -/
theorem takeWord_of_keeps (h : s.keepsWord w) (hk : postKind w = kind) (ho : s.ownersFree kind = true) :
    s.takeWord kind allowed legal act = .next (s.closeWork (act w s.leaveHand)) := by
  have hw : s.handWord kind = some w := by rw [handWord_some h hk, if_pos ho]
  rw [State.takeWord, h.headWord kind, hw]

/-- While an owner of the word in hand waits, the command does nothing. -/
theorem takeWord_of_keeps_busy (h : s.keepsWord w) (hk : postKind w = kind) (ho : s.ownersFree kind = false) :
    s.takeWord kind allowed legal act = .next s :=
  takeWord_idle (h.headWord kind) (by rw [handWord_some h hk, ho]; exact if_neg Bool.false_ne_true)

/-- The port does not take a word, in whatever kind. -/
theorem portFree_of_busy (h : s.free .post = false ∨ s.post.inHand ≠ none) : s.portFree = false := by
  unfold State.portFree
  rcases h with h | h <;> simp [h]

theorem postUnknownKind_of_busy (h : s.free .post = false ∨ s.post.inHand ≠ none) : exec .postUnknownKind s = .next s := by
  show execPostUnknownKind s = _
  unfold execPostUnknownKind
  split
  · rfl
  · exact if_neg fun k => by simp [portFree_of_busy h] at k

/-! ## A word that passes and is kept in hand -/

theorem ownersFree_false : s.ownersFree kind = false ↔ ∃ b ∈ wordOwners kind, s.free b = false := by
  simp [State.ownersFree]

theorem ownersFree_true : s.ownersFree kind = true ↔ ∀ b ∈ wordOwners kind, s.free b = true := by
  simp [State.ownersFree]

theorem State.keepInHand_sends (s : State) (w : Word) : Sends [] [] s (s.keepInHand w) := .same

/-- A word that passes its checks while an owner waits is taken and kept (R168; assumption log 22). -/
theorem takeWord_keeps {rest : List Word} (h : s.offersWord kind w rest) (hr : s.control.mode ≠ .reset) (hb : s.control.mode ≠ .boot)
    (ha : allowed s.control.mode = true) (hl : legal (postArgument w) = true) (ho : s.ownersFree kind = false) :
    s.takeWord kind allowed legal act = .next (s.closeWork ((s.wordTaken rest).keepInHand w)) := by
  have hf : (s.wordTaken rest).ownersFree kind = false := by
    simpa [State.ownersFree, State.free, State.waiting] using ho
  rw [State.takeWord, headWord_some h hr hb]
  simp [State.dispatch, ha, hl, hf]

theorem keptWord_spec (s : State) (w : Word) (rest : List Word) :
    let t := s.closeWork ((s.wordTaken rest).keepInHand w)
    Took rest s t ∧ t.post.inHand = some w ∧ t.post.handMode = s.control.mode ∧ t.news = s.news ∧ Did [.fifo, .timer] [] [] s t := by
  have hu : Unchanged [.fifo, .timer] s ((s.wordTaken rest).keepInHand w) :=
    (s.wordTaken_unchanged rest).comp (State.keepInHand_unchanged _ w)
  refine ⟨(s.wordTaken_took rest).of_same ?_ ?_, ?_, ?_, ?_, ?_⟩
  · rw [State.closeWork_post]
    rfl
  · rw [State.closeWork_control]
    rfl
  · rw [State.closeWork_post]
    rfl
  · rw [State.closeWork_post]
    exact s.wordTaken_mode rest
  · rw [State.closeWork_news]
    exact hu.news
  · exact (s.wordTaken_sends rest).after (State.keepInHand_sends _ w) |>.did hu.mono

/-! ## Acting on the word in hand as on one from the FIFO -/

/-- With the timer stopped, the owner acts on a word in hand as it would on the same word at the head of the FIFO. -/
theorem takeWord_hand_eq_head (h : s.keepsWord w) (hk : postKind w = kind) (ho : s.ownersFree kind = true) (hf : s.free .post = true)
    (ht : s.control.timerOn = false) (hr : s.control.mode ≠ .reset) (hb : s.control.mode ≠ .boot) (ha : allowed s.control.mode = true)
    (hl : legal (postArgument w) = true) :
    s.takeWord kind allowed legal act
      = { s with post.fifo := w :: s.post.fifo, post.inHand := none }.takeWord kind allowed legal act := by
  have hold : State.holdsWord { s with post.fifo := w :: s.post.fifo, post.inHand := none } kind w s.post.fifo :=
    ⟨⟨rfl, hk, rfl, hf⟩, ho⟩
  have hs : State.wordTaken { s with post.fifo := w :: s.post.fifo, post.inHand := none } s.post.fifo = s.leaveHand := by
    rw [State.wordTaken_eq, ht, ite_self]
    cases s with
    | mk control _ _ _ _ _ _ _ _ _ _ =>
      cases control
      cases ht
      rfl
  rw [takeWord_of_keeps h hk ho, takeWord_of_holds hold hr hb ha hl, hs]
  rfl

end Sys2Proof.Machine
end

section
/-! SUPPORT. The twelve kinds of post word: each with its checks, and with what its act leaves of the hand, the mode and the timer
(R168). -/

namespace Sys2Proof.Machine

set_option Elab.async false

variable {s t : State} {kind : Nat} {c : Instr} {allowed : Mode → Bool} {legal : Nat → Bool} {act : Word → State → State} {w : Word}

/-- What stands in hand after the act on a word: the word again where a record is read for it. -/
def handAfter (kind : Nat) (w : Word) (s : State) : Option Word :=
  if kind = 1 ∨ (kind = 4 ∧ s.capture.context.state ≠ .rendering) then some w else none

/-- The act on a word of a kind leaves the FIFO, the mode and the reaction timer, and of the hand what is left there. -/
def ActsOn (kind : Nat) (act : Word → State → State) : Prop :=
  ∀ w t, t.post.inHand = none →
    (act w t).post.fifo = t.post.fifo ∧ (act w t).post.inHand = handAfter kind w t ∧ same t (act w t) .mode ∧ same t (act w t) .timer

/-- A command takes the words of a kind: the words that pass its checks are those of R168's table. -/
def TakesWord (kind : Nat) (c : Instr) (allowed : Mode → Bool) (legal : Nat → Bool) (act : Word → State → State) : Prop :=
  (∀ s, exec c s = s.takeWord kind allowed legal act)
    ∧ (∀ m a, wordPasses kind m a → allowed m = true ∧ legal a = true) ∧ ActsOn kind act

theorem handAfter_of_ne (h : kind ≠ 1) (k : kind ≠ 4) : handAfter kind w s = none := if_neg (by simp [h, k])

theorem actsOn_of_unchanged {changed : List Piece} (h : ∀ w t, Unchanged changed t (act w t)) (hk : kind ≠ 1 ∧ kind ≠ 4 := by decide)
    (hf : Piece.fifo ∉ changed := by decide) (hm : Piece.mode ∉ changed := by decide) (ht : Piece.timer ∉ changed := by decide) :
    ActsOn kind act := by
  intro w t hi
  obtain ⟨kf, ki, -⟩ := h w t .fifo hf
  exact ⟨kf, by rw [ki, hi, handAfter_of_ne hk.1 hk.2], h w t .mode hm, h w t .timer ht⟩

/-- What an act on a word issues beside leaves the hand, the mode and the timer. -/
theorem issue_afterAct (s : State) (x y : Block) (op : RecordOp) :
    (s.issue x y op).post = s.post ∧ (s.issue x y op).control = s.control := by
  obtain ⟨q, b, l, g, n, p, h⟩ := s.issue_is x y op
  rw [h]
  exact ⟨rfl, rfl⟩

/-- In STANDBY and in LIVE most kinds are allowed. -/
theorem takesWords_of_passes {m : Mode} {a : Nat} (h : wordPasses kind m a) : m.takesWords = true :=
  (takesWords_of (h.1.elim .inr fun k => .inl k.1)).2.2

/-! ## Kind by kind -/

theorem applySetup_takesWord : ∃ act, TakesWord 1 .applySetup Mode.takesWords anyArgument act := by
  refine ⟨_, fun _ => rfl, fun m a h => ⟨takesWords_of_passes h, rfl⟩, fun w t _ => ?_⟩
  obtain ⟨hp, hc⟩ := issue_afterAct { t with post.inHand := some w, post.handMode := t.control.mode, post.setupRead := .waiting }
    .post .post (.read .setup Config.setupBase [])
  simp only [same]
  rw [hp, hc]
  exact ⟨rfl, rfl, rfl, rfl, rfl, rfl⟩

theorem takeLayout_unchanged (s : State) : Unchanged [.frameTurn] s (s.feederTakes .takeLayout) := by
  unfold State.feederTakes State.feederEvent
  split <;>
  · intro p hp
    cases p <;> simp_all [same]

theorem takeLayout_takesWord : ∃ act, TakesWord 2 .takeLayout Mode.takesWords anyArgument act :=
  ⟨_, fun _ => rfl, fun _ _ h => ⟨takesWords_of_passes h, rfl⟩, actsOn_of_unchanged fun _ t => takeLayout_unchanged t⟩

theorem captureCredit_takesWord :
    ∃ act, TakesWord 3 .captureCredit Mode.takesWords (fun a => decide (1 ≤ a) && decide (a ≤ 255)) act := by
  refine ⟨_, fun _ => rfl, fun m a h => ⟨takesWords_of_passes h, by simpa using h.2.1 rfl⟩,
    actsOn_of_unchanged (changed := capturing) fun w t => ?_⟩
  split
  · exact (t.refuse_unchanged _ _).mono
  · have credit := (t.setCredit_unchanged (min 255 (t.capture.credit + postArgument w))).mono (c := capturing)
    dsimp only
    split
    · exact (credit.comp (State.stopCount_unchanged _) (c := capturing)).comp (State.readHead_unchanged _)
    · exact credit

theorem captureRestart_takesWord : ∃ act, TakesWord 4 .captureRestart Mode.takesWords anyArgument act := by
  refine ⟨_, fun _ => rfl, fun m a h => ⟨takesWords_of_passes h, rfl⟩, fun w t hi => ?_⟩
  dsimp only
  split
  · rename_i hr
    obtain ⟨kf, ki, -⟩ := t.refuse_unchanged refusedBusy w .fifo (by decide)
    exact ⟨kf, by rw [ki, hi, handAfter, if_neg (by simp [hr])], t.refuse_unchanged refusedBusy w .mode (by decide),
      t.refuse_unchanged refusedBusy w .timer (by decide)⟩
  · rename_i hr
    obtain ⟨hp, hc⟩ := issue_afterAct { t with post.inHand := some w, post.controlRead := .waiting } .capture .capture
      (.read .control Config.controlBase [])
    simp only [same]
    rw [hp, hc, handAfter, if_pos (.inr ⟨rfl, hr⟩)]
    exact ⟨rfl, rfl, rfl, rfl, rfl, rfl⟩

theorem captureNow_takesWord : ∃ act, TakesWord 5 .captureNow (fun m => decide (m = .live)) anyArgument act := by
  refine ⟨_, fun _ => rfl, fun m a h => ⟨by simpa [wordPasses] using h.1, rfl⟩,
    actsOn_of_unchanged (changed := capturing) fun w t => ?_⟩
  split
  · exact (t.refuse_unchanged _ _).mono
  split
  · exact (t.refuse_unchanged _ _).mono
  · exact t.takeDecision_unchanged _ _ _ _

theorem lessonBegin_takesWord : ∃ act, TakesWord 6 .lessonBegin Mode.takesWords anyArgument act := by
  refine ⟨_, fun _ => rfl, fun m a h => ⟨takesWords_of_passes h, rfl⟩,
    actsOn_of_unchanged (changed := [.lesson, .index, .decisions, .records, .arbiter, .raised]) fun w t => ?_⟩
  split
  · exact (t.refuse_unchanged _ _).mono
  split
  · exact (t.refuse_unchanged _ _).mono
  · exact t.lessonBegun_unchanged

theorem lessonEnd_takesWord : ∃ act, TakesWord 7 .lessonEnd Mode.takesWords anyArgument act := by
  refine ⟨_, fun _ => rfl, fun m a h => ⟨takesWords_of_passes h, rfl⟩,
    actsOn_of_unchanged (changed := .lesson :: .decisions :: missing) fun w t => ?_⟩
  split
  · exact (t.refuse_unchanged _ _).mono
  · exact (t.lessonClosed_unchanged.comp (State.missWaiting_unchanged _ _) (c := .lesson :: .decisions :: missing)).comp
      (State.raise_unchanged _ _ _ _ _ _)

theorem jobAdd_takesWord : ∃ act, TakesWord 8 .jobAdd Mode.takesWords entrySet act :=
  ⟨_, fun _ => rfl, fun _ _ h => ⟨takesWords_of_passes h, decide_eq_true (h.2.2.1 (.inl rfl))⟩,
    actsOn_of_unchanged fun w t => State.forEntries_unchanged _ State.addEntry_unchanged t (postArgument w)⟩

theorem jobCancel_takesWord : ∃ act, TakesWord 9 .jobCancel Mode.takesWords entrySet act :=
  ⟨_, fun _ => rfl, fun _ _ h => ⟨takesWords_of_passes h, decide_eq_true (h.2.2.1 (.inr rfl))⟩,
    actsOn_of_unchanged fun w t => State.forEntries_unchanged _ State.cancelEntry_unchanged t (postArgument w)⟩

theorem eventAck_takesWord : ∃ act, TakesWord 10 .eventAck Mode.takesWords (fun a => decide (a ≤ 255)) act := by
  refine ⟨_, fun _ => rfl, fun m a h => ⟨takesWords_of_passes h, decide_eq_true (h.2.2.2.1 rfl)⟩,
    actsOn_of_unchanged (changed := .raised :: publishing) fun w t => ?_⟩
  split
  · exact (t.acknowledge_unchanged _).mono
  · exact (t.refuse_unchanged _ _).mono

theorem pageForget_takesWord : ∃ act, TakesWord 11 .pageForget Mode.takesWords (fun a => decide (a ≤ 63)) act := by
  refine ⟨_, fun _ => rfl, fun m a h => ⟨takesWords_of_passes h, decide_eq_true (h.2.2.2.2 rfl)⟩,
    actsOn_of_unchanged (changed := [.index, .records, .arbiter, .raised]) fun w t => ?_⟩
  split
  · exact (t.setEntryState_unchanged _ _ _).mono
  · exact (t.refuse_unchanged _ _).mono

theorem clearInstability_takesWord : ∃ act, TakesWord 12 .clearInstability Mode.takesWords anyArgument act :=
  ⟨_, fun _ => rfl, fun _ _ h => ⟨takesWords_of_passes h, rfl⟩, actsOn_of_unchanged (changed := [.instability, .records, .arbiter])
    fun _ t => (t.setInstability_unchanged 0).comp (State.setSuspended_unchanged _ false)⟩

/-- The command of every kind that the port knows takes the words of its kind. -/
theorem known_takesWord (h : (kind, c) ∈ knownWords) : ∃ allowed legal act, TakesWord kind c allowed legal act := by
  simp only [knownWords, List.mem_cons, Prod.mk.injEq, List.not_mem_nil, or_false] at h
  rcases h with ⟨rfl, rfl⟩ | ⟨rfl, rfl⟩ | ⟨rfl, rfl⟩ | ⟨rfl, rfl⟩ | ⟨rfl, rfl⟩ | ⟨rfl, rfl⟩ | ⟨rfl, rfl⟩ | ⟨rfl, rfl⟩ | ⟨rfl, rfl⟩
    | ⟨rfl, rfl⟩ | ⟨rfl, rfl⟩ | ⟨rfl, rfl⟩
  · exact ⟨_, _, applySetup_takesWord⟩
  · exact ⟨_, _, takeLayout_takesWord⟩
  · exact ⟨_, _, captureCredit_takesWord⟩
  · exact ⟨_, _, captureRestart_takesWord⟩
  · exact ⟨_, _, captureNow_takesWord⟩
  · exact ⟨_, _, lessonBegin_takesWord⟩
  · exact ⟨_, _, lessonEnd_takesWord⟩
  · exact ⟨_, _, jobAdd_takesWord⟩
  · exact ⟨_, _, jobCancel_takesWord⟩
  · exact ⟨_, _, eventAck_takesWord⟩
  · exact ⟨_, _, pageForget_takesWord⟩
  · exact ⟨_, _, clearInstability_takesWord⟩

/-! ## The word in hand -/

/-- The owner of the word in hand, waiting no longer, acts on it: the FIFO, the mode and the timer stay, and the word leaves the hand but
for a record that is read for it. -/
theorem TakesWord.acts (d : TakesWord kind c allowed legal act) (h : s.keepsWord w) (hk : postKind w = kind)
    (ho : s.ownersFree kind = true) :
    Completes c s fun t =>
      t.post.fifo = s.post.fifo ∧ t.post.inHand = handAfter kind w s ∧ same s t .mode ∧ same s t .timer := by
  obtain ⟨hx, -, ha⟩ := d
  obtain ⟨kf, ki, km, kt⟩ := ha w s.leaveHand rfl
  refine ⟨_, (hx s).trans (takeWord_of_keeps h hk ho), ?_, ?_, ?_, ?_⟩
  · rw [State.closeWork_post]
    exact kf
  · rw [State.closeWork_post]
    exact ki
  · exact km.trans (State.closeWork_unchanged _ _ .mode (by decide))
  · exact kt.trans (State.closeWork_unchanged _ _ .timer (by decide))

/-- A passing word whose owner waits is taken and kept in hand. -/
theorem TakesWord.keeps (d : TakesWord kind c allowed legal act) {rest : List Word} (h : s.offersWord kind w rest)
    (hp : wordPasses kind s.control.mode (postArgument w)) (ho : s.ownersFree kind = false) :
    Completes c s fun t =>
      Took rest s t ∧ t.post.inHand = some w ∧ t.post.handMode = s.control.mode ∧ t.news = s.news ∧ Did [.fifo, .timer] [] [] s t := by
  obtain ⟨hx, hc, -⟩ := d
  obtain ⟨ha, hl⟩ := hc _ _ hp
  obtain ⟨hr, hb, -⟩ := takesWords_of (hp.1.elim .inr fun k => .inl k.1)
  exact ⟨_, (hx s).trans (takeWord_keeps h hr hb ha hl ho), keptWord_spec s w rest⟩

/-- The owner acts on it as on a word from the head of the FIFO. -/
theorem TakesWord.as_head (d : TakesWord kind c allowed legal act) (h : s.keepsWord w) (hk : postKind w = kind)
    (ho : s.ownersFree kind = true) (hf : s.free .post = true) (ht : s.control.timerOn = false)
    (hp : wordPasses kind s.control.mode (postArgument w)) :
    exec c s = exec c { s with post.fifo := w :: s.post.fifo, post.inHand := none } := by
  obtain ⟨hx, hc, -⟩ := d
  obtain ⟨ha, hl⟩ := hc _ _ hp
  obtain ⟨hr, hb, -⟩ := takesWords_of (hp.1.elim .inr fun k => .inl k.1)
  rw [hx, hx, takeWord_hand_eq_head h hk ho hf ht hr hb ha hl]

/-- CAPTURE_CREDIT kept in hand for a running chain with no capture waiting for a slot (R124). -/
theorem captureCredit_of_keeps (h : s.keepsWord w) (hk : postKind w = 3) (ho : s.ownersFree 3 = true)
    (hr : s.capture.running = true) (hw : s.capture.slotWaiting = false) :
    let credit := min 255 (s.capture.credit + postArgument w)
    Completes .captureCredit s fun t =>
      t.capture.credit = credit ∧ t.capture.running = true ∧ t.capture.head = s.capture.head
        ∧ Did [.fifo, .chain] (fieldChange (s.capture.credit = credit) 0x0C 1 credit) [] s t := by
  intro credit
  have hx : exec .captureCredit s = .next (s.closeWork (s.leaveHand.setCredit credit)) := by
    refine (takeWord_of_keeps (act := fun w t =>
      if !t.capture.running then t.refuse refusedStopped w
      else
        let t' := t.setCredit (min 255 (t.capture.credit + postArgument w))
        if t.capture.slotWaiting then t'.stopCount.readHead else t') h hk ho).trans ?_
    simp [hr, hw, credit]
  have hc := State.closeWork_unchanged s (s.leaveHand.setCredit credit) .chain (by decide)
  obtain ⟨h1, h2, h3⟩ := hc
  rw [State.setCredit_capture] at h1 h2 h3
  have sent : Sends (fieldChange (s.capture.credit = credit) 0x0C 1 credit) [] s (s.leaveHand.setCredit credit) :=
    Sends.after (t := s.leaveHand) .same (State.setCredit_sends _ _)
  refine ⟨_, hx, h3, h1.trans hr, h2, sent.did ?_⟩
  exact s.leaveHand_unchanged.comp (State.setCredit_unchanged _ _)

end Sys2Proof.Machine
end

section
/-! SUPPORT. What a waiting block does not take, and the admission of the block that has waited longest (R155, assumption log 22). -/

namespace Sys2Proof.Machine

set_option Elab.async false

variable {s t x : State} {w : Wait} {rest : List Wait}

/-! ## Commands that a waiting block leaves -/

theorem monitor_busy_idle (h : s.free .monitor = false) : exec .tileMeansArrival s = .next s ∧ exec .patternTimeout s = .next s := by
  refine ⟨?_, if_neg (by simp [h])⟩
  show execTileMeansArrival s = _
  unfold execTileMeansArrival
  rw [h]
  cases s.intake.meansOut <;> rfl

theorem capture_busy_idle (h : s.free .capture = false) : exec .captureDecision s = .next s ∧ exec .slotWaitExpiry s = .next s := by
  refine ⟨?_, if_neg (by simp [h])⟩
  show execCaptureDecision s = _
  unfold execCaptureDecision
  rw [h]
  cases s.capture.decisions <;> rfl

theorem post_busy_idle (h : s.free .post = false) : (∀ n, exec (.eventArrival n) s = .next s) ∧ exec .holdoffExpiry s = .next s := by
  refine ⟨fun n => ?_, if_neg (by simp [h])⟩
  show execEventArrival n s = _
  unfold execEventArrival
  split
  · rfl
  · exact if_neg (by simp [h])

/-- A block that does not take entries leaves its announcement. -/
theorem modeEntry_idle {b : Block} (h : s.takesEntry b = false) : exec (.modeEntry b) s = .next s := by
  show execModeEntry b s = _
  unfold execModeEntry
  rw [h]
  cases s.control.announced b <;> rfl

theorem takesEntry_of_busy {b : Block} (hb : b ≠ .feeder) (h : s.free b = false) : s.takesEntry b = false := by
  simp [State.takesEntry, h, hb]

/-- A block acts on the word in hand before it takes an entry (assumption log 22). -/
theorem takesEntry_of_keeps {b : Block} {v : Word} (h : s.keepsWord v) (hb : b ∈ wordOwners (postKind v)) (hf : b ≠ .feeder) :
    s.takesEntry b = false := by
  have hd : s.dispatched = some v := (if_pos h.2).trans h.1
  have ho : s.owesAnswer b = true := by simpa [State.owesAnswer, hd] using hb
  simp [State.takesEntry, ho, hf]

theorem recordQueueAdmit_idle (h : s.port.blocked = [] ∨ 32 ≤ s.port.queue.length) : exec .recordQueueAdmit s = .next s := if_pos h

/-! ## The admission -/

/-- The oldest operation that waited has joined the queue, and nothing has gone out behind it yet. -/
def State.admitted (s : State) (w : Wait) (rest : List Wait) : State :=
  { { s with port.queue := s.port.queue ++ [w.op], port.blocked := rest }.makeGrant with port.later := [] }

theorem State.admitted_is (s : State) (w : Wait) (rest : List Wait) :
    ∃ g l p, s.admitted w rest =
      { s with
        port.queue := s.port.queue ++ [w.op], port.blocked := rest, port.later := []
        port.grant := g, port.last := l, port.pass := p } := by
  obtain ⟨g, l, p, h⟩ := State.makeGrant_is { s with port.queue := s.port.queue ++ [w.op], port.blocked := rest }
  exact ⟨g, l, p, by rw [State.admitted, h]⟩

theorem State.admitted_port (s : State) (w : Wait) (rest : List Wait) :
    (s.admitted w rest).port.queue = s.port.queue ++ [w.op] ∧ (s.admitted w rest).port.blocked = rest
      ∧ (s.admitted w rest).port.later = [] ∧ (s.admitted w rest).post = s.post := by
  obtain ⟨g, l, p, h⟩ := s.admitted_is w rest
  rw [h]
  exact ⟨rfl, rfl, rfl, rfl⟩

theorem State.admitted_unchanged (s : State) (w : Wait) (rest : List Wait) : Unchanged [.records, .arbiter] s (s.admitted w rest) := by
  obtain ⟨g, l, n, h⟩ := s.admitted_is w rest
  rw [h]
  intro p hp
  cases p <;> simp_all [same]

/-- The test of R187 is not met, whoever waits. -/
def State.testUnmet (s : State) : Prop :=
  s.control.mode ≠ .shutting ∨ s.entriesDone = false ∨ s.capture.context.state ≠ .idle ∨ s.jobs.running ≠ none

theorem shutdownTest_of_unmet (h : s.testUnmet) (hu : Unchanged sending s t) : t.shutdownTest = t := by
  have h1 := hu .mode (by decide)
  have h2 := hu .announcements (by decide)
  obtain ⟨-, -, h3⟩ := hu .frameTurn (by decide)
  have h4 := hu .context (by decide)
  have h5 := hu .runningJob (by decide)
  simp only [same] at h1 h2 h4 h5
  refine if_neg fun ⟨k1, k2, k3, k4, _⟩ => ?_
  rw [State.entriesDone, h2, h3] at k2
  rcases h with h | h | h | h
  · exact h (h1.symm.trans k1)
  · exact absurd (k2.symm.trans h) (by decide)
  · exact h (by rw [← h4]; exact k3)
  · exact h (h5.symm.trans k4)

/-- The admission, with what goes out behind it. -/
theorem exec_admit (hb : s.port.blocked = w :: rest) (hq : s.port.queue.length < 32) (hs : s.testUnmet)
    (hx : (s.admitted w rest).emitAll s.port.later = x) : exec .recordQueueAdmit s = .next (s.closeWork x) := by
  have hn : ¬ (s.port.blocked = [] ∨ Config.recordRoom ≤ s.port.queue.length) := by
    rw [hb]
    exact fun h => h.elim (List.cons_ne_nil _ _) (Nat.not_le.2 hq)
  have hl : ({ s with port.queue := s.port.queue ++ [w.op], port.blocked := rest }.makeGrant).port.later = s.port.later := by
    obtain ⟨g, l, p, h⟩ := State.makeGrant_is { s with port.queue := s.port.queue ++ [w.op], port.blocked := rest }
    rw [h]
  have hr : ({ s with port.queue := s.port.queue ++ [w.op], port.blocked := rest }.makeGrant).release = x := by
    rw [State.release, hl]
    exact hx
  have hu : Unchanged sending s x := by
    rw [← hx]
    exact (s.admitted_unchanged w rest).comp (State.emitAll_unchanged _ _)
  show execRecordQueueAdmit s = _
  rw [execRecordQueueAdmit, if_neg hn, State.admitBlocked, hb]
  dsimp only
  rw [if_pos (show s.port.queue.length < Config.recordRoom from hq), hr, shutdownTest_of_unmet hs hu]

/-- What is sent by blocks that still wait is held again, in its order. -/
theorem emitAll_held {l : List Output} (h : ∀ o ∈ l, ∃ y ∈ s.port.blocked, o.actor ∈ y.blocks) :
    s.emitAll l = { s with port.later := s.port.later ++ l } := by
  induction l generalizing s with
  | nil => simp [State.emitAll]
  | cons o l ih =>
    obtain ⟨y, hy, ho⟩ := h o List.mem_cons_self
    have hw : s.free o.actor = false := by
      simp only [State.free, State.waiting, Bool.not_eq_false', Bool.or_eq_true, List.any_eq_true]
      exact .inl ⟨y, hy, by simpa using ho⟩
    have he := State.emit_of_busy hw o.sent
    have := ih (s := s.hold o) fun o' ho' => h o' (List.mem_cons_of_mem _ ho')
    rw [State.emitAll, List.foldl_cons, he]
    refine this.trans ?_
    simp [State.hold]

theorem admitted_free {b : Block} (h : ∀ y ∈ rest, b ∉ y.blocks) (s : State) (w : Wait) : (s.admitted w rest).free b = true := by
  obtain ⟨-, hb, hl, -⟩ := s.admitted_port w rest
  simpa [State.free, State.waiting, hb, hl] using h

/-- A block that waits no longer sends on the one thing it held back. -/
theorem emitAll_one {o : Output} (hl : s.port.later = [o]) (h : ∀ y ∈ rest, o.actor ∉ y.blocks) :
    (s.admitted w rest).emitAll s.port.later = (s.admitted w rest).put o.actor o.sent := by
  rw [hl]
  exact if_neg (by simp [State.waiting_of_free (admitted_free h s w)])

/-! ## What goes out behind the admission -/

section
variable {u : EngineUnit} (hb : s.port.blocked = w :: rest) (hq : s.port.queue.length < 32) (hu : s.engine.unit = some u)
  (hs : s.testUnmet)
include hb hq hu hs

/-- A step of the admission with the engine at work: the record queue and the news are those of the state before the end of the step. -/
theorem admit_step {changed : List Piece} (hx : (s.admitted w rest).emitAll s.port.later = x) (k : Unchanged changed s x)
    (ku : Piece.unit ∉ changed := by decide) :
    ∃ t, exec .recordQueueAdmit s = .next t ∧ t = s.closeWork x ∧ t.port.queue = x.port.queue ∧ t.port.blocked = x.port.blocked
      ∧ t.port.later = x.port.later ∧ t.news = x.news ∧ Unchanged closing x t := by
  have hunit : x.engine.unit = some u := by rw [k .unit ku, hu]
  obtain ⟨k1, k2, k3, k4⟩ := closeWork_port_of_unit hunit s
  exact ⟨_, exec_admit hb hq hs hx, rfl, k1, k2, k3, State.closeWork_news _ _, k4⟩

theorem admit_holds (h : ∀ o ∈ s.port.later, ∃ y ∈ rest, o.actor ∈ y.blocks) :
    Completes .recordQueueAdmit s fun t =>
      t.port.queue = s.port.queue ++ [w.op] ∧ t.port.blocked = rest ∧ t.port.later = s.port.later
        ∧ t.news = s.news ∧ Unchanged (.records :: closing) s t := by
  obtain ⟨aq, ab, al, ap⟩ := s.admitted_port w rest
  have hx := emitAll_held (s := s.admitted w rest) (l := s.port.later) (by rwa [ab])
  have k : Unchanged [.records, .arbiter] s { s.admitted w rest with port.later := (s.admitted w rest).port.later ++ s.port.later } := by
    refine (s.admitted_unchanged w rest).comp (b := [.records]) ?_
    intro p hp
    cases p <;> simp_all [same]
  obtain ⟨t, hx, -, tq, tb, tl, tn, tu⟩ := admit_step hb hq hu hs hx k
  exact ⟨t, hx, tq.trans aq, tb.trans ab, tl.trans (by rw [al]; rfl), tn.trans k.news, k.comp tu⟩

theorem admit_raises {actor : Block} {kind : EventKind} {small a b : Nat} (hl : s.port.later = [⟨actor, .event kind small a b⟩])
    (h : ∀ y ∈ rest, actor ∉ y.blocks) :
    Completes .recordQueueAdmit s fun t =>
      t.port.queue = s.port.queue ++ [w.op] ∧ t.port.blocked = rest ∧ t.port.later = []
        ∧ t.news = s.news ++ [(actor, kind, small, a, b)] ∧ Stamped s t ∧ Unchanged (.records :: closing) s t := by
  obtain ⟨aq, ab, al, ap⟩ := s.admitted_port w rest
  have ai : (s.admitted w rest).intake.frameNumber = s.intake.frameNumber := (s.admitted_unchanged w rest .statistics (by decide)).2.1
  have k : Unchanged [.records, .arbiter, .raised] s ((s.admitted w rest).put actor (.event kind small a b)) := by
    refine (s.admitted_unchanged w rest).comp (b := [.raised]) ?_
    intro p hp
    cases p <;> simp_all [same, State.put]
  obtain ⟨t, hx, rfl, tq, tb, tl, tn, tu⟩ := admit_step hb hq hu hs (emitAll_one hl h) k
  refine ⟨_, hx, tq.trans aq, tb.trans ab, tl.trans al, tn.trans ?_, ?_, k.comp tu⟩
  · simp [State.put, State.news, ap]
  · refine Stamped.closeWork fun e he => ?_
    simp only [State.put, ap, List.drop_left, List.mem_singleton] at he
    rw [he]
    rfl

theorem admit_sets {actor : Block} {c : Cause} (hl : s.port.later = [⟨actor, .cause c⟩]) (h : ∀ y ∈ rest, actor ∉ y.blocks) :
    Completes .recordQueueAdmit s fun t =>
      t.port.queue = s.port.queue ++ [w.op] ∧ t.port.blocked = rest ∧ t.port.later = [] ∧ t.news = s.news
        ∧ (∀ i, t.post.cause.getLsbD i = (s.post.cause.getLsbD i || decide (i = c.bit)))
        ∧ Unchanged (.cause :: .records :: closing) s t := by
  obtain ⟨aq, ab, al, ap⟩ := s.admitted_port w rest
  have k : Unchanged [.cause, .records, .arbiter] s ((s.admitted w rest).setCause c) :=
    (s.admitted_unchanged w rest).comp (State.setCause_unchanged _ c)
  obtain ⟨t, hx, -, tq, tb, tl, tn, tu⟩ := admit_step hb hq hu hs (emitAll_one hl h) k
  refine ⟨t, hx, tq.trans aq, tb.trans ab, tl.trans al, tn.trans k.news, fun i => ?_, k.comp tu⟩
  rw [tu .cause (by decide)]
  show (withCause (s.admitted w rest).post.cause c).getLsbD i = _
  rw [ap, withCause_bit]

theorem admit_issues {actor issuer : Block} {op : RecordOp} (hl : s.port.later = [⟨actor, .op issuer op⟩])
    (h : ∀ y ∈ rest, actor ∉ y.blocks ∧ issuer ∉ y.blocks) :
    Completes .recordQueueAdmit s fun t =>
      (rest = [] → s.port.queue.length + 2 ≤ 32 → t.port.queue = s.port.queue ++ [w.op, op] ∧ t.port.blocked = [])
        ∧ (rest ≠ [] ∨ s.port.queue.length = 31 →
            t.port.queue = s.port.queue ++ [w.op] ∧ t.port.blocked = rest ++ [⟨waiters issuer actor, op⟩])
        ∧ t.port.later = [] ∧ t.news = s.news ∧ Unchanged (.records :: closing) s t := by
  obtain ⟨aq, ab, al, ap⟩ := s.admitted_port w rest
  have hx : (s.admitted w rest).emitAll s.port.later = (s.admitted w rest).join issuer actor op := by
    rw [hl]
    exact State.emit_op_of_free (admitted_free (fun y hy => (h y hy).1) s w) (admitted_free (fun y hy => (h y hy).2) s w) op
  have k : Unchanged [.records, .arbiter] s ((s.admitted w rest).join issuer actor op) :=
    (s.admitted_unchanged w rest).comp (State.join_unchanged _ _ _ _)
  obtain ⟨t, hx, -, tq, tb, tl, tn, tu⟩ := admit_step hb hq hu hs hx k
  refine ⟨t, hx, fun hr hn => ?_, fun hr => ?_, tl.trans ?_, tn.trans k.news, k.comp tu⟩
  · obtain ⟨jq, jb, -⟩ := State.join_room (s := s.admitted w rest) (ab.trans hr) (by rw [aq, List.length_append]; exact hn) issuer actor op
    exact ⟨by rw [tq, jq, aq, List.append_assoc]; rfl, tb.trans jb⟩
  · have full : (s.admitted w rest).noRoom := by
      rw [State.noRoom, aq, ab, List.length_append]
      exact hr.elim .inr fun hq' => .inl (by rw [hq']; rfl)
    rw [tq, tb, State.join_noRoom full]
    exact ⟨aq, by rw [ab]⟩
  · rcases (s.admitted w rest).join_is issuer actor op with ⟨jb, jq, -⟩ | ⟨-, blocks, -, j⟩
    · exact (State.join_room jb jq issuer actor op).2.2.trans al
    · rw [j]
      exact al

end

end Sys2Proof.Machine
end

section
/-! SUPPORT. The owners of a kind of post word, as the table lists them (R168). -/

namespace Sys2Proof.Machine

set_option Elab.async false

variable {s : State} {k : Nat} {c : Instr}

/-- The blocks that act on a word of a kind, read off the table. -/
def listedOwners (k : Nat) : List Block :=
  if k = 5 then [.monitor, .capture] else if k = 3 ∨ k = 4 ∨ k = 6 ∨ k = 7 then [.capture] else if k = 8 ∨ k = 9 then [.jobs]
  else if k = 11 then [.monitor] else if k = 12 then [.intake] else []

theorem listedOwners_eq (h : (k, c) ∈ knownWords) : listedOwners k = wordOwners k := by
  have all : ∀ p ∈ knownWords, listedOwners p.1 = wordOwners p.1 := by decide
  exact all _ h

/-- The display feeder owns no kind of word. -/
theorem feeder_not_owner (h : (k, c) ∈ knownWords) : Block.feeder ∉ wordOwners k := by
  have all : ∀ p ∈ knownWords, Block.feeder ∉ wordOwners p.1 := by decide
  exact all _ h

/-- A command of a known kind does nothing while the port takes no word, with none of the kind in hand. -/
theorem known_idle (h : (k, c) ∈ knownWords) (hb : s.post.inHand ≠ none ∨ s.free .post = false)
    (hn : ∀ w, s.keepsWord w → postKind w ≠ k) : exec c s = .next s := by
  obtain ⟨allowed, legal, act, hx, -⟩ := known_takesWord h
  rw [hx]
  exact takeWord_idle (headWord_none k hb) (handWord_none hn)

end Sys2Proof.Machine
end

section

open Sys2Proof Sys2Proof.Machine

/-- Settles O22: what a waiting block sends is held behind its wait, a word for it stays in hand, and the admission sends on what was
held. -/
theorem blocksWaitForRoom : Obligations.BlocksWaitForRoom := by
  refine ⟨fun s u w rest hm h hn hv hu hq => pageForget_waits hm h hn hv hu hq,
    fun s e later he hf hd hq h => eventArrival_waits he hf hd hq h,
    fun s actor issuer op h => ⟨State.emit_of_busy h _, fun hi => State.issue_of_busy h hi op, fun e n hn hv => State.insertEntry_of_busy h e hn hv⟩,
    fun s op h => State.emit_of_busy h _,
    fun s => ⟨monitor_busy_idle, capture_busy_idle, post_busy_idle, fun hb hn => ⟨fun k c hk => ?_, postUnknownKind_of_busy hb⟩,
      fun b hb h => modeEntry_idle (takesEntry_of_busy hb h), recordQueueAdmit_idle⟩,
    fun s k c w hk => ?_, fun s u w rest hb hq hu hs => ?_⟩
  · exact known_idle hk hb.symm fun w hw => absurd hw (hn w)
  · intro owners
    obtain ⟨allowed, legal, act, hd⟩ := known_takesWord hk
    have ho : owners = wordOwners k := listedOwners_eq hk
    rw [ho]
    refine ⟨fun rest h hp hw => hd.keeps h hp (ownersFree_false.2 hw), fun h hw => ?_⟩
    have hand : s.post.inHand ≠ none := by rw [h.1]; exact Option.some_ne_none w
    refine ⟨fun k' c' hk' hne => known_idle hk' (.inl hand) fun v hv => by rwa [h.unique hv, hw, ne_comm],
      postUnknownKind_of_busy (.inr hand),
      fun b hb => modeEntry_idle (takesEntry_of_keeps h (by rwa [hw]) fun hf => feeder_not_owner hk (hf ▸ hb)),
      fun hb => ?_, fun hf => ?_⟩
    · rw [hd.1]
      exact takeWord_of_keeps_busy h hw (ownersFree_false.2 hb)
    · have free := ownersFree_true.2 hf
      refine ⟨hd.acts h hw free, fun hp ht hpass => hd.as_head h hw free hp ht hpass, fun h3 hr hs => ?_⟩
      subst h3
      exact captureCredit_of_keeps h hw free hr hs
  · exact ⟨admit_holds hb hq hu hs, fun actor kind small a b hl h => admit_raises hb hq hu hs hl h,
      fun actor c hl h => admit_sets hb hq hu hs hl h, fun actor issuer op hl h => admit_issues hb hq hu hs hl h⟩

end

section
/-! SUPPORT. The geometry of a render along its axes: the fit step and the step, the origin and the centre of the window, and the pixels
whose centre lies in the source (R46 to R52). -/

namespace Sys2Proof.Machine

variable {r : Render}

theorem clampNat_eq {lo hi : Nat} (h : lo ≤ hi) (x : Nat) : clampNat lo hi x = max lo (min hi x) := by
  unfold clampNat
  split <;> (try split) <;> omega

theorem clampInt_eq {lo hi : Int} (h : lo ≤ hi) (x : Int) : clampInt lo hi x = max lo (min x hi) := by
  unfold clampInt
  split <;> (try split) <;> omega

theorem clampByte_eq (x : Int) : clampInt 0 255 x = max 0 (min x 255) := clampInt_eq (by decide) x

theorem ceilDiv_le_iff {a b n : Nat} (hb : 0 < b) : ceilDiv a b ≤ n ↔ a ≤ n * b := by
  rw [ceilDiv, ← Nat.ceilDiv_eq_add_pred_div, ceilDiv_le_iff_le_mul hb, Nat.mul_comm]

/-! ## The fit step and the step (R46, R47) -/

/-- The fit step is the least step at which the window covers the source on both axes. -/
theorem Render.fitStep_le_iff {n : Nat} (hw : 0 < r.wp) (hh : 0 < r.hp) :
    r.fitStep ≤ n ↔ r.ws * 65536 ≤ n * r.wp ∧ r.hs * 65536 ≤ n * r.hp := by
  rw [Render.fitStep, max_le_iff, ceilDiv_le_iff hw, ceilDiv_le_iff hh]

theorem Render.step_eq (r : Render) : r.step = r.fitStep * 256 / max 256 (min 4096 r.zoom) := by
  rw [Render.step, Render.clampedZoom, clampNat_eq (by decide)]

theorem Render.step_bounds (h : 256 ≤ r.fitStep) : r.fitStep / 16 ≤ r.step ∧ r.step ≤ r.fitStep ∧ 16 ≤ r.step := by
  rw [Render.step_eq]
  obtain ⟨hlo, hhi⟩ : 256 ≤ max 256 (min 4096 r.zoom) ∧ max 256 (min 4096 r.zoom) ≤ 4096 := by omega
  generalize max 256 (min 4096 r.zoom) = z at hlo hhi
  have least : r.fitStep / 16 ≤ r.fitStep * 256 / z := by
    rw [Nat.le_div_iff_mul_le (by omega)]
    calc r.fitStep / 16 * z ≤ r.fitStep / 16 * 4096 := Nat.mul_le_mul_left _ hhi
      _ ≤ r.fitStep * 256 := by omega
  exact ⟨least, Nat.div_le_of_le_mul (by rw [Nat.mul_comm]; exact Nat.mul_le_mul_right _ hlo), by omega⟩

/-! ## The window along one axis (R48 to R51) -/

theorem axisOrigin_fits {c window extent : Nat} (h : window ≤ extent) :
    axisOrigin c window extent = clampInt 0 ((extent - window : Nat) : Int) ((c * 4096 : Nat) - ((window / 2 : Nat) : Int)) := by
  rw [axisOrigin, if_pos h, Int.ofNat_sub h]

theorem axisOrigin_wide {c window extent : Nat} (h : extent < window) :
    axisOrigin c window extent = ((extent : Int) - window) / 2 := by
  rw [axisOrigin, if_neg (by omega)]

/-- A window no wider than the source lies in it. -/
theorem axisOrigin_bounds {c window extent : Nat} (h : window ≤ extent) :
    0 ≤ axisOrigin c window extent ∧ axisOrigin c window extent + window ≤ extent := by
  rw [axisOrigin_fits h, clampInt_eq (by omega)]
  omega

/-- A window about a centre that keeps it in the source is not moved. -/
theorem axisOrigin_unclamped {c window extent : Nat} (hlo : window / 2 ≤ c * 4096) (hhi : c * 4096 + (window - window / 2) ≤ extent) :
    axisOrigin c window extent = (c * 4096 : Nat) - ((window / 2 : Nat) : Int) := by
  rw [axisOrigin_fits (by omega), clampInt_eq (by omega)]
  omega

/-- The centre used is that of the window, which is never left of the source. -/
theorem axisCentre_axisOrigin {c window extent : Nat} (he : extent % 2 = 0) (h0 : 0 < extent) :
    (axisCentre (axisOrigin c window extent) window : Int) = (axisOrigin c window extent + (window / 2 : Nat)) / 4096 := by
  have : 0 ≤ axisOrigin c window extent + (window / 2 : Nat) := by
    rcases Nat.lt_or_ge extent window with h | h
    · rw [axisOrigin_wide h]
      omega
    · have := axisOrigin_bounds (c := c) h
      omega
  unfold axisCentre
  omega

theorem axisCentre_unclamped {c window extent : Nat} (hlo : window / 2 ≤ c * 4096) (hhi : c * 4096 + (window - window / 2) ≤ extent) :
    axisCentre (axisOrigin c window extent) window = c := by
  rw [axisOrigin_unclamped hlo hhi, axisCentre]
  omega

/-! ## Pixels inside (R52) -/

/-- The centre of each of n pixels lies in the n steps from the origin. -/
theorem pixelCentre_bounds {o : Int} {step n i : Nat} (hs : 0 < step) (hi : i < n) :
    o ≤ pixelCentre o step i ∧ pixelCentre o step i < o + (n * step : Nat) := by
  have : i * step + step ≤ n * step := by
    rw [← Nat.succ_mul]
    exact Nat.mul_le_mul_right _ hi
  unfold pixelCentre
  omega

/-- So in a window that lies in the source every pixel is inside along the axis. -/
theorem pixelCentre_in_source {c n step extent i : Nat} (hs : 0 < step) (h : n * step ≤ extent) (hi : i < n) :
    0 ≤ pixelCentre (axisOrigin c (n * step) extent) step i ∧ pixelCentre (axisOrigin c (n * step) extent) step i < extent := by
  obtain ⟨ho, he⟩ := axisOrigin_bounds (c := c) h
  obtain ⟨hlo, hhi⟩ := pixelCentre_bounds (o := axisOrigin c (n * step) extent) hs hi
  omega

theorem Render.columnInside_iff {i : Nat} :
    r.columnInside i = true ↔ 0 ≤ r.columnCentre i ∧ r.columnCentre i < (r.ws * 65536 : Nat) := by
  simp [Render.columnInside]

theorem Render.rowInside_iff {j : Nat} : r.rowInside j = true ↔ 0 ≤ r.rowCentre j ∧ r.rowCentre j < (r.hs * 65536 : Nat) := by
  simp [Render.rowInside]

theorem Render.inside_iff {i j : Nat} : r.inside i j = true ↔ r.columnInside i = true ∧ r.rowInside j = true := by
  simp [Render.inside]

theorem Render.columnCentre_eq (r : Render) (i : Nat) : r.columnCentre i = r.originX + (i * r.step : Nat) + (r.step / 2 : Nat) := by
  unfold Render.columnCentre pixelCentre
  omega

theorem Render.rowCentre_eq (r : Render) (j : Nat) : r.rowCentre j = r.originY + (j * r.step : Nat) + (r.step / 2 : Nat) := by
  unfold Render.rowCentre pixelCentre
  omega

end Sys2Proof.Machine
end

section
/-! SUPPORT. The value of a pixel from its samples, its neighbours and the levels (R53 to R62). -/

namespace Sys2Proof.Machine

variable {r : Render}

/-! ## Samples (R53, R54) -/

theorem sampleAt_weight (x : Int) : (sampleAt x).2 = (x % 65536 / 256).toNat := by
  unfold sampleAt
  omega

theorem clampIndex_eq (n : Nat) (x : Int) : clampIndex x n = (max 0 (min x (n - 1))).toNat := by
  unfold clampIndex clampInt
  split <;> (try split) <;> omega

theorem clampIndex_lt {n : Nat} (hn : 0 < n) (x : Int) : clampIndex x n < n := by
  rw [clampIndex_eq]
  omega

/-! ## Interpolation (R55) -/

/-- Two values mixed by weights that add to 256 stay between the bounds of both. -/
theorem mix_bounds {a b f lo hi : Nat} (hf : f ≤ 256) (ha : lo ≤ a) (hb : lo ≤ b) (ha' : a ≤ hi) (hb' : b ≤ hi) :
    lo * 256 ≤ a * (256 - f) + b * f ∧ a * (256 - f) + b * f ≤ hi * 256 := by
  have whole (x : Nat) : x * 256 = x * (256 - f) + x * f := by rw [← Nat.mul_add, Nat.sub_add_cancel hf]
  rw [whole, whole]
  exact ⟨Nat.add_le_add (Nat.mul_le_mul_right _ ha) (Nat.mul_le_mul_right _ hb),
    Nat.add_le_add (Nat.mul_le_mul_right _ ha') (Nat.mul_le_mul_right _ hb')⟩

/-- A blend lies between the bounds of its four samples. -/
theorem blend_bounds {p00 p10 p01 p11 fx fy lo hi : Nat} (hx : fx ≤ 256) (hy : fy ≤ 256)
    (l00 : lo ≤ p00) (l10 : lo ≤ p10) (l01 : lo ≤ p01) (l11 : lo ≤ p11)
    (h00 : p00 ≤ hi) (h10 : p10 ≤ hi) (h01 : p01 ≤ hi) (h11 : p11 ≤ hi) :
    lo ≤ blend p00 p10 p01 p11 fx fy ∧ blend p00 p10 p01 p11 fx fy ≤ hi := by
  obtain ⟨topLo, topHi⟩ := mix_bounds hx l00 l10 h00 h10
  obtain ⟨bottomLo, bottomHi⟩ := mix_bounds hx l01 l11 h01 h11
  have := mix_bounds hy topLo bottomLo topHi bottomHi
  simp only [blend]
  omega

/-! ## Sharpening (R58, R59) -/

theorem before_eq {n i : Nat} (hi : i < n) : before i = clampIndex (i + -1) n := by
  rw [clampIndex_eq, before]
  omega

theorem after_eq {n i : Nat} (hi : i < n) : after n i = clampIndex (i + 1) n := by
  rw [clampIndex_eq, after]
  omega

theorem clampIndex_self {n i : Nat} (hi : i < n) : clampIndex (i + 0) n = i := by
  rw [clampIndex_eq]
  omega

/-- What the neighbour of pixel (i, j) at an offset enters the blur with: its position clamped into the target (R59). -/
def Render.neighbourAt (r : Render) (rd : Getter) (c i j : Nat) (dx dy : Int) : Nat :=
  r.neighbour rd c (clampIndex (i + dx) r.wp) (clampIndex (j + dy) r.hp)

theorem Render.blur_eq {rd : Getter} {c i j : Nat} (hi : i < r.wp) (hj : j < r.hp) :
    r.blur rd c i j =
      (4 * c
        + 2 * (r.neighbourAt rd c i j 0 (-1) + r.neighbourAt rd c i j 0 1 + r.neighbourAt rd c i j 1 0 + r.neighbourAt rd c i j (-1) 0)
        + (r.neighbourAt rd c i j 1 (-1) + r.neighbourAt rd c i j (-1) (-1) + r.neighbourAt rd c i j 1 1 + r.neighbourAt rd c i j (-1) 1)
        + 8) / 16 := by
  simp only [Render.neighbourAt, Render.blur, clampIndex_self, ← before_eq, ← after_eq, hi, hj]

theorem sharpenValue_le (c blur gain coring : Nat) : sharpenValue c blur gain coring ≤ 255 := by
  simp only [sharpenValue, clampByte_eq]
  omega

/-- A difference from the blur within the coring corrects nothing. -/
theorem sharpenValue_cored {c blur gain coring : Nat} (hc : c ≤ 255) (h : c ≤ blur + coring) (h' : blur ≤ c + coring) :
    sharpenValue c blur gain coring = c := by
  have : ((c : Int) - blur).natAbs ≤ coring := by omega
  simp only [sharpenValue, if_pos this, clampByte_eq, Int.sign_zero]
  omega

theorem sharpenValue_above {c blur gain coring : Nat} (h : blur + coring < c) :
    sharpenValue c blur gain coring = min 255 (c + ((c - blur - coring) * gain + 8) / 16) := by
  have far : ¬ ((c : Int) - blur).natAbs ≤ coring := by omega
  have sign : Int.sign ((c : Int) - blur) = 1 := Int.sign_eq_one_of_pos (by omega)
  have sign' : Int.sign ((c : Int) - blur - 1 * coring) = 1 := Int.sign_eq_one_of_pos (by omega)
  have size : ((c : Int) - blur - 1 * coring).natAbs = c - blur - coring := by omega
  simp only [sharpenValue, if_neg far, sign, sign', size, clampByte_eq]
  omega

theorem sharpenValue_below {c blur gain coring : Nat} (hc : c ≤ 255) (h : c + coring < blur) :
    sharpenValue c blur gain coring = c - ((blur - c - coring) * gain + 8) / 16 := by
  have far : ¬ ((c : Int) - blur).natAbs ≤ coring := by omega
  have sign : Int.sign ((c : Int) - blur) = -1 := Int.sign_eq_neg_one_of_neg (by omega)
  have sign' : Int.sign ((c : Int) - blur - -1 * coring) = -1 := Int.sign_eq_neg_one_of_neg (by omega)
  have size : ((c : Int) - blur - -1 * coring).natAbs = blur - c - coring := by omega
  simp only [sharpenValue, if_neg far, sign, sign', size, clampByte_eq]
  omega

/-! ## Levels (R62) -/

theorem stretchValue_le (b w out : Nat) : stretchValue (some (b, w)) out ≤ 255 := by
  simp only [stretchValue, clampByte_eq]
  omega

theorem stretchValue_black {b w out : Nat} (h : b < w) (ho : out ≤ b) : stretchValue (some (b, w)) out = 0 := by
  have : (((out : Int) - b) * 255 + (((w - b) / 2 : Nat) : Int)) / ((w : Int) - b) < 1 :=
    Int.ediv_lt_of_lt_mul (by omega) (by omega)
  simp only [stretchValue, clampByte_eq]
  omega

theorem stretchValue_white {b w out : Nat} (h : b < w) (ho : w ≤ out) : stretchValue (some (b, w)) out = 255 := by
  have : 255 ≤ (((out : Int) - b) * 255 + (((w - b) / 2 : Nat) : Int)) / ((w : Int) - b) :=
    Int.le_ediv_of_mul_le (by omega) (by omega)
  simp only [stretchValue, clampByte_eq]
  omega

theorem stretchValue_between {b w out : Nat} (h : b < w) (hb : b ≤ out) (hw : out ≤ w) :
    stretchValue (some (b, w)) out = ((out - b) * 255 + (w - b) / 2) / (w - b) := by
  have cast : (((out : Int) - b) * 255 + (((w - b) / 2 : Nat) : Int)) / ((w : Int) - b)
      = ((((out - b) * 255 + (w - b) / 2) / (w - b) : Nat) : Int) := by
    rw [Int.natCast_ediv ((out - b) * 255 + (w - b) / 2), Int.ofNat_sub h.le]
    congr 1
    omega
  have : ((out - b) * 255 + (w - b) / 2) / (w - b) < 256 := Nat.div_lt_of_lt_mul (by omega)
  simp only [stretchValue, cast, clampByte_eq]
  generalize ((out - b) * 255 + (w - b) / 2) / (w - b) = q at this
  omega

end Sys2Proof.Machine
end

section
/-! SUPPORT. The source bytes that a unit reads, and the pieces of a render (R54, R56, R64, R65). -/

namespace Sys2Proof.Machine

variable {r : Render}

/-! ## Reads (R54, R56, R65) -/

theorem Render.lumaAddr_mem {x y : Nat} (hx : x < r.ws) (hy : y < r.hs) :
    r.source ≤ r.lumaAddr x y ∧ r.lumaAddr x y < r.source + r.ws * r.hs := by
  have := pixel_lt hx hy
  unfold Render.lumaAddr
  omega

theorem Render.chromaAddr_mem {k y : Nat} (he : r.ws % 2 = 0) (hk : k < r.ws / 2) (hy : y < r.hs) :
    r.source + r.ws * r.hs ≤ r.chromaAddr k y ∧ r.chromaAddr k y + 1 < r.source + r.ws * r.hs + r.ws * r.hs := by
  have := pixel_lt (w := r.ws) (i := 2 * k + 1) (by omega) hy
  unfold Render.chromaAddr
  omega

/-- The luma of a pixel comes from the luma plane of the source. -/
theorem Render.mem_lumaReads {i j a : Nat} (hw : 0 < r.ws) (hh : 0 < r.hs) (h : a ∈ r.lumaReads i j) :
    r.source ≤ a ∧ a < r.source + r.ws * r.hs := by
  unfold Render.lumaReads at h
  split at h
  · simp only [Render.lumaTaps, List.mem_cons, List.not_mem_nil, or_false] at h
    rcases h with rfl | rfl | rfl | rfl <;> exact r.lumaAddr_mem (clampIndex_lt hw _) (clampIndex_lt hh _)
  · cases h

/-- The chroma of a pair comes from the chroma plane of the source. -/
theorem Render.mem_chromaReads {i j a : Nat} (he : r.ws % 2 = 0) (hw : 0 < r.ws) (hh : 0 < r.hs) (h : a ∈ r.chromaReads i j) :
    r.source + r.ws * r.hs ≤ a ∧ a < r.source + r.ws * r.hs + r.ws * r.hs := by
  have pair {x y : Int} {a : Nat}
      (h : a = r.chromaAddr (clampIndex x (r.ws / 2)) (clampIndex y r.hs)
        ∨ a = r.chromaAddr (clampIndex x (r.ws / 2)) (clampIndex y r.hs) + 1) :
      r.source + r.ws * r.hs ≤ a ∧ a < r.source + r.ws * r.hs + r.ws * r.hs := by
    have := r.chromaAddr_mem he (clampIndex_lt (n := r.ws / 2) (by omega) x) (clampIndex_lt hh y)
    omega
  unfold Render.chromaReads at h
  split at h
  · simp only [Render.chromaTaps, List.mem_flatMap, List.mem_cons, List.not_mem_nil, or_false] at h
    obtain ⟨b, rfl | rfl | rfl | rfl, h⟩ := h <;> exact pair h
  · cases h

theorem Part.reads_mem {p : Part} {a : Nat} (he : p.render.ws % 2 = 0) (hw : 0 < p.render.ws) (hh : 0 < p.render.hs) (h : a ∈ p.reads) :
    p.render.source ≤ a ∧ a < p.render.source + 2 * p.render.ws * p.render.hs := by
  rw [Nat.mul_assoc]
  simp only [Part.reads, List.mem_append, List.mem_flatMap] at h
  rcases h with ⟨q, -, h⟩ | ⟨j, -, i, -, h⟩
  · have := Render.mem_chromaReads he hw hh h
    omega
  · have := Render.mem_lumaReads hw hh h
    omega

/-- With a gain the luma of the whole margin within the target is read. -/
theorem Part.lumaReads_of_margin {p : Part} {i j a : Nat} (hg : p.render.gain ≠ 0) (hi : i < p.render.wp) (hj : j < p.render.hp)
    (left : p.col ≤ i + 1) (right : i ≤ p.col + p.cols) (above : p.row ≤ j + 1) (below : j ≤ p.row + p.rows)
    (h : a ∈ p.render.lumaReads i j) : a ∈ p.reads := by
  have hm : p.margin = 1 := if_neg hg
  exact List.mem_append_right _ (List.mem_flatMap.2
    ⟨j, mem_widened.2 (by omega), List.mem_flatMap.2 ⟨i, mem_widened.2 (by omega), h⟩⟩)

/-! ## Pieces (R64) -/

/-- Pixel (x, y) of the target lies in a piece. -/
def InPiece (w h n x y : Nat) : Prop :=
  (pieceArea w h n).1 ≤ x ∧ x < (pieceArea w h n).1 + (pieceArea w h n).2.1
    ∧ (pieceArea w h n).2.2.1 ≤ y ∧ y < (pieceArea w h n).2.2.1 + (pieceArea w h n).2.2.2

theorem div_lt_ceilDiv {x w d : Nat} (hd : 0 < d) (h : x < w) : x / d < ceilDiv w d := by
  rw [← Nat.not_le, ceilDiv_le_iff hd]
  have := Nat.div_mul_le_self x d
  omega

/-- The piece of a pixel is the one of its column of pieces and of its band. -/
theorem inPiece_iff {w h x y m : Nat} (hx : x < w) (hy : y < h) :
    InPiece w h m x y ↔ m = y / 8 * piecesAcross w + x / 1024 := by
  have across : x / 1024 < piecesAcross w := div_lt_ceilDiv (by decide) hx
  calc InPiece w h m x y ↔ m / piecesAcross w = y / 8 ∧ m % piecesAcross w = x / 1024 := by
        simp only [InPiece, pieceArea]
        omega
    _ ↔ m = y / 8 * piecesAcross w + x / 1024 := by
        rw [Nat.div_mod_unique (by omega), Nat.mul_comm, Nat.add_comm]
        omega

theorem piece_lt_pieceCount {w h x y : Nat} (hx : x < w) (hy : y < h) :
    y / 8 * piecesAcross w + x / 1024 < pieceCount w h :=
  pixel_lt (div_lt_ceilDiv (by decide) hx) (div_lt_ceilDiv (by decide) hy)

end Sys2Proof.Machine
end

section

open Sys2Proof Sys2Proof.Machine

/-- Settles O55: the two axes share the facts of one window, a pixel's value is the model's own with the clamps spelled out, and each pixel has
the piece of its column of pieces and of its band. -/
theorem rendersStayWithinSourceAndTarget : Obligations.RendersStayWithinSourceAndTarget := by
  refine ⟨fun r hws hws' hwe hhs hhs' hwp hwp' hwpe hhp hhp' => ?_, fun p00 p10 p01 p11 fx fy lo hi => blend_bounds,
    fun c blur gain coring => ⟨sharpenValue_le c blur gain coring, fun hc =>
      ⟨sharpenValue_cored hc, sharpenValue_above, sharpenValue_below hc⟩⟩,
    fun b w out h => ⟨rfl, stretchValue_le b w out, stretchValue_black h, stretchValue_white h, stretchValue_between h⟩⟩
  intro nearest
  have fit {n : Nat} := r.fitStep_le_iff (n := n) (by omega) (by omega)
  obtain ⟨coverW, coverH⟩ := fit.1 le_rfl
  have atLeast : 256 ≤ r.fitStep := by
    by_contra h
    have := (fit (n := 255)).1 (by omega)
    omega
  have tight : (r.fitStep - 1) * r.wp < r.ws * 65536 ∨ (r.fitStep - 1) * r.hp < r.hs * 65536 := by
    have := mt (fit (n := r.fitStep - 1)).2 (by omega)
    omega
  obtain ⟨stepLow, stepHigh, stepMin⟩ := Render.step_bounds atLeast
  have stepPos : 0 < r.step := by omega
  have evenWindow : r.wp * r.step % 2 = 0 := by rw [Nat.mul_mod, hwpe, Nat.zero_mul, Nat.zero_mod]
  refine ⟨⟨coverW, coverH, tight, atLeast, fit.2 (by omega), stepLow, stepHigh, stepMin, r.step_eq⟩, fun h => ?_, fun h => ?_, fun h => ?_,
    fun h => ?_, axisCentre_axisOrigin (by omega) (by omega), axisCentre_axisOrigin (by omega) (by omega),
    fun p rd i j hp hi hj => ?_, fun p hp => ⟨?_, ?_⟩, fun x y hx hy => ⟨_, piece_lt_pieceCount hx hy, fun m => inPiece_iff hx hy⟩⟩
  · obtain ⟨lo, hi⟩ := axisOrigin_bounds (c := r.cx) h
    exact ⟨axisOrigin_fits h, lo, hi, fun i hi => Render.columnInside_iff.2 (pixelCentre_in_source stepPos h hi), axisCentre_unclamped⟩
  · have : r.originX = ((r.ws * 65536 : Nat) - (r.wp * r.step : Nat)) / 2 := axisOrigin_wide h
    omega
  · obtain ⟨lo, hi⟩ := axisOrigin_bounds (c := r.cy) h
    exact ⟨axisOrigin_fits h, lo, hi, fun j hj => Render.rowInside_iff.2 (pixelCentre_in_source stepPos h hj), axisCentre_unclamped⟩
  · have : r.originY = ((r.hs * 65536 : Nat) - (r.hp * r.step : Nat)) / 2 := axisOrigin_wide h
    omega
  · -- with the centres, weights and clamps folded back into the model's, the values are the model's own but for the blur's neighbours
    subst hp
    simp only [← clampIndex_eq, ← sampleAt_weight, ← Render.columnCentre_eq, ← Render.rowCentre_eq]
    refine ⟨?_, rfl, fun k => rfl, ?_, rfl, fun k => rfl⟩
    · rw [Render.inside_iff, Render.columnInside_iff, Render.rowInside_iff, and_assoc]
    · rw [Render.sharpen, Render.blur_eq hi hj]
      rfl
  · subst hp
    exact fun a => Part.reads_mem hwe (by omega) (by omega)
  · subst hp
    exact fun hg i j hi hj left right above below a => Part.lumaReads_of_margin hg hi hj left right above below

end

section
/-! SUPPORT. The words APPLY_SETUP and TAKE_LAYOUT (R75, R168, R170). -/

namespace Sys2Proof.Machine

set_option Elab.async false

variable {s t : State} {w : Word} {rest : List Word}

/-- APPLY_SETUP is in hand under the mode in which it was taken, and the port waits for the record. -/
def State.setupAsked (s : State) (w : Word) : State :=
  { s with post.inHand := some w, post.handMode := s.control.mode, post.setupRead := .waiting }

theorem State.setupAsked_unchanged (s : State) (w : Word) : Unchanged [.fifo, .portReads] s (s.setupAsked w) := by
  intro p hp
  cases p <;> simp_all [same, State.setupAsked]

theorem State.wordTaken_feeder (s : State) (rest : List Word) : (s.wordTaken rest).feeder = s.feeder := by rw [State.wordTaken_eq]

/-- TAKE_LAYOUT, which sends nothing, marks the layout as posted, or is kept for the feeder (R72, R75). -/
theorem takeLayout_posts (h : s.feeder.layoutRead = .idle) : s.feederTakes .takeLayout = { s with feeder.posted := true } := if_pos h

theorem feederTakes_of_waiting (h : s.feeder.layoutRead ≠ .idle) (e : FeederEvent) :
    s.feederTakes e = { s with feeder.deferred := s.feeder.deferred ++ [e] } := if_neg h

end Sys2Proof.Machine
end

section

open Sys2Proof Sys2Proof.Machine

/-- Settles O14: APPLY_SETUP asks for its record and stays in hand, and TAKE_LAYOUT marks the layout, or is kept. -/
theorem setupAndLayoutWordsAreTaken : Obligations.SetupAndLayoutWordsAreTaken := by
  intro s w rest hm
  obtain ⟨hr, hb, ha⟩ := takesWords_of hm
  refine ⟨fun h => ?_, fun h => ?_⟩
  · have hx : exec .applySetup s = .next (s.closeWork
        (((s.wordTaken rest).setupAsked w).issue .post .post (.read .setup 0x200 []))) :=
      takeWord_of_holds (legal := anyArgument) h hr hb ha rfl
    have asked : ((s.wordTaken rest).setupAsked w).post =
        { s.post with fifo := rest, inHand := some w, handMode := s.control.mode, setupRead := .waiting } := by
      simp [State.setupAsked]
    refine ⟨_, hx, (s.wordTaken_took rest).of_same ?_ ?_, ?_, ?_, ?_, ?_, ?_⟩
    · rw [State.closeWork_post, State.issue_post, asked, State.wordTaken_post]
    · rw [State.closeWork_control, State.issue_control]
      rfl
    · rw [State.closeWork_post, State.issue_post, asked]
    · rw [State.closeWork_post, State.issue_post, asked]
    · rw [State.closeWork_post, State.issue_post, asked]
    · rw [State.closeWork_post, State.issue_post, asked]
    · exact ((s.wordTaken_sends rest).after (Sends.after .same (State.issue_sends _ _ _ _))).did
        (.comp (.comp (s.wordTaken_unchanged rest) (State.setupAsked_unchanged _ w) (c := [.fifo, .timer, .portReads]))
          (State.issue_unchanged _ _ _ _))
  · have hx : exec .takeLayout s = .next (s.closeWork ((s.wordTaken rest).feederTakes .takeLayout)) :=
      takeWord_of_holds (legal := anyArgument) h hr hb ha rfl
    have hu := takeLayout_unchanged (s.wordTaken rest)
    obtain ⟨took, hand⟩ := took_of_unchanged h hu
    have hf := s.wordTaken_feeder rest
    refine ⟨_, hx, took, hand, ?_, fun hl => ?_, fun hl => ?_, ?_⟩
    · rw [State.closeWork_feeder, ← hf]
      by_cases hl : (s.wordTaken rest).feeder.layoutRead = .idle
      · rw [takeLayout_posts hl]
      · rw [feederTakes_of_waiting hl]
    · rw [State.closeWork_feeder, takeLayout_posts (hf ▸ hl), hf]
      exact ⟨rfl, rfl⟩
    · rw [State.closeWork_feeder, feederTakes_of_waiting (hf ▸ hl), hf]
      exact ⟨rfl, rfl⟩
    · exact .quiet ((s.wordTaken_unchanged rest).comp hu)

end

section
/-! SUPPORT. The completion of a strip, and a strip that is faulted in a burst or at its completion (R71, R86, R100, R102). -/

namespace Sys2Proof.Machine

set_option Elab.async false

variable {s t x z : State} {u : EngineUnit} {changed : List Piece}

/-! ## The feeder as a whole -/

/-- The pieces that hold the feeder's fields. -/
abbrev feederPieces : List Piece := [.views, .layout, .strips, .raster, .lateness, .frameNumber, .stripCounts, .frameTurn]

/-- A change of no piece of the feeder leaves the feeder. -/
theorem Unchanged.feeder (h : Unchanged changed s t) (k : ∀ p ∈ feederPieces, p ∉ changed := by decide) : t.feeder = s.feeder := by
  have h1 := h .views (k _ (by simp))
  have h2 := h .layout (k _ (by simp))
  have h3 := h .strips (k _ (by simp))
  have h4 := h .raster (k _ (by simp))
  have h5 := h .lateness (k _ (by simp))
  have h6 := h .frameNumber (k _ (by simp))
  have h7 := h .stripCounts (k _ (by simp))
  have h8 := h .frameTurn (k _ (by simp))
  simp only [same] at h1 h2 h3 h4 h5 h6 h7 h8
  cases hs : s.feeder
  cases ht : t.feeder
  simp_all

/-! ## The strip's pixels (R71) -/

theorem length_rows (n w : Nat) (f : Nat → Nat → Nat) :
    ((List.range n).flatMap fun y => (List.range w).map fun x => f x y).length = n * w := by
  simp [List.length_flatMap]

/-- Row y of an image of `w` columns begins at y × w. -/
theorem getD_rows {n w x y : Nat} (f : Nat → Nat → Nat) (hx : x < w) (hy : y < n) :
    ((List.range n).flatMap fun y => (List.range w).map fun x => f x y).getD (y * w + x) 0 = f x y := by
  induction n with
  | zero => omega
  | succ n ih =>
    rw [List.range_succ, List.flatMap_append, List.flatMap_singleton]
    by_cases h : y < n
    · have : y * w + x < n * w := by nlinarith
      rw [List.getD_append _ _ _ _ (by rwa [length_rows])]
      exact ih h
    · obtain rfl : y = n := by omega
      rw [List.getD_append_right _ _ _ _ (by rw [length_rows]; omega), length_rows, Nat.add_sub_cancel_left]
      simp [hx]

/-- The pane found at a raster column is the one that covers it, where no other does. -/
theorem find_covering {parts : List Part} {p : Part} {x : Nat} (hp : p ∈ parts) (hx : p.rasterX ≤ x ∧ x < p.rasterX + p.cols)
    (h : ∀ q ∈ parts, q.rasterX ≤ x ∧ x < q.rasterX + q.cols → q = p) :
    (parts.find? fun q => decide (q.rasterX ≤ x) && decide (x < q.rasterX + q.cols)) = some p := by
  cases k : parts.find? fun q => decide (q.rasterX ≤ x) && decide (x < q.rasterX + q.cols) with
  | none => simpa [hx.1, hx.2] using List.find?_eq_none.1 k p hp
  | some q => rw [h q (List.mem_of_find?_eq_some k) (by simpa using List.find?_some k)]

/-- Where no pane covers a column, none is found. -/
theorem find_uncovered {parts : List Part} {x : Nat} (h : ∀ p ∈ parts, ¬ (p.rasterX ≤ x ∧ x < p.rasterX + p.cols)) :
    (parts.find? fun q => decide (q.rasterX ≤ x) && decide (x < q.rasterX + q.cols)) = none :=
  List.find?_eq_none.2 fun p hp => by simpa using h p hp

/-! ## A strip completed (R70, R100) -/

theorem State.stripDone_feeder (s : State) (u : EngineUnit) (b : Bool) :
    (s.stripDone u b).feeder =
      { s.feeder with
        request := none
        bufferA := if b then s.feeder.bufferA
          else stripImage u.parts (s.getter u) s.feeder.layout.background (rasterSize s.feeder.outputMode).w
        bufferB := if b then stripImage u.parts (s.getter u) s.feeder.layout.background (rasterSize s.feeder.outputMode).w
          else s.feeder.bufferB } := by
  cases b <;> rfl

section
variable {k : Nat} {b : Bool} (hu : s.engine.unit = some u) (hw : u.work = .strip k b)
include hu hw

theorem exec_stripComplete_done (hr : s.finishReads u = (t, true)) :
    exec .stripComplete s = .next (s.closeWork (t.stripDone u b).dropUnit) := by
  show execStripComplete s = _
  unfold execStripComplete
  simp only [hu, hw, hr]

theorem exec_stripComplete_faulted (hr : s.finishReads u = (t, false)) :
    exec .stripComplete s = .next (s.closeWork (t.stripFaulted b).dropUnit) := by
  show execStripComplete s = _
  unfold execStripComplete
  simp only [hu, hw, hr]

end

/-! ## A strip faulted (R86, R102) -/

theorem stripFaulted_whole (s : State) (b : Bool) :
    (s.stripFaulted b).feeder =
      { s.feeder with
        request := none, faults := min 4294967295 (s.feeder.faults + 1)
        bufferA := if b then s.feeder.bufferA else .solid s.feeder.layout.background
        bufferB := if b then .solid s.feeder.layout.background else s.feeder.bufferB } := by
  cases b <;> rfl

/-- The end of a unit does not make the test of R187 hold where a capture or a job keeps the part up, or the part does not shut down. -/
theorem shutdownTest_of_waitsOn (h : s.staysUp) (hu : Unchanged changed s t) (hw : WaitsOn s t)
    (k : ∀ p ∈ [Piece.mode, .announcements, .frameTurn, .context, .runningJob], p ∉ changed := by decide) : t.shutdownTest = t := by
  rcases h with h | h
  · have h1 : t.control.mode = s.control.mode := hu .mode (k _ (by simp))
    have h2 : t.control.announcements = s.control.announcements := hu .announcements (k _ (by simp))
    have h3 := hu .frameTurn (k _ (by simp))
    have h4 : t.jobs.running = s.jobs.running := hu .runningJob (k _ (by simp))
    have he : t.entriesDone = s.entriesDone := by simp [State.entriesDone, h2, h3.2.2]
    unfold State.shutdownTest
    refine if_neg fun ⟨k1, k2, _, k4, _, k6⟩ => ?_
    rcases h with h | h | h | h
    · exact h (h1.symm.trans k1)
    · exact Bool.false_ne_true (h.symm.trans (he.symm.trans k2))
    · exact h (h4 ▸ k4)
    · exact Bool.false_ne_true ((hw _ h).symm.trans k6)
  · exact shutdownTest_of_upAfterJob h hu hw fun p hp => k p (by
      simp only [List.mem_cons, List.not_mem_nil, or_false] at hp ⊢
      tauto)

/-- The error reported for a unit that started from s0, and the strip faulted by it. -/
abbrev State.stripLost (s0 : State) (b : Bool) (v k : Nat) : State := ((s0.counted k).reportUncorrectable .engine v).stripFaulted b

theorem State.stripLost_unchanged (s0 : State) (b : Bool) (v k : Nat) :
    Unchanged [.errors, .cause, .raised, .records, .arbiter, .strips, .stripCounts] s0 (s0.stripLost b v k) :=
  .comp (.comp (s0.counted_unchanged k) (State.reportUncorrectable_unchanged _ .engine v)
    (c := [.errors, .cause, .raised, .records, .arbiter])) (State.stripFaulted_unchanged _ b)

theorem State.stripLost_waitsOn (s0 : State) (b : Bool) (v k : Nat) : WaitsOn s0 (s0.stripLost b v k) :=
  (WaitsOn.of_unchanged (s0.counted_unchanged k)).trans
    ((WaitsOn.trans .same (State.raise_waitsOn _ _ _ _ _ _)).trans (.of_unchanged (State.stripFaulted_unchanged _ b)))

/-- The reads of a strip meet an uncorrectable word in a burst, or at the completion: either way the unit is gone. -/
theorem stripFault_exec {cmd : Instr} {n v k : Nat} {b : Bool} (h : s.faultsAt u .stripComplete cmd v k) (hw : u.work = .strip n b)
    (hup : cmd = .stripComplete ∨ s.staysUp) :
    ∃ s0, (s0 = s ∨ s0 = s.atBurst) ∧ ∃ z, exec cmd s = .next (s.closeWork z) ∧ UnitGone (s0.stripLost b v k) z := by
  obtain ⟨hb, hu, ⟨rfl, hn, hmin, rfl⟩ | ⟨e, g, rfl, hg, hq, hwr, hm, h1, h2, hbad, rfl⟩⟩ := h
  · refine ⟨s, .inl rfl, _, ?_, State.dropUnit_gone _⟩
    exact exec_stripComplete_faulted hu hw (finishReads_fault hb hn hmin)
  · have hl : s.atBurst.load .engine e.addr e.len =
        ((s.atBurst.counted (s.weakAmong (e.addr / 4) (v - e.addr / 4))).reportUncorrectable .engine v, none) := by
      unfold State.load
      rw [checkWords_fault (s := s.atBurst) hb h1 (by omega) hbad]
      rfl
    have hup' : s.atBurst.staysUp := hup.resolve_left Instr.noConfusion
    have gone := State.dropUnit_gone (s.atBurst.stripLost b v (s.weakAmong (e.addr / 4) (v - e.addr / 4)))
    have test := shutdownTest_of_waitsOn hup' ((s.atBurst.stripLost_unchanged b v _).comp gone.1
      (c := [.errors, .cause, .raised, .records, .arbiter, .strips, .stripCounts, .unit]))
      ((s.atBurst.stripLost_waitsOn b v _).trans (.of_unchanged gone.1))
    refine ⟨s.atBurst, .inr rfl, _, exec_engineBurst hg hq hu hm rfl, ?_⟩
    have burst : s.atBurst.engineBurst u e = (s.atBurst.stripLost b v (s.weakAmong (e.addr / 4) (v - e.addr / 4))).dropUnit := by
      unfold State.engineBurst
      rw [if_neg (by simp [hwr]), hl]
      dsimp only
      unfold State.faultUnit
      rw [hw]
      exact test
    rw [burst]
    exact gone.counted _

theorem State.atBurst_unchanged (s : State) : Unchanged [.unit] s s.atBurst := by
  intro p hp
  cases p <;> simp_all [same, State.atBurst]

end Sys2Proof.Machine
end

section

open Sys2Proof Sys2Proof.Machine

/-- Settles O54: the completion by the reads left to the strip, and the fault in a burst as at the completion. -/
theorem stripsCompleteOrFault : Obligations.StripsCompleteOrFault := by
  intro s u k b hu hw width kept buffer
  refine ⟨fun clean => ?_, fun cmd w weak fault up => ?_⟩
  · have hx : exec .stripComplete s = .next (s.closeWork (s.stripDone u b).dropUnit) :=
      exec_stripComplete_done hu hw (finishReads_clean clean)
    have done := s.stripDone_unchanged u b
    have gone := State.dropUnit_gone (s.stripDone u b)
    obtain ⟨did, took⟩ := gone.did (changed := [.strips, .unit]) (.of_unchanged done) (done.mono) (by decide)
    have hf : (s.closeWork (s.stripDone u b).dropUnit).feeder = _ :=
      ((State.closeWork_feeder _ _).trans gone.1.feeder).trans (s.stripDone_feeder u b)
    refine ⟨_, hx, ?_, took, ?_, ⟨_, _, ?_, length_rows 8 width (stripLuma u.parts (s.getter u) s.feeder.layout.background),
      length_rows 8 width (stripChroma u.parts (s.getter u) s.feeder.layout.background), fun x y hxw hy => ?_⟩, did⟩
    · rw [hf]
    · show _ ∧ _ ∧ _ ∧ _
      rw [hf]
      exact ⟨rfl, rfl, rfl, by cases b <;> rfl⟩
    · show (if b then _ else _) = _
      rw [hf]
      cases b <;> rfl
    · rw [getD_rows _ hxw hy, getD_rows _ hxw hy]
      unfold stripLuma stripChroma
      refine ⟨fun none => ?_, fun p hp inp only => ?_⟩
      · rw [find_uncovered none]
        exact ⟨rfl, rfl⟩
      · rw [find_covering hp inp only]
        exact ⟨rfl, rfl⟩
  · obtain ⟨s0, hs, z, hx, gone⟩ := stripFault_exec fault hw up
    have h0 : Unchanged [.unit] s s0 := by
      rcases hs with rfl | rfl
      · exact .refl _
      · exact s.atBurst_unchanged
    have sent : Sends [] [(.memory, .memoryFault, 1, 4 * w, min 4294967295 (s.port.uncorrectable + 1))] s (s0.stripLost b w weak) := by
      have he : (s0.counted weak).port.uncorrectable = s.port.uncorrectable := by rcases hs with rfl | rfl <;> rfl
      rw [← he]
      exact ((Sends.of_unchanged (h0.comp (s0.counted_unchanged weak) (c := [.unit, .errors]))).after
        (State.reportUncorrectable_sends _ .engine w)).before (.of_unchanged (State.stripFaulted_unchanged _ b))
    obtain ⟨did, took⟩ := gone.did (changed := [.strips, .stripCounts, .errors, .cause, .unit]) sent
      (h0.comp (s0.stripLost_unchanged b w weak)) (by decide)
    obtain ⟨reported, count⟩ := faultReported_of (t := s.closeWork z) (h0 .errors (by decide)) (h0 .cause (by decide))
      (((State.stripFaulted_unchanged _ b).comp gone.1 (c := [.strips, .stripCounts, .unit, .arbiter])).comp (s.closeWork_unchanged z)
        (c := [.strips, .stripCounts, .unit, .arbiter, .raised, .context, .runningJob, .scan, .records])) (by decide) (by decide)
    have before : ((s0.counted weak).reportUncorrectable .engine w).feeder = s.feeder :=
      ((h0.comp (s0.counted_unchanged weak) (c := [.unit, .errors])).comp (State.reportUncorrectable_unchanged _ .engine w)
        (c := [.unit, .errors, .cause, .raised, .records, .arbiter])).feeder
    have hf : (s.closeWork z).feeder = _ := ((State.closeWork_feeder _ _).trans gone.1.feeder).trans (stripFaulted_whole _ b)
    rw [before] at hf
    refine ⟨_, hx, ?_, took, ?_, ?_, ?_, ?_, reported, ?_⟩
    · rw [hf]
    · show _ ∧ _ ∧ _ ∧ _
      rw [hf]
      exact ⟨rfl, rfl, rfl, by cases b <;> rfl⟩
    · show (if b then _ else _) = _
      rw [hf]
      cases b <;> rfl
    · rw [hf]
    · rw [hf]
    · rw [count]
      exact did

end

section
/-! SUPPORT. The scan-out of a strip: carried, blank or underrun, and the request of the next (R69, R70, R85, R99). -/

namespace Sys2Proof.Machine

set_option Elab.async false

variable {s t x y z : State} {k : Nat}

/-! ## The strip requested, withdrawn, underrun -/

/-- A latched pane with a source lies on row 8k of the raster (R71). -/
theorem crossesAny_iff (l : List LatchedPane) (k : Nat) :
    (l.any fun p => p.crosses k) = true ↔ ∃ p ∈ l, p.y ≤ 8 * k ∧ 8 * k < p.y + p.h := by
  simp [LatchedPane.crosses]

/-- The feeder as it requests strip k, or fills its buffer at once (R70, R71). -/
def Feeder.requested (f : Feeder) (k : Nat) : Feeder :=
  let asked := f.latched.any fun p => p.crosses k
  { f with
    request := if asked then some ⟨k, !f.scanning⟩ else f.request
    bufferA := if asked || !f.scanning then f.bufferA else .solid f.layout.background
    bufferB := if asked || f.scanning then f.bufferB else .solid f.layout.background }

theorem State.requestStrip_feeder (s : State) (k : Nat) : (s.requestStrip k).feeder = s.feeder.requested k := by
  unfold State.requestStrip Feeder.requested
  dsimp only
  by_cases h : (s.feeder.latched.any fun p => p.crosses k) = true
  · simp [h]
  · rw [if_neg h]
    unfold State.setBuffer
    cases hs : s.feeder.scanning <;> simp [hs, h]

/-- The next strip of a pane with a source is requested into the buffer just freed. -/
theorem Feeder.requested_crossed {f : Feeder} {k : Nat} (h : ∃ p ∈ f.latched, p.y ≤ 8 * k ∧ 8 * k < p.y + p.h) :
    f.requested k = { f with request := some ⟨k, !f.scanning⟩ } := by
  simp [Feeder.requested, (crossesAny_iff f.latched k).2 h]

/-- A strip that crosses no pane with a source is background at once. -/
theorem Feeder.requested_uncrossed {f : Feeder} {k : Nat} (h : ¬ ∃ p ∈ f.latched, p.y ≤ 8 * k ∧ 8 * k < p.y + p.h) :
    f.requested k =
      { f with
        bufferA := if f.scanning then .solid f.layout.background else f.bufferA
        bufferB := if f.scanning then f.bufferB else .solid f.layout.background } := by
  have h' : (f.latched.any fun p => p.crosses k) = false := Bool.eq_false_iff.2 (mt (crossesAny_iff _ _).1 h)
  cases hs : f.scanning <;> simp [Feeder.requested, h', hs]

theorem State.abandonStrip_feeder (s : State) : s.abandonStrip.feeder = s.feeder := s.abandonStrip_unchanged.feeder

theorem State.withdrawStrip_feeder (s : State) : s.withdrawStrip.feeder = { s.feeder with request := none } := by
  unfold State.withdrawStrip
  split
  · rw [State.abandonStrip_feeder]
  next h => rw [← h]

theorem State.underrun_feeder (s : State) :
    s.underrun.feeder =
      { s.feeder with
        request := none, underruns := min 4294967295 (s.feeder.underruns + 1), late := true, scanning := !s.feeder.scanning
        display := .solid s.feeder.layout.background } := by
  unfold State.underrun
  dsimp only
  rw [State.withdrawStrip_feeder]
  rfl

/-! ## The unit that is abandoned (R99) -/

/-- The engine has abandoned the strip that it worked on; work of another kind goes on. -/
def UnitAbandoned (s z : State) : Prop :=
  ((s.engine.unit = none ∨ ∃ u k b, s.engine.unit = some u ∧ u.work = .strip k b) → z.engine.unit = none)
    ∧ ∀ u, s.engine.unit = some u → (∀ k b, u.work ≠ .strip k b) → z.engine.unit = some u

theorem State.abandonStrip_unit (s : State) : UnitAbandoned s s.abandonStrip := by
  unfold State.abandonStrip UnitAbandoned
  split
  next u h =>
    rw [h]
    split
    next i b hw => exact ⟨fun _ => State.dropUnit_unit s, fun v hv hn => absurd hw ((Option.some.inj hv) ▸ hn i b)⟩
    next hw =>
      refine ⟨?_, fun v hv _ => h.trans hv⟩
      rintro (k | ⟨v, i, b, hv, k⟩)
      · exact absurd k nofun
      · exact absurd ((Option.some.inj hv) ▸ k) (hw i b)
  next h =>
    simp [h]

theorem UnitAbandoned.before (h : UnitAbandoned s y) (k : z.engine = y.engine := by rfl) : UnitAbandoned s z := by
  rwa [UnitAbandoned, k]

theorem UnitAbandoned.after (h : UnitAbandoned y z) (k : y.engine = s.engine := by rfl) : UnitAbandoned s z := by
  rwa [UnitAbandoned, ← k]

theorem State.withdrawStrip_unit (h : s.feeder.request.isSome = true) : UnitAbandoned s s.withdrawStrip := by
  unfold State.withdrawStrip
  split
  · exact (State.abandonStrip_unit _).after
  next hr =>
    rw [hr] at h
    exact absurd h nofun

theorem UnitAbandoned.strip (h : UnitAbandoned s z) (s0 : State) : StripAbandoned s (s0.closeWork z) :=
  ⟨fun k => s0.closeWork_tookNext (h.1 k), fun u hu k => s0.closeWork_kept (h.2 u hu k)⟩

/-! ## The beginning of a scan-out (R69, R70, R85) -/

theorem beginScanout_blank (h : ¬ (s.feeder.view = .live ∧ s.feeder.liveFrame = true)) :
    s.beginScanout = { s with feeder.display := .solid ⟨16, 128, 128⟩ } := if_neg h

theorem beginScanout_carried (hv : s.feeder.view = .live) (hl : s.feeder.liveFrame = true) (hr : s.feeder.request = none) :
    s.beginScanout = { s with
      feeder.scanning := !s.feeder.scanning, feeder.display := if s.feeder.scanning then s.feeder.bufferA else s.feeder.bufferB } := by
  unfold State.beginScanout
  rw [if_pos ⟨hv, hl⟩, hr]
  cases h : s.feeder.scanning <;> simp [Feeder.buffer]

theorem beginScanout_underrun (hv : s.feeder.view = .live) (hl : s.feeder.liveFrame = true) (hr : s.feeder.request.isSome = true) :
    s.beginScanout = s.underrun := by
  unfold State.beginScanout
  rw [if_pos ⟨hv, hl⟩, if_pos hr]

/-! ## The scan-out of a strip that is not the last -/

theorem stripScanout_blank (hk : k + 1 < stripCount s.feeder.outputMode) (h : ¬ (s.feeder.view = .live ∧ s.feeder.liveFrame = true)) :
    s.stripScanout k = { s with feeder.display := .solid ⟨16, 128, 128⟩ } := by
  unfold State.stripScanout
  rw [if_pos hk, beginScanout_blank h]
  exact if_neg h

/-- In a frame of LIVE the next strip is requested as the strip's scan-out has begun. -/
theorem stripScanout_live (hk : k + 1 < stripCount s.feeder.outputMode) (hv : s.feeder.view = .live) (hl : s.feeder.liveFrame = true) :
    s.stripScanout k = s.beginScanout.requestStrip (k + 1) := by
  unfold State.stripScanout
  rw [if_pos hk]
  refine if_pos ⟨?_, ?_⟩
  · exact (s.beginScanout_unchanged .views (by decide)).2.2.1.trans hv
  · by_cases h : s.feeder.request.isSome = true
    · rw [beginScanout_underrun hv hl h, State.underrun_feeder]
      exact hl
    · rw [beginScanout_carried hv hl (by simpa using h)]
      exact hl

/-- The scan-out comes to the feeder where the raster has reached its strip. -/
theorem exec_scanout (hon : s.feeder.rasterOn = true) (hn : s.feeder.nextStrip = k) (hk : k + 1 < s.frameStrips) :
    exec (.stripScanoutStart k) s = .next (s.closeWork ((s.moveRaster (k + 1)).feederTakes (.scanout k))) :=
  if_pos ⟨by simp [State.rasterAt, hon, hn], s.frameStrips_eq ▸ hk⟩

theorem exec_scanout_disregarded (h : s.feeder.rasterOn = false ∨ s.feeder.nextStrip ≠ k ∨ s.frameStrips ≤ k + 1) :
    exec (.stripScanoutStart k) s = .next s := by
  refine if_neg fun ⟨ha, hk⟩ => ?_
  simp only [State.rasterAt, Bool.and_eq_true, decide_eq_true_eq] at ha
  rcases h with h | h | h
  · exact Bool.false_ne_true (h.symm.trans ha.1)
  · exact h ha.2
  · exact absurd hk (Nat.not_lt.2 (s.frameStrips_eq ▸ h))

theorem feederTakes_of_idle (h : s.feeder.layoutRead = .idle) (e : FeederEvent) : s.feederTakes e = s.feederEvent e := if_pos h

/-- With no layout read the frame has the strips of the output mode in force. -/
theorem frameStrips_of_idle (h : s.feeder.layoutRead = .idle) : s.frameStrips = stripCount s.feeder.outputMode := by
  rw [s.frameStrips_eq, Feeder.rasterMode, if_pos h]

end Sys2Proof.Machine
end

section

open Sys2Proof Sys2Proof.Machine

/-- Settles O49: the raster's next strip is blank, carried or underrun, and in a frame of LIVE its successor is requested. -/
theorem stripsAreScannedOutAndRequested : Obligations.StripsAreScannedOutAndRequested := by
  intro s k strips b requested
  refine ⟨exec_scanout_disregarded, fun hon hn hk => ?_⟩
  have hx := exec_scanout hon hn hk
  have moved := s.moveRaster_unchanged (k + 1)
  refine ⟨fun hr => ?_, fun hr => ?_⟩
  · rw [feederTakes_of_waiting (s := s.moveRaster (k + 1)) hr] at hx
    refine ⟨_, hx, ?_, ?_, ?_, ?_, .quiet (.comp moved (b := [.frameTurn]) fun p hp => ?_)⟩
    any_goals rw [State.closeWork_feeder]; rfl
    cases p <;> simp_all [same]
  rw [feederTakes_of_idle (s := s.moveRaster (k + 1)) hr] at hx
  have hk' : k + 1 < stripCount (s.moveRaster (k + 1)).feeder.outputMode := by
    rwa [show strips = _ from frameStrips_of_idle hr] at hk
  refine ⟨fun hv => ?_, fun hv hl => ?_⟩
  · have hv' : ¬ (s.feeder.view = .live ∧ s.feeder.liveFrame = true) := by
      rintro ⟨h1, h2⟩
      rcases hv with hv | hv
      · exact hv h1
      · exact Bool.false_ne_true (hv.symm.trans h2)
    rw [show (s.moveRaster (k + 1)).feederEvent (.scanout k) = _ from stripScanout_blank hk' hv'] at hx
    refine ⟨_, hx, ?_, .quiet (.comp moved (b := [.strips]) fun p hp => ?_)⟩
    · rw [State.closeWork_feeder]
      rfl
    · cases p <;> simp_all [same]
  rw [show (s.moveRaster (k + 1)).feederEvent (.scanout k) = _ from stripScanout_live hk' hv hl] at hx
  have next {x : State} {f : Feeder} (hf : x.feeder = f) (hr : f.request = none) (hs : f.scanning = !b)
      (ha : f.bufferA = s.feeder.bufferA) (hb : f.bufferB = s.feeder.bufferB) (hl : f.latched = s.feeder.latched)
      (hg : f.layout = s.feeder.layout) : requested (s.closeWork (x.requestStrip (k + 1))) := by
    show if _ then _ else _
    rw [State.closeWork_feeder, State.requestStrip_feeder, hf, ← hl]
    split
    next h =>
      rw [Feeder.requested_crossed h, hs]
      exact ⟨by simp, ha, hb⟩
    next h =>
      rw [Feeder.requested_uncrossed h, hs, hg, ha, hb]
      exact ⟨hr, by cases b <;> rfl, by cases b <;> rfl⟩
  refine ⟨fun hq => ?_, fun q hq => ?_⟩
  · rw [beginScanout_carried (s := s.moveRaster (k + 1)) hv hl hq] at hx
    refine ⟨_, hx, ?_, ?_, ?_, next rfl hq rfl rfl rfl rfl rfl, ?_, .quiet (.comp (.comp moved (b := [.strips]) (c := [.raster, .strips])
      fun p hp => ?_) (State.requestStrip_unchanged _ _))⟩
    any_goals rw [State.closeWork_feeder, State.requestStrip_feeder]; rfl
    cases p <;> simp_all [same]
  · have hq' : (s.moveRaster (k + 1)).feeder.request.isSome = true := by
      show s.feeder.request.isSome = true
      rw [hq]
      rfl
    rw [beginScanout_underrun (s := s.moveRaster (k + 1)) hv hl hq'] at hx
    have under := (s.moveRaster (k + 1)).underrun_unchanged
    have gone : UnitAbandoned s ((s.moveRaster (k + 1)).underrun.requestStrip (k + 1)) :=
      ((State.withdrawStrip_unit hq').after).before ((State.requestStrip_unchanged _ _) .unit (by decide))
    have did : Unchanged [.raster, .strips, .lateness, .stripCounts, .unit, .arbiter] s
        ((s.moveRaster (k + 1)).underrun.requestStrip (k + 1)) :=
      .comp (.comp moved under (c := [.raster, .strips, .lateness, .stripCounts, .unit, .arbiter])) (State.requestStrip_unchanged _ _)
    have hf : (s.closeWork ((s.moveRaster (k + 1)).underrun.requestStrip (k + 1))).feeder = _ :=
      ((State.closeWork_feeder _ _).trans (State.requestStrip_feeder _ _)).trans
        (congrArg (Feeder.requested · (k + 1)) (State.underrun_feeder _))
    refine ⟨_, hx, ?_, ?_, ?_, next (State.underrun_feeder _) rfl rfl rfl rfl rfl rfl, ?_, ?_, ?_, ?_, ?_, ?_, ?_, ?_, gone.strip s,
      (Sends.of_unchanged did).did did.mono⟩
    case refine_8 =>
      rw [hf]
      exact hl
    all_goals rw [hf]; rfl

end

section
/-! SUPPORT. The frame turn: the output mode, the zoom ramps and the counted frame (R68, R69, R72, R73, R83, R176, R185, R187). -/

namespace Sys2Proof.Machine

set_option Elab.async false

variable {s t x y : State} {changed : List Piece} {m : Nat}

/-! ## The output mode and the ramps -/

/-- The layout after step 3 of R72: the default layout of the raster where the output mode changes (R68, R91). -/
def Feeder.layoutIn (f : Feeder) (m : Nat) : Layout := if f.outputMode = m then f.layout else defaultLayout (rasterSize m)

theorem State.readOutputMode_feeder (s : State) (m : Nat) :
    (s.readOutputMode m).feeder = { s.feeder with outputMode := m, layout := s.feeder.layoutIn m } := by
  unfold State.readOutputMode Feeder.layoutIn
  split
  next h => rw [← h]
  next => rfl

theorem rasterSize_eq (m : Nat) :
    rasterSize m = if m = 0 then ⟨1280, 720⟩ else if m = 1 then ⟨1920, 1080⟩ else ⟨1920, 1200⟩ := by
  rcases m with _ | _ | m <;> rfl

/-- One step of a ramp, by its clamp at the target (R83). -/
theorem rampStep_eq (current target rate : Nat) :
    rampStep current target rate =
      if rate = 0 then target else if current ≤ target then min target (current + rate) else max target (current - rate) := by
  unfold rampStep
  split <;> [rfl; split <;> omega]

theorem stepRamps_eq (s : State) : s.stepRamps = { s with feeder.layout := rampedLayout s.feeder.layout } := by
  have h (p : Pane) : p.ramp = { p with current :=
      if p.rate = 0 then p.target
      else if p.current ≤ p.target then min p.target (p.current + p.rate) else max p.target (p.current - p.rate) } :=
    congrArg (fun c => { p with current := c }) (rampStep_eq _ _ _)
  unfold State.stepRamps rampedLayout
  simp only [funext h]

/-! ## The counted frame -/

/-- Where no holdoff is due, the timer of the moderation counts the frame, and may fall due (R176). -/
theorem countHoldoff_of (h : s.post.holdoffDue = false) :
    s.countHoldoff = { s with
      post.timer := s.post.timer.map (· + 1)
      post.holdoffDue := s.post.timer.any fun x => decide (s.post.setup.holdoff ≤ x + 1) } := by
  have hr : s.resolveHoldoff = s := by
    unfold State.resolveHoldoff
    exact if_neg (by simp [h])
  unfold State.countHoldoff
  dsimp only
  rw [hr]
  split
  next ht => simp [ht]
  next ht =>
    rw [ht, Option.any_none, Option.map_none, ← h, ← ht]

/-- The frame is numbered, with its fields written, before the timers count it. -/
def State.frameNumbered (s : State) : State :=
  { s.issueWrite .feeder .post [(0x20, s.frameFields ((s.feeder.frameNumber + 1) % 4294967296))] with
    feeder.frameNumber := (s.feeder.frameNumber + 1) % 4294967296 }

theorem State.countFrame_eq (s : State) : s.countFrame = s.frameNumbered.countHoldoff.countReaction := rfl

theorem State.frameNumbered_feeder (s : State) :
    s.frameNumbered.feeder = { s.feeder with frameNumber := (s.feeder.frameNumber + 1) % 4294967296 } := by
  unfold State.frameNumbered
  simp

theorem State.frameNumbered_post (s : State) : s.frameNumbered.post = s.post := by
  unfold State.frameNumbered
  simp

theorem State.frameNumbered_unchanged (s : State) : Unchanged [.records, .arbiter, .frameNumber] s s.frameNumbered := by
  refine (s.issueWrite_unchanged .feeder .post [(0x20, s.frameFields ((s.feeder.frameNumber + 1) % 4294967296))]).comp
    (b := [.frameNumber]) fun p hp => ?_
  cases p <;> simp_all [same, State.frameNumbered]

section
variable (h : s.post.holdoffDue = false)
include h

theorem countFrame_of :
    s.countFrame = { s.frameNumbered with post := { s.post with
      timer := s.post.timer.map (· + 1)
      holdoffDue := s.post.timer.any fun x => decide (s.post.setup.holdoff ≤ x + 1) } }.countReaction := by
  rw [s.countFrame_eq, countHoldoff_of (by rwa [s.frameNumbered_post]), s.frameNumbered_post]

theorem countFrame_feeder : s.countFrame.feeder = { s.feeder with frameNumber := (s.feeder.frameNumber + 1) % 4294967296 } := by
  rw [countFrame_of h]
  exact s.frameNumbered_feeder

theorem countFrame_sends : Sends [writeOf 0x20 (s.frameFields ((s.feeder.frameNumber + 1) % 4294967296))] [] s s.countFrame := by
  rw [countFrame_of h]
  exact (s.issueWrite_sends .feeder .post [(0x20, s.frameFields ((s.feeder.frameNumber + 1) % 4294967296))]).before
    (.same rfl (congrArg PostPort.raised s.frameNumbered_post).symm rfl)

theorem countFrame_changes : Unchanged [.records, .arbiter, .frameNumber, .moderation, .timer, .safety] s s.countFrame := by
  rw [countFrame_of h]
  refine .comp (s.frameNumbered_unchanged.comp (b := [.moderation]) (c := [.records, .arbiter, .frameNumber, .moderation])
    fun p hp => ?_) (State.countReaction_unchanged _)
  cases p <;> simp_all [same, State.frameNumbered_post]

/-- The frame is counted: its number, and the timers of the moderation and of mode control (R73, R176, R185, R187). -/
theorem countFrame_counted : Counted s s.countFrame := by
  have hc : s.frameNumbered.control = s.control := by simp [State.frameNumbered]
  have hf := countFrame_feeder h
  rw [countFrame_of h] at hf ⊢
  refine ⟨by rw [hf], rfl, ?_, rfl, ?_, ?_, ?_, ?_, ?_, ?_⟩ <;> simp only [State.countReaction, hc]
  rfl

end

theorem Counted.after (h : Unchanged changed s x) (c : Counted x t)
    (k : ∀ p ∈ [Piece.frameNumber, .moderation, .timer, .safety, .mode, .setup], p ∉ changed := by decide) : Counted s t := by
  have h1 := h .frameNumber (k _ (by simp))
  have h2 := h .moderation (k _ (by simp))
  have h3 := h .timer (k _ (by simp))
  have h4 := h .safety (k _ (by simp))
  have h5 := h .mode (k _ (by simp))
  have h6 := h .setup (k _ (by simp))
  simp only [same] at h1 h2 h3 h4 h5 h6
  simpa only [Counted, h1, h2, h3, h4, h5, h6] using c

theorem Counted.before (c : Counted s x) (h : Unchanged changed x t)
    (k : ∀ p ∈ [Piece.frameNumber, .moderation, .timer, .safety], p ∉ changed := by decide) : Counted s t := by
  have h1 := h .frameNumber (k _ (by simp))
  have h2 := h .moderation (k _ (by simp))
  have h3 := h .timer (k _ (by simp))
  have h4 := h .safety (k _ (by simp))
  simp only [same] at h1 h2 h3 h4
  simpa only [Counted, h1, h2, h3, h4] using c

/-! ## The frame turn -/

theorem exec_turn_disregarded (h : s.feeder.rasterOn = false ∨ s.feeder.nextStrip + 1 ≠ s.frameStrips) :
    exec .frameTurn s = .next s := by
  refine if_neg fun ha => ?_
  have hp := stripCount_pos s.feeder.rasterMode
  simp only [State.rasterAt, Bool.and_eq_true, decide_eq_true_eq] at ha
  rcases h with h | h
  · exact Bool.false_ne_true (h.symm.trans ha.1)
  · rw [s.frameStrips_eq] at h
    omega

/-- The turn comes to the feeder as the last strip is the next. -/
theorem exec_turn (hon : s.feeder.rasterOn = true) (hn : s.feeder.nextStrip + 1 = s.frameStrips) :
    exec .frameTurn s = .next (s.closeWork ((s.moveRaster 0).feederTakes (.turn s.post.setup.outputMode))) := by
  refine if_pos ?_
  rw [s.frameStrips_eq] at hn
  simp only [State.rasterAt, Bool.and_eq_true, decide_eq_true_eq]
  exact ⟨hon, by omega⟩

/-- The port carries blank, and the raster has the output mode m (R68, R69). -/
def State.turnedBlank (s : State) (m : Nat) : State :=
  { s with feeder.display := .solid ⟨16, 128, 128⟩, feeder.outputMode := m, feeder.layout := s.feeder.layoutIn m }

theorem State.turnedBlank_unchanged (s : State) (m : Nat) : Unchanged [.strips, .layout] s (s.turnedBlank m) := by
  intro p hp
  cases p <;> simp_all [same, State.turnedBlank]

theorem blank_readOutputMode (s : State) (m : Nat) :
    ({ s with feeder.display := .solid ⟨16, 128, 128⟩ } : State).readOutputMode m = s.turnedBlank m := by
  unfold State.readOutputMode State.turnedBlank Feeder.layoutIn
  dsimp only
  split
  next h => rw [← h]
  next => rfl

/-- Outside LIVE a posted layout is read in STANDBY; otherwise the turn goes on at once. -/
theorem turnFrame_blank (hv : s.feeder.view ≠ .live) (m : Nat) :
    s.turnFrame m =
      if s.feeder.posted = true ∧ s.feeder.view = .standby then
        { s.turnedBlank m with feeder.layoutRead := .waiting }.issue .feeder .feeder (.read .layout 0x400 [])
      else (s.turnedBlank m).stepRamps.countFrame := by
  unfold State.turnFrame State.frameTurnJudge
  dsimp only
  rw [if_neg hv, beginScanout_blank (fun h => hv h.1), blank_readOutputMode]
  have hr : (s.turnedBlank m).readsLayout = true ↔ s.feeder.posted = true ∧ s.feeder.view = .standby := by
    simp [State.readsLayout, State.turnedBlank, hv]
    exact fun _ => decide_eq_true_iff
  by_cases h : s.feeder.posted = true ∧ s.feeder.view = .standby
  · rw [if_pos (hr.2 h), if_pos h]
  · rw [if_neg (mt hr.1 h), if_neg h]
    exact if_neg hv

/-- Outside LIVE the fields of the panes are zeros (R73). -/
theorem paneFields_blank (hv : s.feeder.view ≠ .live) (n : Nat) : s.paneFields n = List.replicate 8 0#8 := by
  unfold State.paneFields
  split
  · exact if_neg hv
  · rfl

/-- The frame fields are those of the pieces that they report. -/
theorem frameFields_blank (hv : s.feeder.view ≠ .live) (n : Nat) :
    s.frameFields n = leBytes 4 n ++ leBytes 4 s.intake.frameNumber ++ leBytes 4 s.intake.malformed ++ leBytes 4 s.intake.drops
      ++ leBytes 4 s.feeder.underruns ++ leBytes 4 s.feeder.faults ++ leBytes 4 s.port.correctable
      ++ leBytes 4 s.port.uncorrectable ++ leBytes 4 s.feeder.layout.generation
      ++ leBytes 1 s.feeder.layout.panes.length ++ leBytes 1 s.monitor.reportedState.value
      ++ leBytes 1 s.monitor.levels.black ++ leBytes 1 s.monitor.levels.white
      ++ leBytes 1 (if s.monitor.levels.valid then 1 else 0) ++ List.replicate 7 0#8 ++ List.replicate 32 0#8 := by
  unfold State.frameFields
  simp only [paneFields_blank hv, List.append_assoc]
  rfl

end Sys2Proof.Machine
end

section

open Sys2Proof Sys2Proof.Machine

/-- Settles O50: outside LIVE the turn is blank and in the setup's mode, and reads a posted layout or counts the frame. -/
theorem frameTurnsOutsideLive : Obligations.FrameTurnsOutsideLive := by
  intro s
  refine ⟨exec_turn_disregarded, ?_⟩
  intro hon hn hr hv due size m base strips
  have hx := exec_turn hon hn
  rw [feederTakes_of_idle (s := s.moveRaster 0) hr] at hx
  have hb : (s.moveRaster 0).feeder.layoutIn m = base := by
    show (if _ then _ else defaultLayout (rasterSize m)) = _
    rw [rasterSize_eq]
    rfl
  have turned : Unchanged [.raster, .strips, .layout] s ((s.moveRaster 0).turnedBlank m) :=
    (s.moveRaster_unchanged 0).comp ((s.moveRaster 0).turnedBlank_unchanged m)
  refine ⟨fun hp hs => ?_, fun hp => ?_⟩
  · rw [show (s.moveRaster 0).feederEvent (.turn m) = _ from (turnFrame_blank (s := s.moveRaster 0) hv m).trans (if_pos ⟨hp, hs⟩)] at hx
    have asked : Unchanged [.frameTurn] ((s.moveRaster 0).turnedBlank m)
        { (s.moveRaster 0).turnedBlank m with feeder.layoutRead := .waiting } := by
      intro p hp
      cases p <;> simp_all [same]
    have u := turned.comp asked (c := [.raster, .strips, .frameTurn, .layout])
    refine ⟨_, hx, ⟨?_, ?_, ?_, ?_, ?_, ?_, ?_⟩, ?_, ?_, ?_, ?_, ?_, ?_,
      ((Sends.of_unchanged u).after (State.issue_sends _ _ _ _)).did (u.comp (State.issue_unchanged _ _ _ _))⟩
    case refine_12 => simp [State.turnedBlank, hb]
    all_goals rw [State.closeWork_feeder, State.issue_feeder]
    any_goals rfl
    · exact hp
    · exact hon
  · intro n
    rw [show (s.moveRaster 0).feederEvent (.turn m) = _ from (turnFrame_blank (s := s.moveRaster 0) hv m).trans
      (if_neg fun h => hp.elim (fun k => Bool.false_ne_true (k.symm.trans h.1)) fun k => k h.2), stepRamps_eq] at hx
    obtain ⟨ramped, hy⟩ : ∃ y, y = { (s.moveRaster 0).turnedBlank m with feeder.layout := rampedLayout base } := ⟨_, rfl⟩
    rw [show ({ (s.moveRaster 0).turnedBlank m with
      feeder.layout := rampedLayout ((s.moveRaster 0).turnedBlank m).feeder.layout } : State) = ramped by rw [hy, ← hb]; rfl] at hx
    have u : Unchanged [.raster, .strips, .layout] s ramped := turned.comp (b := [.layout]) fun p hp => by
      subst hy
      cases p <;> simp_all [same]
    have due' : ramped.post.holdoffDue = false := by rw [hy]; exact due
    have hv' : ramped.feeder.view ≠ .live := by rw [hy]; exact hv
    have hf : (s.closeWork ramped.countFrame).feeder = _ := (State.closeWork_feeder _ _).trans (countFrame_feeder due')
    have sent : Sends [writeOf 0x20 (ramped.frameFields n)] [] s ramped.countFrame :=
      (Sends.of_unchanged u).after (by rw [show n = (ramped.feeder.frameNumber + 1) % 4294967296 by rw [hy]; rfl]; exact countFrame_sends due')
    have hi : ramped.intake = s.intake := by rw [hy]; rfl
    have hm : ramped.monitor = s.monitor := by rw [hy]; rfl
    have hq : ramped.port = s.port := by rw [hy]; rfl
    have hl : ramped.feeder.layout.generation = base.generation := by rw [hy]; rfl
    have hw : ramped.feeder.layout.panes.length = base.panes.length := by rw [hy]; exact List.length_map _
    have hc : ramped.feeder.underruns = s.feeder.underruns ∧ ramped.feeder.faults = s.feeder.faults := by rw [hy]; exact ⟨rfl, rfl⟩
    rw [frameFields_blank hv', hi, hm, hq, hl, hw, hc.1, hc.2] at sent
    refine ⟨_, hx, ⟨?_, ?_, ?_, ?_, ?_, ?_, ?_⟩, .before (.after u (countFrame_counted due')) (s.closeWork_unchanged _), ?_, ?_, ?_, 
      sent.did (u.comp (countFrame_changes due'))⟩
    all_goals rw [hf, hy]
    any_goals rfl
    exact hon

end

section
/-! SUPPORT. Work that the engine takes within a step, before what the step does next (R89, R93, R94, R99). -/

namespace Sys2Proof.Machine

set_option Elab.async false

variable {s t x y z : State} {u : EngineUnit} {a b changed : List Piece} {ops : List RecordOp}
  {news : List (Block × EventKind × Nat × Nat × Nat)}

/-! ## A scan, or anything else -/

/-- The engine takes a unit or nothing, or the job runner begins a scan. -/
theorem takeWork_scanOrNot (s : State) :
    Unchanged [.unit, .context, .runningJob, .arbiter] s s.takeWork
      ∨ (s.scanOffered = true ∧ s.takeWork = s.scanFrom ⟨none, [], false, []⟩ 0) := by
  rcases s.takeWork_is with h | ⟨w, ps, h⟩ | ⟨w, ps, h⟩ | ⟨j, w, ps, -, h⟩ | h
  · refine .inl ?_
    rw [h]
    exact .refl s
  · exact .inl (h ▸ (s.startUnit_unchanged w ps).mono)
  · refine .inl (h ▸ .comp (a := [.context]) (fun p hp => ?_) (State.startUnit_unchanged _ w ps))
    cases p <;> simp_all [same]
  · refine .inl (h ▸ .comp (a := [.runningJob]) (fun p hp => ?_) (State.startUnit_unchanged _ w ps))
    cases p <;> simp_all [same]
  · exact .inr h

theorem takeWork_noScan (h : s.scanOffered = false) : Unchanged [.unit, .context, .runningJob, .arbiter] s s.takeWork :=
  (takeWork_scanOrNot s).resolve_right fun k => Bool.false_ne_true (h.symm.trans k.1)

theorem scanFrom_scan (s : State) (sc : Scan) (n : Nat) : (s.scanFrom sc n).jobs.scan.isSome = true := by
  unfold State.scanFrom
  split
  · rw [State.issue_jobs]
    rfl
  · rfl

theorem scanOffered_of_scan (h : s.jobs.scan.isSome = true) : s.scanOffered = false := by
  have hn : s.jobs.scan ≠ none := fun k => by simp [k] at h
  simp [State.scanOffered, hn]

theorem scanOffered_of_degraded (h : s.feeder.degraded = true) : s.scanOffered = false := by simp [State.scanOffered, h]

theorem scanOffered_of_mode (h : s.control.mode ≠ .live) : s.scanOffered = false := by simp [State.scanOffered, h]

/-- With no scan offered, closing a step issues nothing. -/
theorem closeWork_ops_noScan (s0 : State) (h : s.scanOffered = false) : (s0.closeWork s).ops = s.ops := by
  obtain ⟨hq, hb, -⟩ := takeWork_noScan h .records (by decide)
  rw [State.closeWork, State.close_ops]
  simp [State.ops, hq, hb]

theorem takeWork_waitsOn (s : State) : WaitsOn s s.takeWork := by
  rcases takeWork_scanOrNot s with h | ⟨-, h⟩
  · exact .of_unchanged h
  · rw [h]
    intro c hc
    by_contra hf
    rw [free_of_scanFrom (Bool.eq_true_of_not_eq_false hf)] at hc
    exact absurd hc (by decide)

/-! ## What a step did in which the engine took work -/

/-- A step in which the engine takes work did what it sent, and its frame is that of its parts. -/
theorem Did.of_work (hx : Unchanged a s x) (hz : Unchanged b x.takeWork z) (hu : Piece.unit ∈ changed)
    (ka : a ⊆ changed ++ takingWork := by decide) (kb : b ⊆ changed ++ takingWork := by decide)
    (kc : ∀ p ∈ [Piece.context, .runningJob], p ∉ a ∧ p ∉ b := by decide)
    (sent : s.roomFor ops.length →
      (∃ more, AtMostAScan more ∧ (s.closeWork z).ops = s.ops ++ ops ++ more) ∧ z.news = s.news ++ news ∧ Stamped s z) :
    Did changed ops news s (s.closeWork z) := by
  have took (l : List Piece) : takingWork ⊆ l ++ takingWork := List.subset_append_right _ _
  have hy : Unchanged (changed ++ takingWork) s z :=
    ((hx.mono ka).comp (x.takeWork_unchanged) (List.Subset.refl _)
      (fun _ hp => took changed ((by decide : [Piece.unit, .context, .runningJob, .scan, .records, .arbiter] ⊆ takingWork) hp))).comp hz (List.Subset.refl _) kb
  refine ⟨hy.comp (s.closeWork_unchanged z) (List.Subset.refl _) (took _), fun h => absurd hu h, fun _ => ?_, fun _ => ?_, fun r => ?_⟩
  · have h1 : x.capture.context = s.capture.context := hx .context (kc _ (by simp)).1
    have h2 : z.capture.context = x.takeWork.capture.context := hz .context (kc _ (by simp)).2
    obtain ⟨n, hn⟩ : ∃ n, z.capture.context = { s.capture.context with next := n } :=
      ⟨_, by rw [h2, ← h1]; exact (congrArg Capture.context x.takeWork_capture :)⟩
    rw [State.closeWork_capture]
    simp only [hn]
  · have h1 : x.jobs.running = s.jobs.running := hx .runningJob (kc _ (by simp)).1
    have h2 : z.jobs.running = x.takeWork.jobs.running := hz .runningJob (kc _ (by simp)).2
    rw [State.closeWork_running, h2, x.takeWork_jobs.2.2, h1]
  · obtain ⟨ho, hn, hs⟩ := sent r
    exact ⟨ho, by simpa using hn, hs.closeWork⟩

/-- Where no scan is offered, the step sends what its parts send. -/
theorem Did.of_work_noScan (hx : Unchanged a s x) (hz : Unchanged b x.takeWork z) (hu : Piece.unit ∈ changed)
    (none : x.scanOffered = false) (sx : Sends [] [] s x) (sz : Sends ops news x.takeWork z)
    (ka : a ⊆ changed ++ takingWork := by decide) (kb : b ⊆ changed ++ takingWork := by decide)
    (kc : ∀ p ∈ [Piece.context, .runningJob], p ∉ a ∧ p ∉ b := by decide) : Did changed ops news s (s.closeWork z) := by
  refine .of_work hx hz hu ka kb kc fun hr => ?_
  obtain ⟨-, ho, hf, l, hl, hn, hs⟩ := (sx.after ((Sends.of_unchanged (takeWork_noScan none)).after sz)) 0 hr
  refine ⟨?_, ?_, fun e he => ?_⟩
  · rcases s.closeWork_ops z with e | ⟨k, hk, e⟩
    · exact ⟨[], .inl rfl, by rw [e, ho, List.append_nil]⟩
    · exact ⟨_, .inr ⟨k, hk, rfl⟩, by rw [e, ho]⟩
  · rw [← hn, State.news, hl, List.map_append]
    rfl
  · rw [hl, List.drop_left] at he
    rw [hs e he, hf]

/-- Where the step sends nothing of its own, at most one scan begins in it. -/
theorem Did.of_work_quiet (hx : Unchanged a s x) (hz : Unchanged b x.takeWork z) (hu : Piece.unit ∈ changed)
    (ka : a ⊆ changed ++ takingWork := by decide) (kb : b ⊆ changed ++ takingWork := by decide)
    (kc : ∀ p ∈ [Piece.context, .runningJob, .records, .raised, .scan], p ∉ a ∧ p ∉ b := by decide) :
    Did changed [] [] s (s.closeWork z) := by
  have kr := kc .records (by simp)
  have ke := kc .raised (by simp)
  have hraised : z.post.raised = s.post.raised :=
    (show z.post.raised = _ from hz .raised ke.2).trans ((congrArg PostPort.raised x.takeWork_post).trans (hx .raised ke.1))
  obtain ⟨hxq, hxb, -⟩ := hx .records kr.1
  obtain ⟨hzq, hzb, -⟩ := hz .records kr.2
  have hxo : x.ops = s.ops := by simp [State.ops, hxq, hxb]
  have hzo : z.ops = x.takeWork.ops := by simp [State.ops, hzq, hzb]
  refine .of_work hx hz hu ka kb (fun p hp => kc p (by simp only [List.mem_cons, List.not_mem_nil, or_false] at hp ⊢; tauto))
    fun _ => ⟨?_, by simp [State.news, hraised], .of_raised hraised⟩
  rw [List.append_nil]
  rcases takeWork_scanOrNot x with h | ⟨ho, h⟩
  · obtain ⟨hq, hb, -⟩ := h .records (by decide)
    have he : z.ops = s.ops := by rw [hzo, ← hxo]; simp [State.ops, hq, hb]
    rcases s.closeWork_ops z with e | ⟨k, hk, e⟩
    · exact ⟨[], .inl rfl, by rw [e, he, List.append_nil]⟩
    · exact ⟨_, .inr ⟨k, hk, rfl⟩, by rw [e, he]⟩
  · have hs : z.jobs.scan = x.takeWork.jobs.scan := hz .scan (kc _ (by simp)).2
    rw [closeWork_ops_noScan s (scanOffered_of_scan (by rw [hs, h]; exact scanFrom_scan _ _ _)), hzo, ← hxo]
    rcases x.takeWork_ops with e | ⟨k, hk, e⟩
    · exact ⟨[], .inl rfl, by rw [e, List.append_nil]⟩
    · exact ⟨_, .inr ⟨k, hk, rfl⟩, e⟩

/-! ## The unit taken stands as the step goes on -/

/-- A unit that is no strip is still the one just begun where its owner's offer stands as it was. -/
theorem justBegun_kept (h : y.justBegun u) (hz : Unchanged b y z) (hw : ∀ k c, u.work ≠ .strip k c)
    (k : ∀ p ∈ [Piece.mode, .context, .runningJob, .levels], p ∉ b := by decide) : z.justBegun u := by
  have h1 : z.control.mode = y.control.mode := hz .mode (k _ (by simp))
  have h2 : z.capture.context = y.capture.context := hz .context (k _ (by simp))
  have h3 : z.jobs.running = y.jobs.running := hz .runningJob (k _ (by simp))
  have h4 : z.monitor.levels = y.monitor.levels := hz .levels (k _ (by simp))
  unfold State.justBegun at h ⊢
  cases e : u.work with
  | strip n c => exact absurd e (hw n c)
  | capturePiece n => simpa only [e, h2, h4] using h
  | jobPiece n => simpa only [e, h1, h3, State.jobWork, h4] using h
  | signaturePiece n => simpa only [e, h1, h3, State.jobWork, h4] using h

/-- With no strip requested, the unit just begun is none. -/
theorem justBegun_noStrip (h : y.justBegun u) (hr : y.feeder.request = none) (k : Nat) (c : Bool) : u.work ≠ .strip k c := by
  intro e
  unfold State.justBegun at h
  rw [e] at h
  exact absurd (hr.symm.trans h.2.1) nofun

/-- An idle engine that took its work within the step has taken what R94 gives, where nothing is offered anew ahead of it. -/
theorem tookNext_of_work (s : State) (hx : x.engine.unit = none) (hr : x.feeder.request = none) (hz : Unchanged b x.takeWork z)
    (hq : z.feeder.request = none) (hd : x.feeder.degraded = false → z.feeder.degraded = false) (hw : WaitsOn x.takeWork z)
    (k : ∀ p ∈ [Piece.mode, .context, .runningJob, .levels, .unit], p ∉ b := by decide) : (s.closeWork z).tookNext := by
  have took := takeWork_tookNext hx
  have hu : z.engine = x.takeWork.engine := hz .unit (k _ (by simp))
  cases e : x.takeWork.engine.unit with
  | none => exact s.closeWork_tookNext (by rw [hu, e])
  | some u =>
    obtain ⟨began, first⟩ := took.1 u e
    have e' : z.engine.unit = some u := by rw [hu, e]
    have hc : z.capture.context = x.takeWork.capture.context := hz .context (k _ (by simp))
    have strips : ¬ z.stripStands := fun h => h.2 hq
    have captures : ¬ x.takeWork.captureStands → ¬ z.captureStands := fun h ⟨h1, h2, h3⟩ =>
      h ⟨hc ▸ h1, by
        by_contra hf
        exact absurd h2 (by simp [hw .capture (Bool.eq_false_of_not_eq_true hf)]), hc ▸ h3⟩
    have kept : z.justBegun u ∧ z.stoodFirst u := by
      refine ⟨justBegun_kept began hz (justBegun_noStrip began (by simpa using hr)) fun p hp => k p (by
        simp only [List.mem_cons, List.not_mem_nil, or_false] at hp ⊢
        tauto), ?_⟩
      unfold State.stoodFirst at first ⊢
      rw [State.takeWork_feeder] at first
      cases w : u.work with
      | strip n c => trivial
      | capturePiece n => exact strips
      | jobPiece n => simp only [w] at first; exact ⟨strips, captures first.2.1, hd first.2.2⟩
      | signaturePiece n => simp only [w] at first; exact ⟨strips, captures first.2.1, hd first.2.2⟩
    rw [State.closeWork, takeWork_kept e']
    exact s.tookNext_close ⟨fun v hv => by rw [e'] at hv; cases hv; exact kept, fun hn => by rw [e'] at hn; cases hn⟩

end Sys2Proof.Machine
end

section
/-! SUPPORT. The entries of STANDBY and SHUTTING at the display feeder (R89, R90, R187). -/

namespace Sys2Proof.Machine

set_option Elab.async false

variable {s t x y z : State} {m : Mode}

/-! ## Blocks as a whole -/

/-- A change of no piece of the intake leaves it. -/
theorem Unchanged.intake {changed : List Piece} (h : Unchanged changed s t)
    (k : ∀ p ∈ [Piece.views, .shape, .buffer, .slots, .statistics, .badFrames, .instability], p ∉ changed := by decide) :
    t.intake = s.intake := by
  have h1 := h .views (k _ (by simp))
  have h2 := h .shape (k _ (by simp))
  have h3 := h .buffer (k _ (by simp))
  have h4 := h .slots (k _ (by simp))
  have h5 := h .statistics (k _ (by simp))
  have h6 := h .badFrames (k _ (by simp))
  have h7 := h .instability (k _ (by simp))
  simp only [same] at h1 h2 h3 h4 h5 h6 h7
  cases hs : s.intake
  cases ht : t.intake
  simp_all

/-- A change of no piece of mode control leaves it. -/
theorem Unchanged.control {changed : List Piece} (h : Unchanged changed s t)
    (k : ∀ p ∈ [Piece.mode, .timer, .safety, .announcements, .inputs], p ∉ changed := by decide) : t.control = s.control := by
  have h1 := h .mode (k _ (by simp))
  have h2 := h .timer (k _ (by simp))
  have h3 := h .safety (k _ (by simp))
  have h4 := h .announcements (k _ (by simp))
  have h5 := h .inputs (k _ (by simp))
  simp only [same] at h1 h2 h3 h4 h5
  cases hs : s.control
  cases ht : t.control
  simp_all

/-- A change of no piece of the job runner leaves it. -/
theorem Unchanged.jobs {changed : List Piece} (h : Unchanged changed s t)
    (k : ∀ p ∈ [Piece.views, .jobEntries, .runningJob, .scan], p ∉ changed := by decide) : t.jobs = s.jobs := by
  have h1 := h .views (k _ (by simp))
  have h2 := h .jobEntries (k _ (by simp))
  have h3 := h .runningJob (k _ (by simp))
  have h4 := h .scan (k _ (by simp))
  simp only [same] at h1 h2 h3 h4
  cases hs : s.jobs
  cases ht : t.jobs
  simp_all

/-- A change of no piece of the page monitor leaves it. -/
theorem Unchanged.monitor {changed : List Piece} (h : Unchanged changed s t)
    (k : ∀ p ∈ [Piece.views, .pattern, .levels, .index], p ∉ changed := by decide) : t.monitor = s.monitor := by
  have h1 := h .views (k _ (by simp))
  have h2 := h .pattern (k _ (by simp))
  have h3 := h .levels (k _ (by simp))
  have h4 := h .index (k _ (by simp))
  simp only [same] at h1 h2 h3 h4
  cases hs : s.monitor
  cases ht : t.monitor
  simp_all

/-! ## The steps of R89 -/

/-- The slots with the freeze pin off the one that has it. -/
def Intake.unfrozen (i : Intake) : List Slot :=
  match i.freezeSlot with
  | some n => i.slots.modify n fun x => { x with pinFreeze := false }
  | none => i.slots

/-- With no capture waiting for a pin, the release of the freeze pin serves nobody. -/
theorem releaseFreeze_of (h : s.capture.context.state ≠ .waitingPin ∨ s.intake.freezeSlot = none) :
    s.releaseFreeze = { s with intake.slots := s.intake.unfrozen } := by
  unfold State.releaseFreeze Intake.unfrozen
  cases e : s.intake.freezeSlot with
  | none => rfl
  | some n =>
    have hc : s.capture.context.state ≠ .waitingPin := h.resolve_right (by simp [e])
    unfold State.releasePin
    dsimp only
    exact if_neg fun k => hc k.2

/-- Neither a hold nor a pin, nor a frame of LIVE, nor a run is left (R89). -/
def State.leftLive (s : State) : State :=
  { s with
    intake.slots := s.intake.unfrozen, intake.hold := none
    feeder.liveFrame := false, feeder.late := false, feeder.latched := [], feeder.underrunRun := 0, feeder.cleanRun := 0 }

theorem State.leftLive_unchanged (s : State) : Unchanged [.slots, .lateness, .strips] s s.leftLive := by
  intro p hp
  cases p <;> simp_all [same, State.leftLive]

theorem leaveLive_of (h : s.capture.context.state ≠ .waitingPin ∨ s.intake.freezeSlot = none) :
    s.leaveLive = s.withdrawStrip.takeWork.leftLive.recoverAtEntry := by
  have h1 : s.withdrawStrip.takeWork.capture.context.state = s.capture.context.state := by
    rw [State.takeWork_capture]
    show s.withdrawStrip.capture.context.state = _
    exact congrArg Context.state (s.withdrawStrip_unchanged .context (by decide))
  have h2 := (s.withdrawStrip_unchanged .slots (by decide)).1
  have h3 : s.withdrawStrip.takeWork.intake.freezeSlot = s.intake.freezeSlot := by
    rw [State.takeWork_intake]
    unfold Intake.freezeSlot Intake.slot
    rw [h2]
  unfold State.leaveLive
  dsimp only
  rw [releaseFreeze_of (by rwa [h1, h3])]
  rfl

/-- The degraded flag is cleared, with DISPLAY_RECOVERED, if it was set (R89). -/
theorem recoverAtEntry_of_clear (h : s.feeder.degraded = false) : s.recoverAtEntry = s := if_neg (by simp [h])

theorem State.recoverAtEntry_feeder (s : State) : s.recoverAtEntry.feeder = { s.feeder with degraded := false } := by
  unfold State.recoverAtEntry
  split
  · simp
  next h => rw [← Bool.eq_false_of_not_eq_true h]

theorem State.setDegraded_sends (s : State) (n : Bool) :
    Sends (fieldChange (s.feeder.degraded = n) 0x0F 1 (boolByte n)) [] s (s.setDegraded n) :=
  .of_room (fun _ h => State.setDegraded_room n h) (by simp) (by simp)

theorem recoverAtEntry_sends (h : s.feeder.degraded = true) :
    Sends [fieldWrite 0x0F 1 0] [(.feeder, .displayRecovered, 1, s.feeder.frameNumber, 0)] s s.recoverAtEntry := by
  have sent := (s.setDegraded_sends false).thenNews (State.raise_sends _ .feeder .displayRecovered 1 s.feeder.frameNumber 0)
  rw [fieldChange_of_ne (by simp [h])] at sent
  unfold State.recoverAtEntry
  rw [if_pos h]
  exact sent

/-- The degraded flag cleared leaves a scan as it goes on (R137). -/
theorem setDegraded_false_unchanged (s : State) : Unchanged [.lateness, .records, .arbiter] s (s.setDegraded false) := by
  unfold State.setDegraded
  split
  · exact .refl s
  · refine .comp (a := [.lateness]) (fun p hp => ?_) (State.liveField_unchanged _ _ _ _ _)
    cases p <;> simp_all [same]

theorem recoverAtEntry_changes (s : State) : Unchanged [.lateness, .records, .raised, .arbiter] s s.recoverAtEntry := by
  unfold State.recoverAtEntry
  split
  · exact .comp (setDegraded_false_unchanged s) (State.raise_unchanged _ _ _ _ _ _)
  · exact .refl s

theorem setDegraded_waitsOn (s : State) : WaitsOn s (s.setDegraded false) := by
  unfold State.setDegraded
  split
  · exact .same
  · exact (WaitsOn.same : WaitsOn s { s with feeder.degraded := false }).trans (State.issue_waitsOn _ _ _ _)

theorem recoverAtEntry_waitsOn (s : State) : WaitsOn s s.recoverAtEntry := by
  unfold State.recoverAtEntry
  split
  · exact (setDegraded_waitsOn s).trans (State.raise_waitsOn _ _ _ _ _ _)
  · exact .same

/-! ## The entry (R89, R187) -/

/-- The feeder has taken the mode and withdrawn its request: what the engine takes work on. -/
def State.enteredView (s : State) (m : Mode) : State := { s with feeder.view := m }.withdrawStrip

/-- What the entry does behind that. -/
def State.entryRest (s : State) (m : Mode) : State :=
  { s.leftLive.recoverAtEntry with feeder.posted := s.feeder.posted && decide (m = .standby) }

theorem feederEntry_leaves (hm : m = .standby ∨ m = .shutting) (h : s.capture.context.state ≠ .waitingPin ∨ s.intake.freezeSlot = none) :
    s.feederEntry m = (s.enteredView m).takeWork.entryRest m := by
  have left : ({ s with feeder.view := m } : State).leaveLive = (s.enteredView m).takeWork.leftLive.recoverAtEntry :=
    leaveLive_of (s := { s with feeder.view := m }) h
  have hr : (s.enteredView m).takeWork.leftLive.recoverAtEntry.feeder.posted = (s.enteredView m).takeWork.feeder.posted := by
    rw [State.recoverAtEntry_feeder]
    rfl
  unfold State.feederEntry State.entryRest
  rcases hm with rfl | rfl <;> dsimp only <;> rw [left]
  · rw [show decide (Mode.standby = .standby) = true from rfl, Bool.and_true, ← hr]
  · rw [show decide (Mode.shutting = .standby) = false from rfl, Bool.and_false]

theorem State.enteredView_unchanged (s : State) (m : Mode) : Unchanged [.views, .strips, .unit, .arbiter] s (s.enteredView m) := by
  refine .comp (a := [.views]) (fun p hp => ?_) (State.withdrawStrip_unchanged _)
  cases p <;> simp_all [same]

theorem State.enteredView_feeder (s : State) (m : Mode) : (s.enteredView m).feeder = { s.feeder with view := m, request := none } :=
  State.withdrawStrip_feeder _

theorem State.entryRest_feeder (s : State) (m : Mode) :
    (s.entryRest m).feeder = { s.feeder with
      liveFrame := false, late := false, latched := [], underrunRun := 0, cleanRun := 0, degraded := false
      posted := s.feeder.posted && decide (m = .standby) } := by
  unfold State.entryRest
  dsimp only
  rw [State.recoverAtEntry_feeder]
  rfl

theorem entryRest_intake (s : State) (m : Mode) :
    (s.entryRest m).intake = { s.intake with slots := s.intake.unfrozen, hold := none } := by
  show s.leftLive.recoverAtEntry.intake = _
  unfold State.recoverAtEntry
  split
  · simp [State.leftLive]
  · rfl

theorem entryRest_unchanged (s : State) (m : Mode) :
    Unchanged [.slots, .lateness, .strips, .frameTurn, .records, .raised, .arbiter] s (s.entryRest m) := by
  refine .comp (.comp s.leftLive_unchanged (recoverAtEntry_changes _) (c := [.slots, .lateness, .strips, .records, .raised, .arbiter]))
    (b := [.frameTurn]) fun p hp => ?_
  have hf : s.leftLive.recoverAtEntry.feeder = _ := State.recoverAtEntry_feeder _
  cases p <;> simp_all [same, State.entryRest]

theorem entryRest_deferred (s : State) (m : Mode) : (s.entryRest m).feeder.deferred = s.feeder.deferred := by rw [State.entryRest_feeder]

theorem entryRest_of_clear (h : s.feeder.degraded = false) (m : Mode) :
    Unchanged [.slots, .lateness, .strips, .frameTurn] s (s.entryRest m) := by
  unfold State.entryRest
  rw [recoverAtEntry_of_clear (s := s.leftLive) h]
  refine s.leftLive_unchanged.comp (b := [.frameTurn]) fun p hp => ?_
  cases p <;> simp_all [same, State.leftLive]

/-- What the entry writes and raises: the degraded flag, if it was set (R89). -/
theorem entryRest_sends (s : State) (m : Mode) :
    Sends (if s.feeder.degraded = true then [fieldWrite 0x0F 1 0] else [])
      (if s.feeder.degraded = true then [(.feeder, .displayRecovered, 1, s.feeder.frameNumber, 0)] else []) s (s.entryRest m) := by
  by_cases h : s.feeder.degraded = true
  · rw [if_pos h, if_pos h]
    exact ((Sends.same : Sends [] [] s s.leftLive).after (recoverAtEntry_sends h)).before .same
  · rw [if_neg h, if_neg h]
    exact .of_unchanged (entryRest_of_clear (Bool.eq_false_of_not_eq_true h) m)

theorem entryRest_waitsOn (s : State) (m : Mode) : WaitsOn s (s.entryRest m) :=
  ((WaitsOn.same : WaitsOn s s.leftLive).trans (recoverAtEntry_waitsOn _)).trans .same

/-- The feeder has left LIVE at the entry. -/
abbrev State.feederLeft (s : State) (m : Mode) : State := (s.enteredView m).takeWork.entryRest m

theorem State.feederLeft_feeder (s : State) (m : Mode) :
    (s.feederLeft m).feeder = { s.feeder with
      view := m, request := none, latched := [], liveFrame := false, late := false, underrunRun := 0, cleanRun := 0
      degraded := false, posted := s.feeder.posted && decide (m = .standby) } := by
  rw [State.feederLeft, State.entryRest_feeder, State.takeWork_feeder, State.enteredView_feeder]

theorem enteredView_intake (s : State) (m : Mode) : (s.enteredView m).intake = s.intake :=
  (State.withdrawStrip_unchanged { s with feeder.view := m }).intake

theorem State.feederLeft_intake (s : State) (m : Mode) :
    (s.feederLeft m).intake = { s.intake with slots := s.intake.unfrozen, hold := none } := by
  rw [State.feederLeft, entryRest_intake, State.takeWork_intake, enteredView_intake]

theorem State.feederLeft_waitsOn (s : State) (m : Mode) : WaitsOn s (s.feederLeft m) :=
  ((WaitsOn.of_unchanged (s.enteredView_unchanged m)).trans (takeWork_waitsOn _)).trans (entryRest_waitsOn _ m)

/-- What mode control, the capture unit and the job runner have is left, but for the piece that the engine may begin. -/
theorem State.feederLeft_others (s : State) (m : Mode) :
    (s.feederLeft m).control = s.control ∧ (s.feederLeft m).capture.context.state = s.capture.context.state
      ∧ ((s.feederLeft m).jobs.running = none → s.jobs.running = none) := by
  have before := s.enteredView_unchanged m
  have after := entryRest_unchanged (s.enteredView m).takeWork m
  have hc : (s.enteredView m).capture.context = s.capture.context := before .context (by decide)
  have hj : (s.enteredView m).jobs.running = s.jobs.running := before .runningJob (by decide)
  have hc' : (s.feederLeft m).capture.context = (s.enteredView m).takeWork.capture.context := after .context (by decide)
  have hj' : (s.feederLeft m).jobs.running = (s.enteredView m).takeWork.jobs.running := after .runningJob (by decide)
  refine ⟨?_, ?_, fun k => ?_⟩
  · rw [State.feederLeft, after.control, State.takeWork_control, before.control]
  · rw [hc', State.takeWork_capture, ← hc]
  · have moved := (s.enteredView m).takeWork_jobs.2.2
    rw [← hj', k, hj] at moved
    cases e : s.jobs.running with
    | none => rfl
    | some j => simp [e] at moved

/-- The withdrawal of the outstanding strip, seen from the state in which the entry came. -/
theorem enteredView_unit (s : State) (m : Mode) :
    if s.feeder.request.isSome = true then UnitAbandoned s (s.enteredView m) else (s.enteredView m).engine = s.engine := by
  split
  next h => exact (State.withdrawStrip_unit (s := { s with feeder.view := m }) h).after
  next h =>
    unfold State.enteredView State.withdrawStrip
    split
    next q e => exact absurd (congrArg Option.isSome e) h
    next => rfl

/-- What the engine holds after the withdrawal, where the unit in progress goes on and what an idle engine took still stands. -/
theorem stripWithdrawn_of (he : y.engine = s.engine) (hr : y.feeder.request = s.feeder.request)
    (kept : ∀ u, (y.enteredView m).engine.unit = some u → z.engine.unit = some u)
    (took : (y.enteredView m).engine.unit = none → (s.closeWork z).tookNext) : StripWithdrawn s (s.closeWork z) := by
  have h := enteredView_unit y m
  rw [hr] at h
  unfold StripWithdrawn
  split
  next hq =>
    rw [if_pos hq, UnitAbandoned, he] at h
    exact ⟨fun k => took (h.1 k), fun u hu k => s.closeWork_kept (kept u (h.2 u hu k))⟩
  next hq =>
    rw [if_neg hq, he] at h
    exact ⟨fun u hu => s.closeWork_kept (kept u (by rw [h, hu])), fun hu => took (by rw [h, hu])⟩

theorem feederLeft_kept {u : EngineUnit} (h : (s.enteredView m).engine.unit = some u) : (s.feederLeft m).engine.unit = some u := by
  have hu : (s.feederLeft m).engine = (s.enteredView m).takeWork.engine := entryRest_unchanged _ m .unit (by decide)
  rw [hu, takeWork_kept h, h]

/-- The test of R187 is not met where what keeps the part up has gone on. -/
theorem shutdownTest_unmet (up : s.staysUp) (hm : t.control.mode = s.control.mode) (he : t.entriesDone = s.entriesDone)
    (hc : t.capture.context.state = s.capture.context.state) (hj : t.jobs.running = none → s.jobs.running = none) (hw : WaitsOn s t) :
    t.shutdownTest = t := by
  unfold State.shutdownTest
  refine if_neg fun ⟨k1, k2, k3, k4, k5, k6⟩ => ?_
  rw [hm] at k1
  rw [he] at k2
  rw [hc] at k3
  have w (b : Block) (h : s.free b = false) (k : t.free b = true) : False := Bool.false_ne_true ((hw b h).symm.trans k)
  rcases up with (h | h | h | h) | (h | h | h | h)
  · exact h k1
  · exact Bool.false_ne_true (h.symm.trans k2)
  · exact h (hj k4)
  · exact w _ h k6
  · exact h k1
  · exact Bool.false_ne_true (h.symm.trans k2)
  · exact h k3
  · exact w _ h k5

/-- The feeder takes its announcement whenever it comes (R72, R182). -/
theorem execModeEntry_feeder (ha : s.control.announced .feeder = some ⟨.feeder, m⟩) (hr : s.feeder.layoutRead = .idle) :
    exec (.modeEntry .feeder) s = .next (s.closeWork (((s.dropAnnouncement ⟨.feeder, m⟩).feederEntry m).shutdownTest)) := by
  have ht : s.takesEntry .feeder = true := by simp [State.takesEntry]
  show execModeEntry .feeder s = _
  unfold execModeEntry
  rw [ha, ht]
  dsimp only
  unfold State.blockEntry
  dsimp only
  rw [feederTakes_of_idle (s := s.dropAnnouncement ⟨.feeder, m⟩) hr]
  rfl

end Sys2Proof.Machine
end

section

open Sys2Proof Sys2Proof.Machine

/-- Settles O9: the withdrawal, what the engine takes at it, and what the entry does behind that. -/
theorem entriesReachTheFeeder : Obligations.EntriesReachTheFeeder := by
  intro s m ha hr up
  have hx := execModeEntry_feeder ha hr
  obtain ⟨d, hd⟩ : ∃ d, d = s.dropAnnouncement ⟨.feeder, m⟩ := ⟨_, rfl⟩
  have dropped : Unchanged [.announcements] s d := hd ▸ s.dropAnnouncement_unchanged _
  rw [← hd] at hx up
  refine ⟨?_, fun hm _ hw => ?_⟩
  · rintro rfl
    have viewed : Unchanged [.views] d { d with feeder.view := .live } := by
      intro p hp
      cases p <;> simp_all [same]
    rw [show d.feederEntry .live = { d with feeder.view := .live } from rfl, shutdownTest_of_staysUp up viewed] at hx
    refine ⟨_, hx, ?_, ?_, .quiet (dropped.comp viewed (c := [.announcements, .views]))⟩
    · rw [State.closeWork_feeder, hd]
      rfl
    · rw [State.closeWork_control, hd]
      rfl
  · have he : d.engine = s.engine := dropped .unit (by decide)
    have hf : d.feeder = s.feeder := dropped.feeder
    have hi : d.intake = s.intake := by rw [hd]; rfl
    have hc : d.capture = s.capture := by rw [hd]; rfl
    obtain ⟨control, context, running⟩ := d.feederLeft_others m
    have unmet : (d.feederLeft m).shutdownTest = d.feederLeft m := by
      refine shutdownTest_unmet up (congrArg ModeControl.mode control) ?_ context running (d.feederLeft_waitsOn m)
      unfold State.entriesDone
      rw [control, d.feederLeft_feeder]
    rw [feederEntry_leaves hm (by rwa [hi, hc]), unmet] at hx
    refine ⟨_, hx, ?_, ?_, ?_, ?_, ?_, ?_, ?_⟩
    · rw [State.closeWork_feeder, d.feederLeft_feeder, hf]
    · rw [State.closeWork_control, control, hd]
      rfl
    · rw [State.closeWork_intake, d.feederLeft_intake]
    · rw [State.closeWork_intake, d.feederLeft_intake, hi]
    · rw [State.closeWork_intake, d.feederLeft_intake, hi]
      rfl
    · refine stripWithdrawn_of he (by rw [hf]) (fun u hu => feederLeft_kept hu) fun hn => ?_
      refine tookNext_of_work s hn (by rw [State.enteredView_feeder]) (entryRest_unchanged _ m) (by rw [State.feederLeft_feeder])
        (fun _ => by rw [State.feederLeft_feeder]) (entryRest_waitsOn _ m)
    · have viewed := dropped.comp (d.enteredView_unchanged m) (c := [.announcements, .views, .strips, .unit, .arbiter])
      have hd : (d.enteredView m).feeder.degraded = s.feeder.degraded ∧ (d.enteredView m).feeder.frameNumber = s.feeder.frameNumber := by
        rw [State.enteredView_feeder, hf]
        exact ⟨rfl, rfl⟩
      by_cases h : s.feeder.degraded = true
      · have sent := entryRest_sends (d.enteredView m).takeWork m
        rw [State.takeWork_feeder, hd.1, hd.2] at sent
        exact .of_work_noScan viewed (entryRest_unchanged _ m) (by decide) (scanOffered_of_degraded (hd.1.trans h))
          (.of_unchanged viewed) sent
      · rw [if_neg h, if_neg h]
        exact .of_work_quiet viewed (entryRest_of_clear (by simpa [hd.1] using h) m) (by decide)

end

section
/-! SUPPORT. Steps 1 and 2 of the frame turn in LIVE: the last strip, and the judgement of the ending frame (R72, R85, R87, R88). -/

namespace Sys2Proof.Machine

set_option Elab.async false

variable {s t x y z : State} {u : EngineUnit} {changed : List Piece} {ops : List RecordOp}
  {news : List (Block × EventKind × Nat × Nat × Nat)}

/-! ## The last strip (R70, R85) -/

/-- A strip of a frame of LIVE is still requested as its scan-out begins (R85). -/
def Feeder.missed (f : Feeder) : Bool := f.liveFrame && f.request.isSome

/-- The feeder in LIVE as a scan-out has begun (R69, R70, R85). -/
def Feeder.scanned (f : Feeder) : Feeder :=
  { f with
    request := none
    underruns := if f.missed then min 4294967295 (f.underruns + 1) else f.underruns
    late := f.late || f.missed
    scanning := if f.liveFrame then !f.scanning else f.scanning
    display :=
      if !f.liveFrame then .solid ⟨16, 128, 128⟩ else if f.missed then .solid f.layout.background
      else if f.scanning then f.bufferA else f.bufferB }

theorem beginScanout_feeder (hv : s.feeder.view = .live) (hq : s.feeder.liveFrame = false → s.feeder.request = none) :
    s.beginScanout.feeder = s.feeder.scanned := by
  unfold Feeder.scanned Feeder.missed
  cases hl : s.feeder.liveFrame with
  | false =>
    rw [beginScanout_blank (fun h => by rw [hl] at h; exact absurd h.2 nofun)]
    simp [← hq hl, ← hl]
  | true =>
    cases hr : s.feeder.request with
    | none =>
      rw [beginScanout_carried hv hl hr, ← hr, ← hl]
      simp [hr, hl]
    | some q =>
      rw [beginScanout_underrun hv hl (by rw [hr]; rfl), State.underrun_feeder]
      simp [← hl]

/-- A strip that was missed is abandoned; the engine is left alone by one that was not. -/
theorem beginScanout_unit (hv : s.feeder.view = .live) :
    if s.feeder.missed then UnitAbandoned s s.beginScanout else s.beginScanout.engine = s.engine := by
  unfold Feeder.missed
  cases hl : s.feeder.liveFrame with
  | false => rw [beginScanout_blank (fun h => by rw [hl] at h; exact absurd h.2 nofun)]; rfl
  | true =>
    cases hr : s.feeder.request with
    | none => rw [beginScanout_carried hv hl hr]; rfl
    | some q =>
      have h : s.feeder.request.isSome = true := by rw [hr]; rfl
      rw [beginScanout_underrun hv hl h]
      exact (State.withdrawStrip_unit h).before

/-! ## The judgement (R87, R88) -/

/-- The underrun run, the clean run and the degraded flag after the judgement of the ending frame. -/
def Feeder.judgement (f : Feeder) : Nat × Nat × Bool :=
  if !f.liveFrame then (f.underrunRun, f.cleanRun, f.degraded)
  else if f.late then
    if f.degraded then (f.underrunRun, 0, true)
    else if f.underrunRun + 1 < 3 then (f.underrunRun + 1, f.cleanRun, false) else (0, 0, true)
  else if f.degraded then
    if f.cleanRun + 1 < 60 then (f.underrunRun, f.cleanRun + 1, true) else (0, 0, false)
  else (0, f.cleanRun, false)

/-- What the judgement writes and raises: the degraded flag as it changes. -/
def Feeder.judgedOps (f : Feeder) : List RecordOp :=
  if f.judgement.2.2 = f.degraded then [] else [fieldWrite 0x0F 1 (if f.judgement.2.2 then 1 else 0)]

def Feeder.judgedNews (f : Feeder) : List (Block × EventKind × Nat × Nat × Nat) :=
  if f.judgement.2.2 = f.degraded then []
  else if f.judgement.2.2 then [(.feeder, .displayDegraded, 0, f.frameNumber, f.underruns)]
  else [(.feeder, .displayRecovered, 0, f.frameNumber, 0)]

/-- What a judgement leaves: its runs and flag, what it sends, and that only the setting of the flag voids a scan (R87, R88, R137). -/
def JudgedInto (s x : State) : Prop :=
  x.feeder = { s.feeder with
      underrunRun := s.feeder.judgement.1, cleanRun := s.feeder.judgement.2.1, degraded := s.feeder.judgement.2.2 }
    ∧ x.jobs = (if s.feeder.judgement.2.2 = true ∧ s.feeder.degraded = false then s.voidScan.jobs else s.jobs)
    ∧ Sends s.feeder.judgedOps s.feeder.judgedNews s x

/-- A judgement that leaves the flag moves the runs alone. -/
theorem judgedInto_runs {a b : Nat} (h : s.feeder.judgement = (a, b, s.feeder.degraded)) :
    JudgedInto s { s with feeder.underrunRun := a, feeder.cleanRun := b } := by
  unfold JudgedInto Feeder.judgedOps Feeder.judgedNews
  rw [h, if_neg (by simp), if_pos rfl, if_pos rfl]
  exact ⟨rfl, rfl, .same⟩

/-- A judgement that changes the flag clears the runs, and reports the flag. -/
theorem judgedInto_flag {n : Bool} {k : EventKind} {a b : Nat} (h : s.feeder.judgement = (0, 0, n)) (hd : s.feeder.degraded ≠ n)
    (hn : s.feeder.judgedNews = [(.feeder, k, 0, a, b)]) : JudgedInto s ((s.setDegraded n).clearRuns.raise .feeder k 0 a b) := by
  have sent := ((s.setDegraded_sends n).before (Sends.same : Sends [] [] _ (s.setDegraded n).clearRuns)).thenNews
    (State.raise_sends _ .feeder k 0 a b)
  rw [fieldChange_of_ne hd] at sent
  unfold JudgedInto Feeder.judgedOps
  rw [h, hn, if_neg (Ne.symm hd)]
  refine ⟨?_, ?_, sent⟩
  · rw [State.raise_feeder]
    show { (s.setDegraded n).feeder with underrunRun := 0, cleanRun := 0 } = _
    rw [State.setDegraded_feeder]
  · rw [State.raise_jobs]
    show (s.setDegraded n).jobs = _
    rw [s.setDegraded_is n]

theorem judge_into (s : State) : JudgedInto s s.judge := by
  unfold State.judge
  split
  next hl => exact judgedInto_runs (if_pos hl)
  next hl =>
    have live : s.feeder.judgement = _ := if_neg hl
    split
    next ha =>
      rw [if_pos ha] at live
      unfold State.judgeLate
      split
      next hd =>
        rw [if_pos hd] at live
        exact judgedInto_runs (live.trans (by rw [hd]))
      next hd =>
        rw [if_neg hd] at live
        split
        next hr =>
          rw [if_pos hr] at live
          exact judgedInto_runs (live.trans (by rw [Bool.eq_false_of_not_eq_true hd]))
        next hr =>
          rw [if_neg hr] at live
          refine judgedInto_flag live hd ?_
          unfold Feeder.judgedNews
          rw [live, if_neg (Ne.symm hd)]
          rfl
    next ha =>
      rw [if_neg ha] at live
      unfold State.judgeClean
      split
      next hd =>
        have hd' : s.feeder.degraded = false := by simpa using hd
        rw [hd', if_neg nofun] at live
        exact judgedInto_runs (live.trans (by rw [hd']))
      next hd =>
        have hd' : s.feeder.degraded = true := by simpa using hd
        rw [if_pos hd'] at live
        split
        next hr =>
          rw [if_pos hr] at live
          exact judgedInto_runs (live.trans (by rw [hd']))
        next hr =>
          rw [if_neg hr] at live
          refine judgedInto_flag live (by rw [hd']; nofun) ?_
          unfold Feeder.judgedNews
          rw [live, hd']
          rfl

/-! ## The engine through the turn (R93, R94) -/

/-- Whatever the engine holds, it has just begun it. -/
def State.freshly (s : State) : Prop := ∀ u, s.engine.unit = some u → s.justBegun u

theorem freshly_of_idle (h : s.engine.unit = none) : s.freshly := fun _ hu => absurd (h.symm.trans hu) nofun

theorem State.freshly.work (h : s.freshly) : s.takeWork.freshly := by
  cases e : s.engine.unit with
  | none => exact fun u hu => ((takeWork_tookNext e).1 u hu).1
  | some u => rwa [takeWork_kept e]

/-- What has been begun with no strip requested stands as the step goes on. -/
theorem State.freshly.on (h : s.freshly) (hr : s.feeder.request = none) (hu : Unchanged changed s t)
    (k : ∀ p ∈ [Piece.mode, .context, .runningJob, .levels, .unit], p ∉ changed := by decide) : t.freshly := by
  intro u ht
  have he : t.engine = s.engine := hu .unit (k _ (by simp))
  have hs := h u (by rwa [← he])
  exact justBegun_kept hs hu (justBegun_noStrip hs hr) fun p hp => k p (by
    simp only [List.mem_cons, List.not_mem_nil, or_false] at hp ⊢
    tauto)

/-- At the end of the step the engine holds what it has just begun, or finds nothing offered. -/
theorem State.freshly.closed (h : s.freshly) (s0 : State) :
    (∀ u, (s0.closeWork s).engine.unit = some u → (s0.closeWork s).justBegun u)
      ∧ ((s0.closeWork s).engine.unit = none →
        ¬ (s0.closeWork s).stripStands ∧ ¬ (s0.closeWork s).captureStands ∧ ¬ (s0.closeWork s).jobStands) := by
  cases e : s.engine.unit with
  | none =>
    have took := s0.closeWork_tookNext e
    exact ⟨fun u hu => (took.1 u hu).1, took.2⟩
  | some u =>
    have kept := s0.closeWork_kept e
    refine ⟨fun v hv => ?_, fun hn => absurd (hn.symm.trans kept) nofun⟩
    obtain rfl : u = v := Option.some.inj (kept.symm.trans hv)
    have hb := h u e
    rw [State.closeWork, takeWork_kept e]
    unfold State.justBegun at hb ⊢
    simpa [State.stripParts, State.jobWork] using hb

/-- What a step did in which the engine stayed busy. -/
theorem Did.of_busy (hs : s.engine.unit = some u) (hz : z.engine.unit = some u) (k : Unchanged (changed ++ [.unit, .scan, .records, .arbiter, .raised]) s z)
    (sent : Sends ops news s z) (hn : Piece.context ∉ changed ∧ Piece.runningJob ∉ changed := by decide) :
    Did changed ops news s (s.closeWork z) := by
  have hc : z.capture.context = s.capture.context := k .context (by simp [hn.1])
  have hj : z.jobs.running = s.jobs.running := k .runningJob (by simp [hn.2])
  refine ⟨?_, fun _ => ⟨fun v hv => ?_, fun hi => absurd (hi.symm.trans hs) nofun⟩, fun _ => ?_, fun _ => ?_, fun hr => ?_⟩
  · refine k.comp (s.closeWork_unchanged z) (fun p hp => ?_) (List.subset_append_right _ _)
    rcases List.mem_append.1 hp with hp | hp
    · exact List.mem_append_left _ hp
    · exact List.mem_append_right _ ((by decide : [Piece.unit, .scan, .records, .arbiter, .raised] ⊆ takingWork) hp)
  · rw [← Option.some.inj (hs.symm.trans hv)]
    exact s.closeWork_kept hz
  · rw [State.closeWork_capture]
    simp only [hc]
  · rw [State.closeWork_running, hj]
  · obtain ⟨-, ho, hf, l, hl, hm, hst⟩ := sent 0 hr
    refine ⟨⟨[], .inl rfl, ?_⟩, ?_, ?_⟩
    · rw [State.closeWork, takeWork_kept hz, State.close_ops, ho, List.append_nil]
    · rw [State.closeWork_news, ← hm, State.news, hl, List.map_append]
      rfl
    · refine Stamped.closeWork fun e he => ?_
      rw [hl, List.drop_left] at he
      rw [hst e he, hf]

end Sys2Proof.Machine
end

section
/-! SUPPORT. The frame turn in LIVE as a whole, up to the layout read and from it on (R72 to R74, R82, R84). -/

namespace Sys2Proof.Machine

set_option Elab.async false

variable {s t x y z : State} {u : EngineUnit} {m : Nat} {ops : List RecordOp} {news : List (Block × EventKind × Nat × Nat × Nat)}

/-! ## Steps 1 to 3 -/

/-- The engine has a unit that goes on through the turn: it is not the strip that underruns. -/
def State.busyThrough (s : State) : Prop := ∃ u, s.engine.unit = some u ∧ (s.feeder.missed = true → ∀ k b, u.work ≠ .strip k b)

/-- The frame has ended, been judged, and the output mode read (R72). -/
def State.turnedLive (s : State) (m : Nat) : State := (s.beginScanout.takeWork.judge.takeWork).readOutputMode m

/-- The feeder after the judgement and in the new output mode. -/
def Feeder.turned (f : Feeder) (m : Nat) : Feeder :=
  { f.scanned with
    underrunRun := f.scanned.judgement.1, cleanRun := f.scanned.judgement.2.1, degraded := f.scanned.judgement.2.2
    outputMode := m, layout := f.layoutIn m }

section
variable (hv : s.feeder.view = .live)
include hv

theorem beginScanout_kept (h : s.busyThrough) : ∃ u, s.engine.unit = some u ∧ s.beginScanout.engine.unit = some u := by
  obtain ⟨u, hu, hw⟩ := h
  have k := beginScanout_unit hv
  refine ⟨u, hu, ?_⟩
  split at k
  next hm => exact k.2 u hu (hw hm)
  next => rw [k, hu]

theorem beginScanout_idle (h : ¬ s.busyThrough) : s.beginScanout.engine.unit = none := by
  have k := beginScanout_unit hv
  unfold State.busyThrough at h
  cases hu : s.engine.unit with
  | none =>
    split at k
    · exact k.1 (.inl hu)
    · rw [k, hu]
  | some u =>
    have strip : s.feeder.missed = true ∧ ∃ i b, u.work = .strip i b := by
      by_contra hn
      refine h ⟨u, hu, fun hm i b hw => hn ⟨hm, i, b, hw⟩⟩
    obtain ⟨hm, i, b, hw⟩ := strip
    rw [if_pos hm] at k
    exact k.1 (.inr ⟨u, i, b, hu, hw⟩)

/-- With its engine busy the turn takes no work up to here. -/
theorem turnedLive_busy (h : s.busyThrough) : s.turnedLive m = s.beginScanout.judge.readOutputMode m := by
  obtain ⟨u, -, hu⟩ := beginScanout_kept hv h
  have hj : s.beginScanout.judge.engine = s.beginScanout.engine := s.beginScanout.judge_unchanged .unit (by decide)
  unfold State.turnedLive
  rw [takeWork_kept hu, takeWork_kept (by rw [hj]; exact hu)]

section
variable (hq : s.feeder.liveFrame = false → s.feeder.request = none)
include hq

theorem turnedLive_feeder : (s.turnedLive m).feeder = s.feeder.turned m := by
  unfold State.turnedLive
  rw [State.readOutputMode_feeder, State.takeWork_feeder, (judge_into _).1, State.takeWork_feeder, beginScanout_feeder hv hq]
  rfl

end

/-- An engine that is idle, or abandons the strip, takes what is offered as it is offered. -/
theorem turnedLive_freshly (hq : s.feeder.liveFrame = false → s.feeder.request = none) (h : ¬ s.busyThrough) :
    (s.turnedLive m).freshly := by
  have hr : s.beginScanout.takeWork.feeder.request = none := by rw [State.takeWork_feeder, beginScanout_feeder hv hq]; rfl
  have hj : s.beginScanout.takeWork.judge.takeWork.feeder.request = none := by
    rw [State.takeWork_feeder, (judge_into _).1]
    exact hr
  have first := (freshly_of_idle (beginScanout_idle hv h)).work
  exact ((first.on hr (State.judge_unchanged _)).work).on hj (State.readOutputMode_unchanged _ m)

end

theorem turnedLive_unchanged (s : State) (m : Nat) :
    Unchanged ([.strips, .lateness, .stripCounts, .layout] ++ takingWork) s (s.turnedLive m) := by
  have step1 := s.beginScanout_unchanged.comp (State.takeWork_unchanged _)
    (c := [.strips, .lateness, .stripCounts, .unit, .context, .runningJob, .scan, .records, .arbiter])
  have step2 := (step1.comp (State.judge_unchanged _)
    (c := [.strips, .lateness, .stripCounts, .unit, .context, .runningJob, .scan, .records, .arbiter, .raised])).comp
    (State.takeWork_unchanged _)
    (c := [.strips, .lateness, .stripCounts, .unit, .context, .runningJob, .scan, .records, .arbiter, .raised])
  exact step2.comp (State.readOutputMode_unchanged _ m)

/-- With its engine busy the turn sends what the judgement sends, and leaves the unit and the jobs but for a scan that is voided. -/
theorem turnedLive_of_busy (hv : s.feeder.view = .live) (hq : s.feeder.liveFrame = false → s.feeder.request = none) (h : s.busyThrough) :
    (s.turnedLive m).engine.unit = s.engine.unit
      ∧ (s.turnedLive m).jobs =
          (if s.feeder.scanned.judgement.2.2 = true ∧ s.feeder.degraded = false then s.voidScan.jobs else s.jobs)
      ∧ Unchanged [.strips, .lateness, .stripCounts, .layout, .unit, .scan, .records, .arbiter, .raised] s (s.turnedLive m)
      ∧ Sends s.feeder.scanned.judgedOps s.feeder.scanned.judgedNews s (s.turnedLive m) := by
  obtain ⟨u, hu, hu'⟩ := beginScanout_kept hv h
  have hb := s.beginScanout_unchanged
  have hj : s.beginScanout.jobs = s.jobs := hb.jobs
  obtain ⟨-, jobs, sent⟩ := judge_into s.beginScanout
  rw [beginScanout_feeder hv hq] at jobs sent
  have he : s.beginScanout.judge.engine = s.beginScanout.engine := s.beginScanout.judge_unchanged .unit (by decide)
  have mode := State.readOutputMode_unchanged s.beginScanout.judge m
  rw [turnedLive_busy hv h]
  refine ⟨?_, ?_, ?_, ?_⟩
  · rw [show (s.beginScanout.judge.readOutputMode m).engine = _ from mode .unit (by decide), he, hu', hu]
  · have hm : (s.beginScanout.judge.readOutputMode m).jobs = s.beginScanout.judge.jobs := by
      unfold State.readOutputMode
      split <;> rfl
    rw [hm, jobs, hj]
    unfold State.voidScan
    rw [hj]
    rfl
  · exact (hb.comp (State.judge_unchanged _) (c := [.strips, .lateness, .stripCounts, .unit, .scan, .records, .arbiter, .raised])).comp mode
  · exact ((Sends.of_unchanged hb).after sent).before (.of_unchanged mode)

/-! ## Steps 5 to 9 -/

/-- The ramps have stepped, the hold has moved and the sources are latched (R74, R83, R84). -/
def State.shown (s : State) : State := s.stepRamps.moveHold.latchSources

/-- The hold at the newest slot, where a pane shows it (R74). -/
def State.newHold (s : State) (l : Layout) : Option Nat := if ∃ p ∈ l.panes, p.kind = .live then s.intake.newest else none

/-- The state whose sources are latched. -/
abbrev State.displaying (s : State) : State :=
  { s with feeder.layout := rampedLayout s.feeder.layout, intake.hold := s.newHold (rampedLayout s.feeder.layout) }

theorem shown_eq (s : State) :
    s.shown = { s.displaying with feeder.latched := (rampedLayout s.feeder.layout).panes.filterMap s.displaying.latchPane } := by
  have hold : (if (rampedLayout s.feeder.layout).panes.any (fun p => decide (p.kind = .live)) = true then s.intake.newest else none)
      = s.newHold (rampedLayout s.feeder.layout) := by
    unfold State.newHold
    simp only [List.any_eq_true, decide_eq_true_eq]
  unfold State.shown
  rw [stepRamps_eq]
  unfold State.moveHold
  dsimp only
  rw [hold]
  rfl

theorem shown_unchanged (s : State) : Unchanged [.layout, .slots, .strips] s s.shown :=
  (s.stepRamps_unchanged.comp (State.moveHold_unchanged _) (c := [.layout, .slots])).comp (State.latchSources_unchanged _)

/-- The frame is counted, and strip 0 of the next one requested (R70, R73). -/
def State.nextLive (s : State) : State := s.shown.countFrame.beginLiveFrame

theorem frameTurnRest_live (hv : s.feeder.view = .live) : s.frameTurnRest = s.nextLive.takeWork := if_pos hv

theorem State.beginLiveFrame_feeder (s : State) :
    s.beginLiveFrame.feeder = { s.feeder with liveFrame := true, late := false }.requested 0 := State.requestStrip_feeder _ 0

section
variable (h : s.post.holdoffDue = false)
include h

theorem nextLive_feeder :
    s.nextLive.feeder = { s.feeder with
      layout := rampedLayout s.feeder.layout
      latched := (rampedLayout s.feeder.layout).panes.filterMap s.displaying.latchPane
      frameNumber := (s.feeder.frameNumber + 1) % 4294967296, liveFrame := true, late := false }.requested 0 := by
  have due : s.shown.post.holdoffDue = false := by rw [shown_eq]; exact h
  unfold State.nextLive
  rw [State.beginLiveFrame_feeder, countFrame_feeder due, shown_eq]

theorem nextLive_sends : Sends [writeOf 0x20 (s.shown.frameFields ((s.feeder.frameNumber + 1) % 4294967296))] [] s s.nextLive := by
  have due : s.shown.post.holdoffDue = false := by rw [shown_eq]; exact h
  have hn : s.shown.feeder.frameNumber = s.feeder.frameNumber := shown_unchanged s .frameNumber (by decide)
  have sent := countFrame_sends due
  rw [hn] at sent
  exact ((Sends.of_unchanged (shown_unchanged s)).after sent).before (.of_unchanged (State.beginLiveFrame_unchanged _))

theorem nextLive_unchanged :
    Unchanged [.layout, .slots, .strips, .lateness, .frameNumber, .moderation, .timer, .safety, .records, .arbiter] s s.nextLive := by
  have due : s.shown.post.holdoffDue = false := by rw [shown_eq]; exact h
  exact ((shown_unchanged s).comp (countFrame_changes due)
    (c := [.layout, .slots, .strips, .frameNumber, .moderation, .timer, .safety, .records, .arbiter])).comp (State.beginLiveFrame_unchanged _)

theorem nextLive_counted : Counted s s.nextLive := by
  have due : s.shown.post.holdoffDue = false := by rw [shown_eq]; exact h
  exact .after (shown_unchanged s) ((countFrame_counted due).before (State.beginLiveFrame_unchanged _))

theorem nextLive_intake : s.nextLive.intake = { s.intake with hold := s.newHold (rampedLayout s.feeder.layout) } := by
  have due : s.shown.post.holdoffDue = false := by rw [shown_eq]; exact h
  have counted := (countFrame_changes due).intake
  unfold State.nextLive
  rw [(State.beginLiveFrame_unchanged _).intake, counted, shown_eq]

end

/-- What is latched of a pane, by its source (R84). -/
def latchedFrom (u : Setup) (b : Colour) (p : Pane) (i : Nat × Geometry) : LatchedPane :=
  ⟨p.x, p.y, p.w, p.h,
    { source := i.1, ws := i.2.w, hs := i.2.h, wp := p.w, hp := p.h, zoom := p.current, cx := p.cx, cy := p.cy
      gain := (u.profile p.profile).1, coring := (u.profile p.profile).2, mode := p.mode
      black := p.black, white := p.white, copy := none, background := b, destination := 0 }⟩

theorem latchPane_eq (s : State) (p : Pane) :
    s.latchPane p = (s.paneSource p).map (latchedFrom s.post.setup s.feeder.layout.background p) := rfl

/-! ## The fields of the panes (R73) -/

theorem length_leBytes (n v : Nat) : (leBytes n v).length = n := by
  induction n generalizing v with
  | zero => rfl
  | succ n ih => simp [leBytes, ih]

theorem length_paneFields (s : State) (n : Nat) : (s.paneFields n).length = 8 := by
  unfold State.paneFields
  split
  · split <;> simp [length_leBytes, zeros]
  · simp [zeros]

/-- Each of four runs of 8 bytes is found at its place. -/
theorem eight_at {f : Nat → List Byte} (hf : ∀ i, (f i).length = 8) {i : Nat} (hi : i < 4) :
    ((f 0 ++ f 1 ++ f 2 ++ f 3).drop (8 * i)).take 8 = f i := by
  have drop (a b : List Byte) (k : Nat) (h : a.length = 8) : (a ++ b).drop (k + 8) = b.drop k := by
    rw [← h, Nat.add_comm, ← List.drop_drop, List.drop_left]
  simp only [List.append_assoc]
  rcases i with _ | _ | _ | _ | i
  · exact List.take_left' (hf 0)
  · rw [drop _ _ 0 (hf 0)]
    exact List.take_left' (hf 1)
  · rw [drop _ _ 8 (hf 0), drop _ _ 0 (hf 1)]
    exact List.take_left' (hf 2)
  · rw [drop _ _ 16 (hf 0), drop _ _ 8 (hf 1), drop _ _ 0 (hf 2), List.drop_zero, ← hf 3]
    exact List.take_length
  · omega

theorem paneFields_live {p : Pane} {n : Nat} (hv : s.feeder.view = .live) (hp : s.feeder.layout.panes[n]? = some p) :
    s.paneFields n = leBytes 2 p.current ++ leBytes 1 ((s.paneSlot p).elim 0 (· + 1)) ++ [0#8]
      ++ (leBytes 2 (s.reportedCentre n p).1 ++ leBytes 2 (s.reportedCentre n p).2) := by
  unfold State.paneFields
  rw [hp]
  dsimp only
  rw [if_pos hv]
  cases s.paneSlot p <;> simp [zeros]

theorem paneFields_absent {n : Nat} (h : s.feeder.layout.panes.length ≤ n) : s.paneFields n = List.replicate 8 0#8 := by
  unfold State.paneFields
  rw [List.getElem?_eq_none h]
  rfl

/-- The 32 bytes of the four panes. -/
def State.paneRuns (s : State) : List Byte := s.paneFields 0 ++ s.paneFields 1 ++ s.paneFields 2 ++ s.paneFields 3

/-- The frame fields end with those of the four panes (R73). -/
theorem frameFields_panes (s : State) (n : Nat) :
    s.frameFields n = leBytes 4 n ++ leBytes 4 s.intake.frameNumber ++ leBytes 4 s.intake.malformed ++ leBytes 4 s.intake.drops
      ++ leBytes 4 s.feeder.underruns ++ leBytes 4 s.feeder.faults ++ leBytes 4 s.port.correctable
      ++ leBytes 4 s.port.uncorrectable ++ leBytes 4 s.feeder.layout.generation
      ++ leBytes 1 s.feeder.layout.panes.length ++ leBytes 1 s.monitor.reportedState.value
      ++ leBytes 1 s.monitor.levels.black ++ leBytes 1 s.monitor.levels.white
      ++ leBytes 1 (if s.monitor.levels.valid then 1 else 0) ++ List.replicate 7 0#8
      ++ s.paneRuns := by
  unfold State.frameFields State.paneRuns
  simp only [List.append_assoc]
  rfl

/-- The centre reported of a pane with a source is the one its render uses. -/
theorem reportedCentre_of {p : Pane} {l : LatchedPane} (h : s.latchPane p = some l) (n : Nat) :
    s.reportedCentre n p = (l.render.centreX, l.render.centreY) := by
  unfold State.reportedCentre
  rw [h]

theorem length_paneRuns (s : State) : s.paneRuns.length = 32 := by
  simp only [State.paneRuns, List.length_append, length_paneFields]

/-- In LIVE the bytes of a pane are its zoom, its source slot plus one, a reserved byte, and its centre (R73). -/
theorem paneRuns_live {p : Pane} {i : Nat} (hv : s.feeder.view = .live) (hp : s.feeder.layout.panes[i]? = some p) (hi : i < 4) :
    (s.paneRuns.drop (8 * i)).take 4 = leBytes 2 p.current ++ leBytes 1 ((s.paneSlot p).elim 0 (· + 1)) ++ [0#8]
      ∧ ∀ l, s.latchPane p = some l →
        (s.paneRuns.drop (8 * i + 4)).take 4 = leBytes 2 l.render.centreX ++ leBytes 2 l.render.centreY := by
  have fields := (eight_at (length_paneFields s) hi).trans (paneFields_live hv hp)
  have four : (leBytes 2 p.current ++ leBytes 1 ((s.paneSlot p).elim 0 (· + 1)) ++ [0#8]).length = 4 := by
    simp only [List.length_append, length_leBytes, List.length_singleton]
  refine ⟨?_, fun l hl => ?_⟩
  · have h := congrArg (List.take 4) fields
    rwa [List.take_take, List.take_left' four] at h
  · have h := congrArg (List.drop 4) fields
    rwa [List.drop_take, List.drop_drop, List.drop_left' four, reportedCentre_of hl] at h

theorem paneRuns_absent {i : Nat} (h : s.feeder.layout.panes.length ≤ i) (hi : i < 4) :
    (s.paneRuns.drop (8 * i)).take 8 = List.replicate 8 0#8 :=
  (eight_at (length_paneFields s) hi).trans (paneFields_absent h)

/-! ## Taking work twice -/

theorem offeredCapture_stands {r : Render} (h : s.offeredCapture = some r) : s.captureStands := by
  obtain ⟨hs, hr, hn⟩ := offeredCapture_some h
  refine ⟨hs, ?_, r, hr, hn⟩
  by_contra hf
  unfold State.offeredCapture at h
  rw [hr] at h
  simp [hf] at h

theorem offeredJob_stands {j : RunningJob} (h : s.offeredJob = some j) : s.jobStands := by
  obtain ⟨hj, hn, hp, hm, hd⟩ := offeredJob_some h
  refine ⟨hm, hd, ?_, j, hj, hn, hp⟩
  by_contra hf
  unfold State.offeredJob at h
  rw [hj] at h
  simp [hf] at h

/-- An engine that finds nothing offered takes nothing. -/
theorem takeWork_nothing (h1 : ¬ s.stripStands) (h2 : ¬ s.captureStands) (h3 : ¬ s.jobStands) (h4 : s.scanOffered = false) :
    s.takeWork = s := by
  unfold State.takeWork
  split
  · rfl
  · rw [offeredStrip_none.2 h1]
    cases hc : s.offeredCapture with
    | some r => exact absurd (offeredCapture_stands hc) h2
    | none =>
      cases hj : s.offeredJob with
      | some j => exact absurd (offeredJob_stands hj) h3
      | none => simp [h4]

/-- What the engine has taken, it has taken once. -/
theorem takeWork_again (s : State) : s.takeWork.takeWork = s.takeWork := by
  have began {x : State} {w : Work} {ps : List Part} (h : s.takeWork = x.startUnit w ps) : s.takeWork.takeWork = s.takeWork :=
    takeWork_kept (by rw [h]; exact x.startUnit_unit w ps)
  rcases s.takeWork_is with h | ⟨w, ps, h⟩ | ⟨w, ps, h⟩ | ⟨j, w, ps, -, h⟩ | ⟨-, h⟩
  · rw [h, h]
  · exact began h
  · exact began h
  · exact began h
  · cases e : s.takeWork.engine.unit with
    | some u => exact takeWork_kept e
    | none =>
      have idle : s.engine.unit = none := by
        cases hu : s.engine.unit with
        | none => rfl
        | some u =>
          rw [takeWork_kept hu, hu] at e
          exact absurd e nofun
      obtain ⟨h1, h2, h3⟩ := (takeWork_tookNext idle).2 e
      exact takeWork_nothing h1 h2 h3 (scanOffered_of_scan (by rw [h]; exact scanFrom_scan _ _ _))

theorem closeWork_takeWork (s0 s : State) : s0.closeWork s.takeWork = s0.closeWork s := by
  rw [State.closeWork, takeWork_again, State.closeWork]

/-- A busy engine goes on, and takes nothing of the jobs. -/
theorem closeWork_busy (s0 : State) (h : z.engine.unit = some u) :
    (s0.closeWork z).engine.unit = z.engine.unit ∧ (s0.closeWork z).jobs = z.jobs := by
  rw [State.closeWork, takeWork_kept h]
  exact ⟨congrArg Engine.unit (s0.close_engine z), s0.close_jobs z⟩

/-- The turn in LIVE: a posted layout is read, or the next frame begins (R72, R75). -/
theorem turnFrame_live (hv : s.feeder.view = .live) (hq : s.feeder.liveFrame = false → s.feeder.request = none) (m : Nat) :
    s.turnFrame m =
      if s.feeder.posted = true then
        { s.turnedLive m with feeder.layoutRead := .waiting }.issue .feeder .feeder (.read .layout 0x400 [])
      else (s.turnedLive m).nextLive.takeWork := by
  have hf := turnedLive_feeder (m := m) hv hq
  have hj : s.frameTurnJudge.readOutputMode m = s.turnedLive m := by
    unfold State.frameTurnJudge
    rw [if_pos hv]
    rfl
  have hr : (s.turnedLive m).readsLayout = s.feeder.posted := by
    unfold State.readsLayout
    rw [hf]
    show (s.feeder.posted && (decide (s.feeder.view = .live) || decide (s.feeder.view = .standby))) = _
    rw [hv]
    exact Bool.and_true _
  unfold State.turnFrame
  rw [hj]
  dsimp only
  rw [hr, frameTurnRest_live (by rw [hf]; exact hv)]

/-! ## The turn in LIVE after its first three steps -/

/-- The read of the layout record is issued, and the feeder waits for it (R72). -/
def State.layoutAsked (s : State) : State :=
  { s with feeder.layoutRead := .waiting }.issue .feeder .feeder (.read .layout 0x400 [])

theorem layoutAsked_unchanged (s : State) : Unchanged [.frameTurn, .records, .arbiter] s s.layoutAsked := by
  refine .comp (a := [.frameTurn]) (fun p hp => ?_) (State.issue_unchanged _ _ _ _)
  cases p <;> simp_all [same]

theorem layoutAsked_feeder (s : State) : s.layoutAsked.feeder = { s.feeder with layoutRead := .waiting } := State.issue_feeder _ _ _ _

theorem layoutAsked_sends (s : State) : Sends [.read .layout 0x400 []] [] s s.layoutAsked := .after .same (State.issue_sends _ _ _ _)

/-- The first three steps of the turn in LIVE lead from s to e, and the step goes on from there (R72). -/
structure LiveTurn (s e : State) : Prop where
  next : exec .frameTurn s = .next (s.closeWork (if s.feeder.posted = true then e.layoutAsked else e.nextLive))
  feeder : e.feeder = { s.feeder with nextStrip := 0 }.turned s.post.setup.outputMode
  changes : Unchanged ([.raster, .strips, .lateness, .stripCounts, .layout] ++ takingWork) s e
  idle : ¬ s.busyThrough → e.freshly
  unit : s.busyThrough → e.engine.unit = s.engine.unit
  scan : s.busyThrough → e.jobs.scan =
    if s.feeder.scanned.judgement.2.2 = true ∧ s.feeder.degraded = false then s.jobs.scan.map (fun x => { x with void := true }) else s.jobs.scan
  busy : s.busyThrough →
    Unchanged [.raster, .strips, .lateness, .stripCounts, .layout, .unit, .scan, .records, .arbiter, .raised] s e
  sends : s.busyThrough → Sends s.feeder.scanned.judgedOps s.feeder.scanned.judgedNews s e

/-- The turn comes to the feeder with the raster at strip 0 (R68). -/
theorem liveTurn_of (hon : s.feeder.rasterOn = true) (hn : s.feeder.nextStrip + 1 = s.frameStrips) (hr : s.feeder.layoutRead = .idle)
    (hv : s.feeder.view = .live) (hq : s.feeder.liveFrame = false → s.feeder.request = none) :
    LiveTurn s ((s.moveRaster 0).turnedLive s.post.setup.outputMode) := by
  have hx := exec_turn hon hn
  have moved := s.moveRaster_unchanged 0
  have hv' : (s.moveRaster 0).feeder.view = .live := hv
  have hq' : (s.moveRaster 0).feeder.liveFrame = false → (s.moveRaster 0).feeder.request = none := hq
  have busy (h : s.busyThrough) := turnedLive_of_busy (m := s.post.setup.outputMode) hv' hq' h
  rw [feederTakes_of_idle (s := s.moveRaster 0) hr, show (s.moveRaster 0).feederEvent (.turn _) = _ from turnFrame_live hv' hq' _] at hx
  refine ⟨hx.trans ?_, turnedLive_feeder hv' hq', moved.comp (turnedLive_unchanged _ _), turnedLive_freshly hv' hq',
    fun h => (busy h).1, fun h => ?_, fun h => moved.comp (busy h).2.2.1, fun h => (Sends.of_unchanged moved).after (busy h).2.2.2⟩
  · show Host.Outcome.next (s.closeWork (if s.feeder.posted = true then _ else _)) = _
    split
    · rfl
    · rw [closeWork_takeWork]
  · rw [(busy h).2.1, apply_ite Jobs.scan]
    rfl

section
variable {e : State} (turn : LiveTurn s e) {changed : List Piece}
include turn

/-- Of the engine and the scan, the rest of the turn leaves what the first steps left; an engine not kept busy has taken its work. -/
theorem LiveTurn.engine (rest : Unchanged changed e z)
    (k : ∀ p ∈ [Piece.mode, .context, .runningJob, .levels, .unit, .views, .jobEntries, .scan], p ∉ changed := by decide) :
    (s.busyThrough → (s.closeWork z).engine.unit = s.engine.unit
      ∧ (s.closeWork z).jobs.scan =
        if s.feeder.scanned.judgement.2.2 = true ∧ s.feeder.degraded = false then s.jobs.scan.map (fun x => { x with void := true })
        else s.jobs.scan)
    ∧ (¬ s.busyThrough → (∀ u, (s.closeWork z).engine.unit = some u → (s.closeWork z).justBegun u)
      ∧ ((s.closeWork z).engine.unit = none →
        ¬ (s.closeWork z).stripStands ∧ ¬ (s.closeWork z).captureStands ∧ ¬ (s.closeWork z).jobStands)) := by
  have hu : z.engine = e.engine := rest .unit (k _ (by simp))
  have hj : z.jobs = e.jobs := rest.jobs fun p hp => k p (by
    simp only [List.mem_cons, List.not_mem_nil, or_false] at hp ⊢
    tauto)
  refine ⟨fun h => ?_, fun h => ?_⟩
  · have unit := turn.unit h
    have scan := turn.scan h
    obtain ⟨u, hs, -⟩ := h
    obtain ⟨k3, k4⟩ := closeWork_busy s (z := z) (by rw [hu, unit, hs])
    exact ⟨by rw [k3, hu, unit], by rw [k4, hj, scan]⟩
  · exact ((turn.idle h).on (by rw [turn.feeder]; rfl) rest fun p hp => k p (by
      simp only [List.mem_cons, List.not_mem_nil, or_false] at hp ⊢
      tauto)).closed s

/-- What the turn did with its engine busy. -/
theorem LiveTurn.did {new : List RecordOp} {own : List Piece} (h : s.busyThrough) (rest : Unchanged changed e z) (sent : Sends new [] e z)
    (hu : Piece.unit ∉ changed := by decide) (kc : Piece.context ∉ own ∧ Piece.runningJob ∉ own := by decide)
    (k : changed ++ [Piece.raster, .strips, .lateness, .stripCounts, .layout] ⊆ own ++ [Piece.unit, .scan, .records, .arbiter, .raised] := by decide) :
    Did own (s.feeder.scanned.judgedOps ++ new) s.feeder.scanned.judgedNews s (s.closeWork z) := by
  have busy := turn.busy h
  have sends := turn.sends h
  have unit := turn.unit h
  obtain ⟨u, hs, -⟩ := h
  refine .of_busy hs (by rw [show z.engine = _ from rest .unit hu, unit, hs]) (busy.comp rest (fun p hp => ?_) fun p hp => ?_)
    (sends.thenOps sent) kc
  · have hp' : p ∈ [Piece.raster, .strips, .lateness, .stripCounts, .layout] ∨ p ∈ [Piece.unit, .scan, .records, .arbiter, .raised] := by
      simp only [List.mem_cons, List.not_mem_nil, or_false] at hp ⊢
      tauto
    exact hp'.elim (fun h => k (List.mem_append_right _ h)) (List.mem_append_right _)
  · exact k (List.mem_append_left _ hp)

end

end Sys2Proof.Machine
end

section

open Sys2Proof Sys2Proof.Machine

/-- Settles O51: the turn in LIVE by its first three steps, and by the read of a posted layout or the beginning of the next frame. -/
theorem frameTurnsInLive : Obligations.FrameTurnsInLive := by
  intro s hon hn hr hv hq due f size m base missed late underruns free judged ops news busy common
  have turn := liveTurn_of hon hn hr hv hq
  obtain ⟨e, he⟩ : ∃ e, e = (s.moveRaster 0).turnedLive s.post.setup.outputMode := ⟨_, rfl⟩
  rw [← he] at turn
  have hx := turn.next
  have hef := turn.feeder
  have hb : ({ s.feeder with nextStrip := 0 } : Feeder).layoutIn m = base := by
    show (if _ then _ else defaultLayout (rasterSize m)) = _
    rw [rasterSize_eq]
    rfl
  have hl : e.feeder.layout = base := by rw [hef]; exact hb
  have free' : (if s.feeder.liveFrame = true then !s.feeder.scanning else s.feeder.scanning) = !free := by
    show _ = !(if f.liveFrame = true then f.scanning else !f.scanning)
    cases f.liveFrame <;> simp [f]
  refine ⟨fun hp => ?_, fun hp => ?_⟩
  · rw [if_pos hp] at hx
    have issued := layoutAsked_unchanged e
    have htf : (s.closeWork e.layoutAsked).feeder = _ := (State.closeWork_feeder s _).trans (layoutAsked_feeder e)
    rw [hef] at htf
    have all : Unchanged ([.raster, .strips, .lateness, .stripCounts, .frameTurn, .layout] ++ takingWork) s (s.closeWork e.layoutAsked) :=
      (turn.changes.comp issued (c := [.raster, .strips, .lateness, .stripCounts, .frameTurn, .layout] ++ takingWork)).comp
        (s.closeWork_unchanged _) (List.Subset.refl _)
    obtain ⟨kept, taken⟩ := turn.engine issued
    refine ⟨_, hx, ⟨?_, ?_, ?_, ?_, ?_, ?_, ?_, ?_, ?_, ?_, kept, taken⟩, ?_, ?_, ?_, ?_, ?_, ?_, ?_, ?_, ?_, ?_, all,
      fun h => turn.did h issued (layoutAsked_sends e)⟩
    case refine_8 => rw [htf]; exact hon
    case refine_9 => rw [htf]; exact free'
    case refine_12 => rw [htf]; exact hp
    case refine_15 => rw [htf]; exact hb
    all_goals rw [htf] <;> rfl
  · rw [if_neg (fun h => Bool.false_ne_true (hp.symm.trans h))] at hx
    intro changed layout hold slotOf source latch n
    have hi : e.intake = s.intake := turn.changes.intake
    have hm : e.monitor = s.monitor := turn.changes.monitor
    have herr := turn.changes .errors (by decide)
    have hset : e.post.setup = s.post.setup := (turn.changes .setup (by decide)).1
    have due' : e.post.holdoffDue = false := (turn.changes .moderation (by decide)).2.2.trans due
    have hhold : e.newHold (rampedLayout e.feeder.layout) = hold := by
      show (if _ then e.intake.newest else none) = if _ then s.intake.newest else none
      rw [hl, hi]
    have hslot (p : Pane) : e.displaying.paneSlot p = slotOf p := by
      unfold State.paneSlot
      show (match p.kind with | .live => e.newHold _ | .freeze => e.intake.freezeSlot | .stored => none) = _
      rw [hhold]
      cases hk : p.kind <;> simp only [slotOf, hk, hi]
    have hlatch : e.displaying.latchPane = latch := by
      funext p
      have hs : e.displaying.paneSource p = source p := by
        unfold State.paneSource
        rw [hslot]
        show (match p.kind with | .stored => _ | _ => (slotOf p).map fun n => (slotAddr n, (e.intake.slot n).geometry.getD ⟨0, 0⟩)) = _
        cases hk : p.kind <;> simp only [source, hk, hi] <;> rfl
      rw [latchPane_eq, hs]
      show Option.map (latchedFrom e.post.setup (rampedLayout e.feeder.layout).background p) _ = _
      rw [hset, hl]
      rfl
    have hzf := nextLive_feeder due'
    rw [hl, hlatch] at hzf
    have rest := nextLive_unchanged due'
    have hzi := nextLive_intake due'
    have counted := nextLive_counted due'
    have sent := nextLive_sends due'
    obtain ⟨z, hz⟩ : ∃ z, z = e.nextLive := ⟨_, rfl⟩
    rw [← hz] at hx hzf hzi rest counted sent
    rw [hef] at hzf
    have htf : (s.closeWork z).feeder = _ := (State.closeWork_feeder s z).trans hzf
    have all : Unchanged (changed ++ takingWork) s (s.closeWork z) :=
      (turn.changes.comp rest (c := changed ++ takingWork)).comp (s.closeWork_unchanged z) (List.Subset.refl _)
    obtain ⟨kept, taken⟩ := turn.engine rest
    refine ⟨_, hx, ⟨?_, ?_, ?_, ?_, ?_, ?_, ?_, ?_, ?_, ?_, kept, taken⟩,
      ?_, ?_, ?_, ?_, ?_, ?_, ?_, ?_, ?_, all, fun h => ?_⟩
    case refine_9 => rw [htf]; exact free'
    case refine_8 => rw [htf]; exact hon
    case refine_11 => exact (Counted.after turn.changes counted).before (s.closeWork_unchanged z)
    case refine_15 => rw [State.closeWork_intake, hzi, hhold]
    case refine_16 => rw [State.closeWork_intake, hzi, hi]
    case refine_17 => rw [State.closeWork_intake, hzi, hi]
    case refine_19 =>
      rw [htf]
      split
      next h =>
        rw [Feeder.requested_crossed h]
        refine ⟨congrArg some (congrArg (StripRequest.mk 0) ?_), rfl, rfl⟩
        show (!if s.feeder.liveFrame = true then !s.feeder.scanning else s.feeder.scanning) = free
        rw [free', Bool.not_not]
      next h =>
        rw [Feeder.requested_uncrossed h]
        refine ⟨rfl, ?_, ?_⟩
        · show (if (if s.feeder.liveFrame = true then !s.feeder.scanning else s.feeder.scanning) = true then _ else _) = _
          rw [free']
          cases free <;> rfl
        · show (if (if s.feeder.liveFrame = true then !s.feeder.scanning else s.feeder.scanning) = true then _ else _) = _
          rw [free']
          cases free <;> rfl
    case refine_20 =>
      have hsf : e.shown.feeder = { e.feeder with layout := layout, latched := layout.panes.filterMap latch } := by
        rw [shown_eq, hlatch, ← show rampedLayout e.feeder.layout = layout by rw [hl]]
      have hsv : e.shown.feeder.view = .live := by
        rw [hsf, hef]
        exact hv
      have hsl : e.shown.feeder.layout = layout := by rw [hsf]
      have hsp : e.shown.latchPane = latch := by
        rw [← hlatch, shown_eq]
        rfl
      have hss (p : Pane) : e.shown.paneSlot p = slotOf p := by
        rw [← hslot, shown_eq]
        rfl
      refine ⟨e.shown.paneRuns, length_paneRuns _, fun i p hp hi => ?_, fun i hw hi => paneRuns_absent (by rw [hsl]; exact hw) hi, ?_⟩
      · rw [← hss, ← hsp]
        exact paneRuns_live hsv (by rw [hsl]; exact hp) hi
      · have hsi : e.shown.intake.frameNumber = s.intake.frameNumber ∧ e.shown.intake.malformed = s.intake.malformed
            ∧ e.shown.intake.drops = s.intake.drops := by rw [← hi, shown_eq]; exact ⟨rfl, rfl, rfl⟩
        have hsq : e.shown.port.correctable = s.port.correctable ∧ e.shown.port.uncorrectable = s.port.uncorrectable := by
          rw [shown_eq]; exact ⟨herr.1, herr.2.1⟩
        have hsm : e.shown.monitor = s.monitor := by rw [← hm, shown_eq]
        have hsu : e.shown.feeder.underruns = underruns ∧ e.shown.feeder.faults = f.faults := by rw [hsf, hef]; exact ⟨rfl, rfl⟩
        have hsn : (e.feeder.frameNumber + 1) % 4294967296 = n := by rw [hef]; rfl
        rw [hsn, frameFields_panes, hsi.1, hsi.2.1, hsi.2.2, hsq.1, hsq.2, hsm, hsu.1, hsu.2, hsl] at sent
        exact turn.did (own := [.raster, .strips, .lateness, .stripCounts, .layout, .frameNumber, .moderation, .timer, .safety, .slots])
          h rest sent
    all_goals rw [htf] <;> rfl

end

section
/-! SUPPORT. The end of the wait for the layout read, and what was kept for the feeder during it (R72, R155). -/

namespace Sys2Proof.Machine

set_option Elab.async false

variable {s t x y z : State} {f : Feeder} {m : Nat} {bytes : List Byte}

/-! ## What the engine takes does not read the rest of the feeder -/

theorem makeGrant_feeder (s : State) (f : Feeder) : ({ s with feeder := f } : State).makeGrant = { s.makeGrant with feeder := f } := by
  have h : ({ s with feeder := f } : State).arbitrate = s.arbitrate := rfl
  unfold State.makeGrant
  rw [h]
  by_cases k : (s.port.grant.isSome || !s.arbiterOn) = true
  · rw [if_pos k]
    exact if_pos k
  · rw [if_neg k]
    refine (if_neg k).trans ?_
    cases s.arbitrate <;> rfl

theorem issue_feeder (s : State) (f : Feeder) (actor issuer : Block) (op : RecordOp) :
    ({ s with feeder := f } : State).issue actor issuer op = { s.issue actor issuer op with feeder := f } := by
  have wait (b : Block) : ({ s with feeder := f } : State).waiting b = s.waiting b := rfl
  unfold State.issue State.emit State.put
  dsimp only
  rw [wait, wait]
  split
  · rfl
  split
  · rfl
  unfold State.join
  dsimp only
  split
  · exact makeGrant_feeder { s with port.queue := s.port.queue ++ [op] } f
  · rfl

theorem startUnit_feeder (s : State) (f : Feeder) (w : Work) (ps : List Part) :
    ({ s with feeder := f } : State).startUnit w ps = { s.startUnit w ps with feeder := f } :=
  makeGrant_feeder (s.setUnit { work := w, parts := ps }) f

theorem scanFrom_feeder (s : State) (f : Feeder) (sc : Scan) (n : Nat) :
    ({ s with feeder := f } : State).scanFrom sc n = { s.scanFrom sc n with feeder := f } := by
  unfold State.scanFrom
  dsimp only
  split
  · exact issue_feeder { s with jobs.scan := some { sc with reading := some _ } } f _ _ _
  · rfl

/-- Work is taken by the request, the latched panes and the degraded flag alone (R94, R95, R98). -/
theorem takeWork_with_feeder (hr : f.request = s.feeder.request) (hl : f.latched = s.feeder.latched) (hd : f.degraded = s.feeder.degraded) :
    ({ s with feeder := f } : State).takeWork = { s.takeWork with feeder := f } := by
  have strip : ({ s with feeder := f } : State).offeredStrip = s.offeredStrip := by simp only [State.offeredStrip, hr]
  have capture : ({ s with feeder := f } : State).offeredCapture = s.offeredCapture := rfl
  have job : ({ s with feeder := f } : State).offeredJob = s.offeredJob := by
    unfold State.offeredJob
    dsimp only
    rw [hd]
    rfl
  have scan : ({ s with feeder := f } : State).scanOffered = s.scanOffered := by
    unfold State.scanOffered
    dsimp only
    rw [hd]
    rfl
  unfold State.takeWork
  rw [strip, capture, job, scan]
  dsimp only
  split
  · rfl
  cases s.offeredStrip with
  | some q =>
    unfold State.startStrip
    dsimp only
    rw [hl]
    exact startUnit_feeder s f _ _
  | none =>
    cases s.offeredCapture with
    | some r => exact startUnit_feeder { s with capture.context.next := s.capture.context.next + 1 } f _ _
    | none =>
      cases s.offeredJob with
      | some j =>
        dsimp only
        unfold State.startJobPiece
        dsimp only
        split <;> exact startUnit_feeder { s with jobs.running := some { j with next := j.next + 1 } } f _ _
      | none =>
        dsimp only
        split
        · exact scanFrom_feeder s f _ 0
        · rfl

/-! ## What was kept during the wait (R72) -/

/-- A scan-out or a TAKE_LAYOUT at the feeder outside LIVE. -/
def Feeder.keptEvent (f : Feeder) : FeederEvent → Feeder
  | .scanout k => if k + 1 < stripCount f.outputMode then { f with display := .solid ⟨16, 128, 128⟩ } else f
  | .takeLayout => { f with posted := true }
  | _ => f

/-- The event is a scan-out or a TAKE_LAYOUT. -/
def FeederEvent.still (e : FeederEvent) : Prop := e = .takeLayout ∨ ∃ k, e = .scanout k

theorem feederTakes_still {e : FeederEvent} (he : e.still) (hv : s.feeder.view ≠ .live) (hr : s.feeder.layoutRead = .idle) :
    s.feederTakes e = { s with feeder := s.feeder.keptEvent e } := by
  rw [feederTakes_of_idle hr]
  rcases he with rfl | ⟨k, rfl⟩
  · rfl
  · show s.stripScanout k = _
    unfold Feeder.keptEvent
    dsimp only
    split
    next h => exact stripScanout_blank h fun k => hv k.1
    next h => exact if_neg h

/-- What the events leave of the feeder: the display is blank or as it was, and the posted mark may be set. -/
theorem keptEvents_is (l : List FeederEvent) (he : ∀ e ∈ l, e.still) (f : Feeder) :
    ∃ d p, l.foldl Feeder.keptEvent f = { f with display := d, posted := p } ∧ (p = true ↔ f.posted = true ∨ .takeLayout ∈ l)
      ∧ (d = f.display ∨ d = .solid ⟨16, 128, 128⟩)
      ∧ ((∃ k, .scanout k ∈ l ∧ k + 1 < stripCount f.outputMode) → d = .solid ⟨16, 128, 128⟩)
      ∧ ((∀ k, .scanout k ∉ l) → d = f.display) := by
  induction l generalizing f with
  | nil => exact ⟨f.display, f.posted, rfl, by simp, .inl rfl, by simp, fun _ => rfl⟩
  | cons e l ih =>
    obtain ⟨d, p, hf, hp, hd, hs, hn⟩ := ih (fun x hx => he x (List.mem_cons_of_mem _ hx)) (f.keptEvent e)
    rw [List.foldl_cons, hf]
    rcases he e List.mem_cons_self with rfl | ⟨i, rfl⟩
    · refine ⟨d, p, rfl, ?_, hd, ?_, ?_⟩
      · simpa [Feeder.keptEvent] using hp
      · rintro ⟨k, hk, hc⟩
        exact hs ⟨k, by simpa using hk, hc⟩
      · intro h
        exact hn fun k hk => h k (List.mem_cons_of_mem _ hk)
    · by_cases hi : i + 1 < stripCount f.outputMode
      · have hk : f.keptEvent (.scanout i) = { f with display := .solid ⟨16, 128, 128⟩ } := if_pos hi
        rw [hk] at hp hd ⊢
        have blank : d = .solid ⟨16, 128, 128⟩ := hd.elim id id
        refine ⟨d, p, rfl, ?_, .inr blank, fun _ => blank, fun h => absurd List.mem_cons_self (h i)⟩
        simpa using hp
      · have hk : f.keptEvent (.scanout i) = f := if_neg hi
        rw [hk] at hp hd hs ⊢
        refine ⟨d, p, rfl, ?_, hd, ?_, fun h => absurd List.mem_cons_self (h i)⟩
        · simpa using hp
        · rintro ⟨k, hk, hc⟩
          rcases List.mem_cons.1 hk with e | hk
          · cases e
            exact absurd hc hi
          · exact hs ⟨k, hk, hc⟩

/-- An event leaves what the engine takes work by, the view and the layout read. -/
theorem keptEvent_leaves (f : Feeder) (e : FeederEvent) :
    (f.keptEvent e).request = f.request ∧ (f.keptEvent e).latched = f.latched ∧ (f.keptEvent e).degraded = f.degraded
      ∧ (f.keptEvent e).view = f.view ∧ (f.keptEvent e).layoutRead = f.layoutRead := by
  unfold Feeder.keptEvent
  split
  · split <;> exact ⟨rfl, rfl, rfl, rfl, rfl⟩
  · exact ⟨rfl, rfl, rfl, rfl, rfl⟩
  · exact ⟨rfl, rfl, rfl, rfl, rfl⟩

/-- The events kept are acted on one by one, and the engine takes work as it would at their end. -/
theorem feederAll_still (l : List FeederEvent) (he : ∀ e ∈ l, e.still) (hv : s.feeder.view ≠ .live) (hr : s.feeder.layoutRead = .idle) :
    State.feederAll l s = if l = [] then s else ({ s with feeder := l.foldl Feeder.keptEvent s.feeder } : State).takeWork := by
  induction l generalizing s with
  | nil => rfl
  | cons e l ih =>
    obtain ⟨-, -, -, k4, k5⟩ := keptEvent_leaves s.feeder e
    obtain ⟨x, hx⟩ : ∃ x : State, x = { s with feeder := s.feeder.keptEvent e } := ⟨_, rfl⟩
    have hf : x.takeWork.feeder = s.feeder.keptEvent e := by rw [State.takeWork_feeder, hx]
    have rest := ih (fun y hy => he y (List.mem_cons_of_mem _ hy)) (s := x.takeWork) (by rw [hf, k4]; exact hv) (by rw [hf, k5]; exact hr)
    have next : State.feederAll (e :: l) s = State.feederAll l x.takeWork := by
      rw [State.feederAll, feederTakes_still (he e List.mem_cons_self) hv hr, hx]
    rw [next, rest, if_neg (List.cons_ne_nil e l), List.foldl_cons, hf]
    split
    next hl => rw [hl, List.foldl_nil, hx]
    next hl =>
      obtain ⟨d, p, hd, -⟩ := keptEvents_is l (fun y hy => he y (List.mem_cons_of_mem _ hy)) (s.feeder.keptEvent e)
      have step : ({ x with feeder := l.foldl Feeder.keptEvent (s.feeder.keptEvent e) } : State).takeWork
          = { x.takeWork with feeder := l.foldl Feeder.keptEvent (s.feeder.keptEvent e) } := by
        refine takeWork_with_feeder ?_ ?_ ?_ <;> rw [hd, hx]
      rw [← step, takeWork_again, hx]

/-! ## The record has been read (R72, R155) -/

/-- The wait for the layout record is over. -/
def State.readOver (s : State) : State := { s with feeder.layoutRead := .idle, feeder.posted := false, feeder.deferred := [] }

theorem State.readOver_unchanged (s : State) : Unchanged [.frameTurn] s s.readOver := by
  intro p hp
  cases p <;> simp_all [same, State.readOver]

theorem resumeTurn_read (s : State) (bytes : List Byte) :
    s.resumeTurn (some bytes) = State.feederAll s.feeder.deferred (s.readOver.applyLayout bytes).frameTurnRest := rfl

theorem resumeTurn_error (s : State) :
    s.resumeTurn none =
      State.feederAll s.feeder.deferred (s.readOver.refuseLayout 6 s.feeder.layout.generation 0).frameTurnRest := rfl

/-- A record that has been read waits for nothing in the record queue. -/
theorem exec_layoutReadDone_got (h : s.feeder.layoutRead = .got bytes) :
    exec .layoutReadDone s = .next (s.closeWork (s.settle.resumeTurn (some bytes)).shutdownTest) := by
  have hd : s.drain (fun x => x.feeder.layoutRead.settled) = s.settle := State.drain_done (by rw [h]; rfl)
  show execLayoutReadDone s = _
  unfold execLayoutReadDone
  rw [if_neg (by rw [h]; nofun), hd]
  dsimp only
  rw [State.settle_feeder, h]

theorem exec_layoutReadDone_error (h : s.feeder.layoutRead = .error bytes) :
    exec .layoutReadDone s = .next (s.closeWork (s.settle.resumeTurn none).shutdownTest) := by
  have hd : s.drain (fun x => x.feeder.layoutRead.settled) = s.settle := State.drain_done (by rw [h]; rfl)
  show execLayoutReadDone s = _
  unfold execLayoutReadDone
  rw [if_neg (by rw [h]; nofun), hd]
  dsimp only
  rw [State.settle_feeder, h]

end Sys2Proof.Machine
end

section
/-! SUPPORT. The frame turn after its layout read, in STANDBY and in LIVE (R72, R73, R76, R80). -/

namespace Sys2Proof.Machine

set_option Elab.async false

variable {s t x y z : State} {l : Layout} {slots : List Slot} {k : EventKind} {a b c m : Nat} {changed : List Piece}

/-! ## What the frame fields report (R73, R178) -/

theorem latchPane_congr (hi : x.intake = y.intake) (hs : x.post.setup = y.post.setup) (hl : x.feeder.layout = y.feeder.layout) :
    x.latchPane = y.latchPane := by
  funext p
  have slot : x.paneSlot p = y.paneSlot p := by unfold State.paneSlot; rw [hi]
  have source : x.paneSource p = y.paneSource p := by unfold State.paneSource; rw [slot, hi]
  rw [latchPane_eq, latchPane_eq, source, hs, hl]

/-- The frame fields are those of the pieces that they report. -/
theorem frameFields_congr (hi : x.intake = y.intake) (hm : x.monitor = y.monitor) (hs : x.post.setup = y.post.setup)
    (hp : x.port.correctable = y.port.correctable ∧ x.port.uncorrectable = y.port.uncorrectable) (hv : x.feeder.view = y.feeder.view)
    (hl : x.feeder.layout = y.feeder.layout) (hu : x.feeder.underruns = y.feeder.underruns ∧ x.feeder.faults = y.feeder.faults)
    (hn : x.feeder.frameNumber = y.feeder.frameNumber) (n : Nat) : x.frameFields n = y.frameFields n := by
  have slot (p : Pane) : x.paneSlot p = y.paneSlot p := by unfold State.paneSlot; rw [hi]
  have centre (i : Nat) (p : Pane) : x.reportedCentre i p = y.reportedCentre i p := by
    unfold State.reportedCentre
    rw [latchPane_congr hi hs hl, hn]
  have pane (i : Nat) : x.paneFields i = y.paneFields i := by
    unfold State.paneFields
    simp only [hl, hv, slot, centre]
  unfold State.frameFields
  simp only [hi, hm, hp.1, hp.2, hl, hu.1, hu.2, pane]

/-! ## The test of R187 -/

theorem countFrame_waitsOn (h : s.post.holdoffDue = false) : WaitsOn s s.countFrame := by
  rw [countFrame_of h]
  exact (State.issue_waitsOn _ _ _ _ : WaitsOn s (s.issueWrite .feeder .post _)).trans .same

/-- The feeder's going on after its wait does not meet the test of R187, and the engine takes its work at the end. -/
theorem closeWork_resumed (up : s.staysUp) (h : Unchanged changed s x) (hw : WaitsOn s x) (he : x.entriesDone = s.entriesDone)
    (hz : z = x ∨ z = x.takeWork) (k : ∀ p ∈ [Piece.mode, .context, .runningJob], p ∉ changed := by decide) :
    s.closeWork z.shutdownTest = s.closeWork x := by
  have h1 : x.control.mode = s.control.mode := h .mode (k _ (by simp))
  have h2 : x.capture.context = s.capture.context := h .context (k _ (by simp))
  have h3 : x.jobs.running = s.jobs.running := h .runningJob (k _ (by simp))
  rcases hz with rfl | rfl
  · rw [shutdownTest_unmet up h1 he (by rw [h2]) (fun e => h3 ▸ e) hw]
  · rw [shutdownTest_unmet (t := x.takeWork) up (by rw [State.takeWork_control, h1]) ?_ ?_ ?_ (hw.trans (takeWork_waitsOn x)),
      closeWork_takeWork]
    · unfold State.entriesDone at he ⊢
      rw [State.takeWork_control, State.takeWork_feeder, he]
    · rw [State.takeWork_capture, ← h2]
    · intro e
      have moved := x.takeWork_jobs.2.2
      rw [e, h3] at moved
      cases hj : s.jobs.running with
      | none => rfl
      | some j => simp [hj] at moved

/-! ## The answer to the layout -/

/-- The layout is answered with an event, and is the working layout l with these slots (R76, R79, R80). -/
def State.answered (s : State) (l : Layout) (slots : List Slot) (k : EventKind) (a b c : Nat) : State :=
  { s with feeder.layout := l, intake.slots := slots }.raise .feeder k a b c

theorem State.answered_feeder (s : State) : (s.answered l slots k a b c).feeder = { s.feeder with layout := l } := State.raise_feeder _ _ _ _ _ _

theorem State.answered_intake (s : State) : (s.answered l slots k a b c).intake = { s.intake with slots := slots } := State.raise_intake _ _ _ _ _ _

theorem State.answered_unchanged (s : State) : Unchanged [.layout, .slots, .raised, .records] s (s.answered l slots k a b c) := by
  refine .comp (a := [.layout, .slots]) (fun p hp => ?_) (State.raise_unchanged _ _ _ _ _ _)
  cases p <;> simp_all [same]

theorem State.answered_sends (s : State) : Sends [] [(.feeder, k, a, b, c)] s (s.answered l slots k a b c) :=
  .after .same (State.raise_sends _ _ _ _ _ _)

theorem State.answered_waitsOn (s : State) : WaitsOn s (s.answered l slots k a b c) := .trans .same (State.raise_waitsOn _ _ _ _ _ _)

theorem refuseLayout_answered (s : State) (reason generation pane : Nat) :
    s.refuseLayout reason generation pane = s.answered s.feeder.layout s.intake.slots .layoutRefused reason generation pane := rfl

/-- The record has been answered, with the wait over. -/
def State.resumed (s : State) (l : Layout) (slots : List Slot) (k : EventKind) (a b c : Nat) : State :=
  s.settle.readOver.answered l slots k a b c

section
variable (s l slots k a b c)

theorem resumed_feeder :
    (s.resumed l slots k a b c).feeder = { s.feeder with layoutRead := .idle, posted := false, deferred := [], layout := l } := by
  rw [State.resumed, State.answered_feeder, State.readOver, State.settle_feeder]

theorem resumed_intake : (s.resumed l slots k a b c).intake = { s.intake with slots := slots } := by
  rw [State.resumed, State.answered_intake, State.readOver, State.settle_intake]

theorem resumed_unchanged : Unchanged [.frameTurn, .layout, .slots, .raised, .records, .arbiter] s (s.resumed l slots k a b c) :=
  (s.settle_unchanged.comp s.settle.readOver_unchanged (c := [.frameTurn, .arbiter])).comp (State.answered_unchanged _)

theorem resumed_sends : Sends [] [(.feeder, k, a, b, c)] s (s.resumed l slots k a b c) :=
  (Sends.of_unchanged (s.settle_unchanged.comp s.settle.readOver_unchanged (c := [.frameTurn, .arbiter]))).after (State.answered_sends _)

theorem resumed_waitsOn : WaitsOn s (s.resumed l slots k a b c) :=
  (WaitsOn.of_unchanged (s.settle_unchanged.comp s.settle.readOver_unchanged (c := [.frameTurn, .arbiter]))).trans (State.answered_waitsOn _)

end

/-! ## In STANDBY -/

/-- The frame is counted outside LIVE, and what was kept has been acted on. -/
def State.countedOn (s : State) (events : List FeederEvent) : State :=
  { s.stepRamps.countFrame with feeder := events.foldl Feeder.keptEvent s.stepRamps.countFrame.feeder }

section
variable (due : s.post.holdoffDue = false) (hv : s.feeder.view ≠ .live) {events : List FeederEvent} (he : ∀ e ∈ events, e.still)
include due

theorem countedOn_unchanged (he : ∀ e ∈ events, e.still) :
    Unchanged [.layout, .frameTurn, .strips, .frameNumber, .moderation, .timer, .safety, .records, .arbiter] s (s.countedOn events) := by
  have due' : s.stepRamps.post.holdoffDue = false := due
  refine (s.stepRamps_unchanged.comp (countFrame_changes due')
    (c := [.layout, .frameNumber, .moderation, .timer, .safety, .records, .arbiter])).comp (b := [.frameTurn, .strips]) fun p hp => ?_
  obtain ⟨d, q, hf, -⟩ := keptEvents_is events he s.stepRamps.countFrame.feeder
  unfold State.countedOn
  rw [hf]
  cases p <;> simp_all [same]

theorem countedOn_sends :
    Sends [writeOf 0x20 (({ s with feeder.layout := rampedLayout s.feeder.layout } : State).frameFields ((s.feeder.frameNumber + 1) % 4294967296))]
      [] s (s.countedOn events) := by
  have due' : s.stepRamps.post.holdoffDue = false := due
  have sent := countFrame_sends due'
  rw [stepRamps_eq] at sent
  exact (Sends.after .same sent).before (by rw [← stepRamps_eq]; exact .same)

theorem countedOn_counted (he : ∀ e ∈ events, e.still) : Counted s (s.countedOn events) := by
  have due' : s.stepRamps.post.holdoffDue = false := due
  obtain ⟨d, q, hf, -⟩ := keptEvents_is events he s.stepRamps.countFrame.feeder
  refine .after s.stepRamps_unchanged ((countFrame_counted due').before (changed := [.frameTurn, .strips]) fun p hp => ?_)
  unfold State.countedOn
  rw [hf]
  cases p <;> simp_all [same]

theorem countedOn_waitsOn : WaitsOn s (s.countedOn events) := by
  have due' : s.stepRamps.post.holdoffDue = false := due
  exact ((WaitsOn.same : WaitsOn s s.stepRamps).trans (countFrame_waitsOn due')).trans .same

/-- The feeder after the counted frame and the events kept. -/
theorem countedOn_feeder (he : ∀ e ∈ events, e.still) :
    ∃ d p, (s.countedOn events).feeder = { s.feeder with
        layout := rampedLayout s.feeder.layout, frameNumber := (s.feeder.frameNumber + 1) % 4294967296, display := d, posted := p }
      ∧ (p = true ↔ s.feeder.posted = true ∨ .takeLayout ∈ events)
      ∧ ((∃ i, .scanout i ∈ events ∧ i + 1 < stripCount s.feeder.outputMode) → d = .solid ⟨16, 128, 128⟩)
      ∧ ((∀ i, .scanout i ∉ events) → d = s.feeder.display) := by
  have due' : s.stepRamps.post.holdoffDue = false := due
  have hf := countFrame_feeder due'
  rw [stepRamps_eq] at hf
  obtain ⟨d, p, k1, k2, -, k3, k4⟩ := keptEvents_is events he s.stepRamps.countFrame.feeder
  rw [stepRamps_eq, hf] at k1 k2 k3 k4
  refine ⟨d, p, ?_, k2, k3, k4⟩
  show events.foldl Feeder.keptEvent s.stepRamps.countFrame.feeder = _
  rw [stepRamps_eq, hf, k1]

/-- Outside LIVE the turn counts the frame, and what was kept follows, with the work that the engine takes. -/
theorem frameTurnRest_kept (hv : s.feeder.view ≠ .live) (hr : s.feeder.layoutRead = .idle) (he : ∀ e ∈ events, e.still) :
    State.feederAll events s.frameTurnRest = s.countedOn events ∨ State.feederAll events s.frameTurnRest = (s.countedOn events).takeWork := by
  have due' : s.stepRamps.post.holdoffDue = false := due
  have hf := countFrame_feeder due'
  have hrest : s.frameTurnRest = s.stepRamps.countFrame := if_neg hv
  rw [hrest, feederAll_still events he (by rw [hf]; exact hv) (by rw [hf]; exact hr)]
  split
  next h =>
    rw [h]
    exact .inl rfl
  next h => exact .inr rfl

end

end Sys2Proof.Machine
end

section
/-! SUPPORT. The layout record: its checks, the freeze pin and the answer (R76 to R80). -/

namespace Sys2Proof.Machine

set_option Elab.async false

variable {s x y : State} {l : RawLayout} {f : Nat → RawPane} {n i : Nat} {g : Geometry}

/-! ## The checks (R76 to R78) -/

theorem rectOk_iff {p : Pane} : p.rectOk g = true ↔
    p.w % 2 = 0 ∧ 64 ≤ p.w ∧ p.h % 8 = 0 ∧ 8 ≤ p.h ∧ p.x % 2 = 0 ∧ p.y % 8 = 0 ∧ p.x + p.w ≤ g.w ∧ p.y + p.h ≤ g.h := by
  simp [Pane.rectOk, and_assoc]

/-- The pixel is one of the pane's. -/
def Pane.covers (p : Pane) (x y : Nat) : Prop := p.x ≤ x ∧ x < p.x + p.w ∧ p.y ≤ y ∧ y < p.y + p.h

/-- Panes that are not empty overlap where they share a pixel. -/
theorem overlaps_iff {a b : Pane} (ha : a.rectOk g = true) (hb : b.rectOk g = true) :
    a.overlaps b = true ↔ ∃ x y, a.covers x y ∧ b.covers x y := by
  obtain ⟨-, aw, -, ah, -⟩ := rectOk_iff.1 ha
  obtain ⟨-, bw, -, bh, -⟩ := rectOk_iff.1 hb
  simp only [Pane.overlaps, Pane.covers, Bool.and_eq_true, decide_eq_true_eq]
  constructor
  · intro h
    exact ⟨max a.x b.x, max a.y b.y, by omega, by omega⟩
  · rintro ⟨x, y, h⟩
    omega

theorem areaAllowed_iff {a k : Nat} (hk : 0 < k) : areaAllowed a k = true ↔
    a + k ≤ 0x10000000 ∧ 0x10000 ≤ a ∧ (a + k ≤ 0x1000000 ∨ 0x8800000 ≤ a) := by
  simp only [areaAllowed, sharesWith, Config.memTop, Config.controlTop, Config.slotsBase, Config.slotsTop, Bool.and_eq_true,
    Bool.not_eq_true', Bool.and_eq_false_iff, decide_eq_true_eq, decide_eq_false_iff_not]
  omega

theorem sourceOk_iff {p : RawPane} : p.sourceOk = true ↔
    p.kindByte = 0 ∨ p.kindByte = 1
      ∨ (p.kindByte = 2 ∧ p.pane.imageW % 2 = 0 ∧ 16 ≤ p.pane.imageW ∧ p.pane.imageW ≤ 4096 ∧ 16 ≤ p.pane.imageH ∧ p.pane.imageH ≤ 3072
        ∧ p.pane.image + 2 * p.pane.imageW * p.pane.imageH ≤ 0x10000000 ∧ 0x10000 ≤ p.pane.image
        ∧ (p.pane.image + 2 * p.pane.imageW * p.pane.imageH ≤ 0x1000000 ∨ 0x8800000 ≤ p.pane.image)) := by
  have area (h : 16 ≤ p.pane.imageW) (k : 16 ≤ p.pane.imageH) :=
    areaAllowed_iff (a := p.pane.image) (k := 2 * p.pane.imageW * p.pane.imageH) (by positivity)
  simp only [RawPane.sourceOk, Pane.imageOk, Bool.or_eq_true, Bool.and_eq_true, decide_eq_true_eq]
  constructor
  · rintro (h | ⟨h, ⟨⟨⟨⟨h1, h2⟩, h3⟩, h4⟩, h5⟩, h6⟩)
    · omega
    · exact .inr (.inr ⟨h, h1, h2, h3, h4, h5, (area h2 h4).1 h6⟩)
  · rintro (h | h | ⟨h, h1, h2, h3, h4, h5, h6⟩)
    · exact .inl (by omega)
    · exact .inl (by omega)
    · exact .inr ⟨h, ⟨⟨⟨⟨h1, h2⟩, h3⟩, h4⟩, h5⟩, (area h2 h4).2 h6⟩

/-- The first of a list of panes with a property. -/
theorem findIdx_panes {p : RawPane → Bool} :
    ((List.range n).map f).findIdx? p = some i ↔ i < n ∧ p (f i) = true ∧ ∀ m, m < i → p (f m) = false := by
  rw [List.findIdx?_eq_some_iff_getElem]
  simp [and_left_comm]

theorem findIdx_panes_none {p : RawPane → Bool} : ((List.range n).map f).findIdx? p = none ↔ ∀ i, i < n → p (f i) = false := by
  simp [List.findIdx?_eq_none_iff]

/-- Pane b shares a pixel with one of a lower number. -/
def sharesBelow (f : Nat → RawPane) (b : Nat) : Prop := ∃ a x y, a < b ∧ (f a).pane.covers x y ∧ (f b).pane.covers x y

theorem overlapped_iff {b : Nat} (hb : b < n) (ok : ∀ i, i < n → (f i).pane.rectOk g = true) :
    ((((List.range n).map f).take b).any fun a => match ((List.range n).map f)[b]? with
      | some q => a.pane.overlaps q.pane
      | none => false) = true ↔ sharesBelow f b := by
  have hq : ((List.range n).map f)[b]? = some (f b) := by simp [hb]
  have ht : ((List.range n).map f).take b = (List.range b).map f := by
    rw [← List.map_take, List.take_range, Nat.min_eq_left hb.le]
  rw [hq, ht]
  simp only [List.any_eq_true, List.mem_map, List.mem_range, sharesBelow]
  constructor
  · rintro ⟨_, ⟨a, ha, rfl⟩, h⟩
    obtain ⟨x, y, h⟩ := (overlaps_iff (ok a (by omega)) (ok b hb)).1 h
    exact ⟨a, x, y, ha, h⟩
  · rintro ⟨a, x, y, ha, h⟩
    exact ⟨f a, ⟨a, ha, rfl⟩, (overlaps_iff (ok a (by omega)) (ok b hb)).2 ⟨x, y, h⟩⟩

section
variable (ok : ∀ i, i < n → (f i).pane.rectOk g = true)
include ok

theorem firstOverlap_some {b : Nat} (hb : b < n) (h : sharesBelow f b) (first : ∀ m, m < b → ¬ sharesBelow f m) :
    firstOverlap ((List.range n).map f) = some b := by
  unfold firstOverlap
  rw [List.length_map, List.length_range, List.find?_range_eq_some]
  refine ⟨(overlapped_iff hb ok).2 h, List.mem_range.2 hb, fun m hm => ?_⟩
  rw [Bool.not_eq_true', ← Bool.not_eq_true]
  exact mt (overlapped_iff (by omega) ok).1 (first m hm)

theorem firstOverlap_none (h : ∀ b, b < n → ¬ sharesBelow f b) : firstOverlap ((List.range n).map f) = none := by
  unfold firstOverlap
  rw [List.length_map, List.length_range, List.find?_range_eq_none]
  intro b hb
  rw [Bool.not_eq_true', ← Bool.not_eq_true]
  exact mt (overlapped_iff hb ok).1 (h b hb)

end

theorem failure_count (h : 4 < l.count) : l.failure g = some (1, l.count) := if_pos h

section
variable (hc : l.count ≤ 4) (hp : l.panes = (List.range n).map f)
include hc hp

theorem failure_rect (hi : i < n) (h : (f i).pane.rectOk g = false) (first : ∀ m, m < i → (f m).pane.rectOk g = true) :
    l.failure g = some (1, i) := by
  unfold RawLayout.failure
  rw [if_neg (by omega), hp, findIdx_panes.2 ⟨hi, by simp [h], fun m hm => by simp [first m hm]⟩]

variable (ok : ∀ i, i < n → (f i).pane.rectOk g = true)
include ok

theorem failure_overlap (hi : i < n) (h : sharesBelow f i) (first : ∀ m, m < i → ¬ sharesBelow f m) : l.failure g = some (2, i) := by
  unfold RawLayout.failure
  rw [if_neg (by omega), hp, findIdx_panes_none.2 fun i hi => by simp [ok i hi]]
  dsimp only
  rw [firstOverlap_some ok hi h first]

/-- With the rectangles in order, the sources remain to be checked. -/
theorem failure_source (apart : ∀ b, b < n → ¬ sharesBelow f b) :
    l.failure g = (((List.range n).map f).findIdx? fun p => !p.sourceOk).map fun n => (3, n) := by
  unfold RawLayout.failure
  rw [if_neg (by omega), hp, findIdx_panes_none.2 fun i hi => by simp [ok i hi]]
  dsimp only
  rw [firstOverlap_none ok apart]

end

/-! ## The record read -/

theorem parseLayout_panes {bytes : List Byte} (h : (parseLayout bytes).count ≤ 4) :
    (parseLayout bytes).panes = (List.range (parseLayout bytes).count).map (parsePane bytes) := by
  show (List.range (min 4 (parseLayout bytes).count)).map _ = _
  rw [Nat.min_eq_right h]

theorem parsePane_freeze {bytes : List Byte} {n : Nat} :
    decide ((parsePane bytes n).pane.kind = .freeze) = decide ((parsePane bytes n).kindByte = 1) := by
  have h : (parsePane bytes n).pane.kind =
      if (parsePane bytes n).kindByte = 0 then .live else if (parsePane bytes n).kindByte = 1 then .freeze else .stored := rfl
  rw [h]
  split
  next k => simp [k]
  next k => split <;> simp_all

/-! ## The answer (R79, R80) -/

/-- The panes of the layout taken go on from the zooms of the old ones (R80). -/
def RawLayout.adopted (l : RawLayout) (old : Layout) : Layout :=
  { generation := l.generation, background := l.background
    panes := l.panes.zipIdx.map fun (p, i) => { p.pane with current := (old.panes[i]?).elim p.pane.current (·.current) } }

theorem carryZoom_eq (old : Layout) (i : Nat) (p : Pane) :
    carryZoom old i p = { p with current := (old.panes[i]?).elim p.current (·.current) } := by
  unfold carryZoom
  cases old.panes[i]? <;> rfl

theorem adopted_panes {old : Layout} (h : l.panes = (List.range n).map f) :
    (l.adopted old).panes = (List.range n).map fun i => { (f i).pane with current := (old.panes[i]?).elim (f i).pane.current (·.current) } := by
  refine List.ext_getElem? fun i => ?_
  show (l.panes.zipIdx.map _)[i]? = _
  rw [h]
  by_cases hi : i < n <;> simp [hi]

theorem adoptLayout_answered (h : s.capture.context.state ≠ .waitingPin ∨ s.intake.freezeSlot = none) :
    s.adoptLayout l = s.answered (l.adopted s.feeder.layout) (if l.firstFreeze = none then s.intake.unfrozen else s.intake.slots)
      .layoutTaken l.panes.length l.generation 0 := by
  have hz : (fun q : RawPane × Nat => carryZoom s.feeder.layout q.2 q.1.pane) =
      fun q => { q.1.pane with current := (s.feeder.layout.panes[q.2]?).elim q.1.pane.current (·.current) } :=
    funext fun q => carryZoom_eq _ _ _
  obtain ⟨t, ht⟩ : ∃ t : State, t = { s with feeder.layout := l.adopted s.feeder.layout } := ⟨_, rfl⟩
  have adopt : s.adoptLayout l = (if l.firstFreeze = none then t.releaseFreeze else t).raise .feeder .layoutTaken l.panes.length l.generation 0 := by
    rw [State.adoptLayout_eq, ht]
    unfold RawLayout.adopted
    rw [← hz]
    rfl
  have release : t.releaseFreeze = { t with intake.slots := t.intake.unfrozen } := releaseFreeze_of (by rw [ht]; exact h)
  rw [adopt, release, ht]
  split <;> rfl

theorem applyLayout_failed {bytes : List Byte} {reason pane : Nat}
    (h : (parseLayout bytes).failure (rasterSize s.feeder.outputMode) = some (reason, pane)) :
    s.applyLayout bytes = s.answered s.feeder.layout s.intake.slots .layoutRefused reason (parseLayout bytes).generation pane := by
  unfold State.applyLayout
  dsimp only
  rw [h]
  rfl

section
variable {bytes : List Byte} (h : (parseLayout bytes).failure (rasterSize s.feeder.outputMode) = none)
include h

theorem applyLayout_refused {slots : List Slot} {reason : Nat}
    (k : s.settleFreeze (parseLayout bytes) = ({ s with intake.slots := slots }, some reason)) :
    s.applyLayout bytes = s.answered s.feeder.layout slots .layoutRefused reason (parseLayout bytes).generation
      ((parseLayout bytes).firstFreeze.getD 0) := by
  unfold State.applyLayout
  dsimp only
  rw [h]
  dsimp only
  rw [k]
  rfl

theorem applyLayout_taken {slots : List Slot} (k : s.settleFreeze (parseLayout bytes) = ({ s with intake.slots := slots }, none))
    (kc : s.capture.context.state ≠ .waitingPin ∨ ({ s with intake.slots := slots } : State).intake.freezeSlot = none) :
    s.applyLayout bytes = s.answered ((parseLayout bytes).adopted s.feeder.layout)
      (if (parseLayout bytes).firstFreeze = none then ({ s with intake.slots := slots } : State).intake.unfrozen else slots)
      .layoutTaken (parseLayout bytes).panes.length (parseLayout bytes).generation 0 := by
  unfold State.applyLayout
  dsimp only
  rw [h]
  dsimp only
  rw [k]
  exact (adoptLayout_answered kc).trans rfl

end

theorem settleFreeze_of_noFreeze (h : l.firstFreeze = none) : s.settleFreeze l = (s, none) := if_pos h

/-- Where no capture waits for a pin, the settling moves pins alone, by the slots and the view. -/
theorem settleFreeze_slots (h : s.capture.context.state ≠ .waitingPin) (l : RawLayout) :
    ∃ slots reason, ∀ x : State, x.intake = s.intake → x.feeder.view = s.feeder.view → x.capture.context.state = s.capture.context.state →
      x.settleFreeze l = ({ x with intake.slots := slots }, reason) := by
  have given {slots : List Slot} (x : State) (m : Nat) (hx : x.intake.slots = slots) :
      x.givePin m .freeze = { x with intake.slots := slots.modify m fun y => y.withPin .freeze true } := by
    rw [← hx]
    rfl
  have request {slots : List Slot} (m : Nat) (old : Option Nat) : ∃ slots' reason, ∀ x : State, x.intake = { s.intake with slots := slots } →
      x.requestFreeze m old = ({ x with intake.slots := slots' }, reason) := by
    by_cases hg : ({ s.intake with slots := slots } : Intake).poolGrants m = true
    · refine ⟨slots.modify m fun y => y.withPin .freeze true, none, fun x hx => ?_⟩
      rw [State.requestFreeze_granted (by rw [hx]; exact hg), given x m (by rw [hx])]
    · have hg' := Bool.eq_false_of_not_eq_true hg
      cases old with
      | none =>
        refine ⟨slots, some 5, fun x hx => ?_⟩
        rw [State.requestFreeze_refused (by rw [hx]; exact hg')]
        show _ = (({ x with intake := { x.intake with slots := slots } } : State), some 5)
        rw [show ({ x.intake with slots := slots } : Intake) = x.intake by rw [hx]]
      | some o =>
        refine ⟨slots.modify o fun y => y.withPin .freeze true, some 5, fun x hx => ?_⟩
        rw [State.requestFreeze_refused (by rw [hx]; exact hg')]
        exact congrArg (·, some 5) (given x o (by rw [hx]))
  have same (x : State) (hx : x.intake = s.intake) : ({ x with intake.slots := s.intake.slots } : State) = x := by
    show ({ x with intake := { x.intake with slots := s.intake.slots } } : State) = x
    rw [← hx]
  by_cases hl : l.firstFreeze = none
  · exact ⟨s.intake.slots, none, fun x hx _ _ => by rw [same x hx, settleFreeze_of_noFreeze hl]⟩
  have newest (x : State) (hx : x.intake = s.intake) (hv : x.feeder.view = s.feeder.view) : x.newestForFreeze = s.newestForFreeze := by
    unfold State.newestForFreeze
    rw [hx, hv]
  cases hf : s.intake.freezeSlot with
  | none =>
    cases hn : s.newestForFreeze with
    | none =>
      exact ⟨s.intake.slots, some 4, fun x hx hv _ => by
        rw [same x hx, State.settleFreeze_noFrame hl (.inl (by rw [hx, hf])) (by rw [newest x hx hv, hn])]⟩
    | some m =>
      obtain ⟨slots, reason, hr⟩ := request (slots := s.intake.slots) m none
      exact ⟨slots, reason, fun x hx hv _ => by
        rw [State.settleFreeze_first hl (by rw [hx, hf]) (by rw [newest x hx hv, hn]), hr x hx]⟩
  | some o =>
    by_cases hr : l.refreeze = true
    · cases hn : s.newestForFreeze with
      | none =>
        exact ⟨s.intake.slots, some 4, fun x hx hv _ => by
          rw [same x hx, State.settleFreeze_noFrame hl (.inr hr) (by rw [newest x hx hv, hn])]⟩
      | some m =>
        obtain ⟨slots, reason, hq⟩ := request (slots := s.intake.slots.modify o fun y => y.withPin .freeze false) m (some o)
        refine ⟨slots, reason, fun x hx hv hc => ?_⟩
        have drop : x.releasePin o .freeze = x.dropPin o .freeze := by
          unfold State.releasePin
          exact if_neg fun k => h (hc.symm.trans k.2)
        rw [State.settleFreeze_move hl (by rw [hx, hf]) hr (by rw [newest x hx hv, hn]), drop,
          hq (x.dropPin o .freeze) (by rw [← hx]; rfl)]
        rfl
    · exact ⟨s.intake.slots, none, fun x hx _ _ => by
        rw [same x hx, State.settleFreeze_keep hl (by rw [hx, hf]) (Bool.eq_false_of_not_eq_true hr)]⟩

end Sys2Proof.Machine
end

section
/-! SUPPORT. The frame turn resumed after its layout read, as a whole (R72, R73, R76, R79, R80). -/

namespace Sys2Proof.Machine

set_option Elab.async false

variable {s x y z : State} {l : Layout} {slots : List Slot} {k : EventKind} {a b c m : Nat} {bytes : List Byte}

/-! ## The answer, and what it leaves -/

/-- A frame that the moderation does not time leaves the moderation. -/
theorem countFrame_untimed (due : s.post.holdoffDue = false) (ht : s.post.timer = none) :
    Unchanged [.records, .arbiter, .frameNumber, .timer, .safety] s s.countFrame := by
  obtain ⟨-, h1, h2, h3, -⟩ := countFrame_counted due
  rw [ht] at h1 h3
  intro p hp
  by_cases e : p = .moderation
  · subst e
    exact ⟨h2, h1.trans ht.symm, h3.trans due.symm⟩
  · exact countFrame_changes due p (by
      simp only [List.mem_cons, List.not_mem_nil, or_false, not_or] at hp ⊢
      tauto)

/-- An answer that moves no pin leaves the slots. -/
theorem resumed_unmoved (s : State) (l : Layout) (k : EventKind) (a b c : Nat) :
    Unchanged [.frameTurn, .layout, .raised, .records, .arbiter] s (s.resumed l s.intake.slots k a b c) := by
  intro p hp
  by_cases e : p = .slots
  · subst e
    have hi := resumed_intake s l s.intake.slots k a b c
    simp only [same, hi, and_self]
  · exact resumed_unchanged s l s.intake.slots k a b c p (by
      simp only [List.mem_cons, List.not_mem_nil, or_false, not_or] at hp ⊢
      tauto)

/-- Outside LIVE the frame fields do not read the frame number of the feeder (R73). -/
theorem frameFields_congr_blank (hx : x.feeder.view ≠ .live) (hy : y.feeder.view ≠ .live) (hi : x.intake = y.intake)
    (hm : x.monitor = y.monitor) (hp : x.port.correctable = y.port.correctable ∧ x.port.uncorrectable = y.port.uncorrectable)
    (hl : x.feeder.layout = y.feeder.layout) (hu : x.feeder.underruns = y.feeder.underruns ∧ x.feeder.faults = y.feeder.faults) (n : Nat) :
    x.frameFields n = y.frameFields n := by
  rw [frameFields_blank hx, frameFields_blank hy, hi, hm, hp.1, hp.2, hl, hu.1, hu.2]

/-- The answer to the record, read or not, and what was kept behind it. -/
theorem exec_layoutReadDone_unread (h : s.feeder.layoutRead = .error bytes) :
    exec .layoutReadDone s = .next (s.closeWork (State.feederAll s.feeder.deferred
      (s.resumed s.feeder.layout s.intake.slots .layoutRefused 6 s.feeder.layout.generation 0).frameTurnRest).shutdownTest) := by
  rw [exec_layoutReadDone_error h, resumeTurn_error, refuseLayout_answered]
  simp only [State.settle_feeder, show s.settle.readOver.intake = s.intake from s.settle_intake,
    show s.settle.readOver.feeder.layout = s.feeder.layout by rw [State.readOver, State.settle_feeder]]
  rfl

theorem exec_layoutReadDone_answered (h : s.feeder.layoutRead = .got bytes) (ha : s.settle.readOver.applyLayout bytes = s.resumed l slots k a b c) :
    exec .layoutReadDone s =
      .next (s.closeWork (State.feederAll s.feeder.deferred (s.resumed l slots k a b c).frameTurnRest).shutdownTest) := by
  rw [exec_layoutReadDone_got h, resumeTurn_read, ha, State.settle_feeder]

theorem readOver_intake (s : State) : s.settle.readOver.intake = s.intake := s.settle_intake

theorem readOver_layout (s : State) : s.settle.readOver.feeder.layout = s.feeder.layout := by rw [State.readOver, State.settle_feeder]

theorem readOver_outputMode (s : State) : s.settle.readOver.feeder.outputMode = s.feeder.outputMode := by
  rw [State.readOver, State.settle_feeder]

theorem readOver_view (s : State) : s.settle.readOver.feeder.view = s.feeder.view := by rw [State.readOver, State.settle_feeder]

theorem readOver_context (s : State) : s.settle.readOver.capture.context.state = s.capture.context.state :=
  congrArg (fun q : Capture => q.context.state) s.settle_capture

theorem resumed_failed {reason pane : Nat} (h : (parseLayout bytes).failure (rasterSize s.feeder.outputMode) = some (reason, pane)) :
    s.settle.readOver.applyLayout bytes =
      s.resumed s.feeder.layout s.intake.slots .layoutRefused reason (parseLayout bytes).generation pane := by
  rw [applyLayout_failed (by rw [readOver_outputMode]; exact h), readOver_layout, readOver_intake]
  rfl

section
variable (h : (parseLayout bytes).failure (rasterSize s.feeder.outputMode) = none)
include h

theorem resumed_refused {reason : Nat}
    (hs : s.settle.readOver.settleFreeze (parseLayout bytes) = ({ s.settle.readOver with intake.slots := slots }, some reason)) :
    s.settle.readOver.applyLayout bytes = s.resumed s.feeder.layout slots .layoutRefused reason (parseLayout bytes).generation
      ((parseLayout bytes).firstFreeze.getD 0) := by
  rw [applyLayout_refused (by rw [readOver_outputMode]; exact h) hs, readOver_layout]
  rfl

theorem resumed_taken
    (hs : s.settle.readOver.settleFreeze (parseLayout bytes) = ({ s.settle.readOver with intake.slots := slots }, none))
    (hc : s.capture.context.state ≠ .waitingPin ∨ ({ s.intake with slots := slots } : Intake).freezeSlot = none) :
    s.settle.readOver.applyLayout bytes = s.resumed ((parseLayout bytes).adopted s.feeder.layout)
      (if (parseLayout bytes).firstFreeze = none then ({ s.intake with slots := slots } : Intake).unfrozen else slots)
      .layoutTaken (parseLayout bytes).panes.length (parseLayout bytes).generation 0 := by
  rw [applyLayout_taken (by rw [readOver_outputMode]; exact h) hs
    (by rw [readOver_context]; dsimp only; rw [readOver_intake]; exact hc), readOver_layout]
  dsimp only
  rw [readOver_intake]
  rfl

end

/-! ## In STANDBY -/

theorem entriesDone_still {events : List FeederEvent} (he : ∀ e ∈ events, e.still) : events.any FeederEvent.isEntry = false := by
  rw [List.any_eq_false]
  intro e h
  rcases he e h with rfl | ⟨k, rfl⟩ <;> exact nofun

section
variable (hv : s.feeder.view = .standby) (due : s.post.holdoffDue = false) (up : s.staysUp)
include hv due up

/-- Outside LIVE the frame is counted, and the scan-outs and TAKE_LAYOUTs kept are acted on. -/
theorem resumed_still (he : ∀ e ∈ s.feeder.deferred, e.still) (l : Layout) (k : EventKind) (a b c : Nat) :
    s.closeWork (State.feederAll s.feeder.deferred (s.resumed l s.intake.slots k a b c).frameTurnRest).shutdownTest
      = s.closeWork ((s.resumed l s.intake.slots k a b c).countedOn s.feeder.deferred) := by
  have hf := resumed_feeder s l s.intake.slots k a b c
  have first := resumed_unmoved s l k a b c
  have waits := resumed_waitsOn s l s.intake.slots k a b c
  obtain ⟨y, hy⟩ : ∃ y, y = s.resumed l s.intake.slots k a b c := ⟨_, rfl⟩
  rw [← hy] at hf first waits ⊢
  have due' : y.post.holdoffDue = false := (first .moderation (by decide)).2.2.trans due
  have all := first.comp (countedOn_unchanged due' he)
    (c := [.frameTurn, .layout, .strips, .frameNumber, .moderation, .timer, .safety, .records, .raised, .arbiter])
  refine closeWork_resumed up all (waits.trans (countedOn_waitsOn due')) ?_
    (frameTurnRest_kept due' (by rw [hf]; show s.feeder.view ≠ _; rw [hv]; nofun) (by rw [hf]) he)
  obtain ⟨d, p, hz, -⟩ := countedOn_feeder due' he
  unfold State.entriesDone
  rw [hz, hf, entriesDone_still he, show (y.countedOn s.feeder.deferred).control.announcements = _ from all .announcements (by decide)]
  rfl

end

end Sys2Proof.Machine
end

section
/-! SUPPORT. The four parts of the layout read: the turn kept, the read over in STANDBY, and in LIVE (R68, R72, R76 to R80). -/

namespace Sys2Proof.Machine

set_option Elab.async false

variable {s : State} {l : Layout} {slots : List Slot} {k : EventKind} {a b c m : Nat} {bytes : List Byte}

/-- A frame turn that comes during the wait is kept; the raster goes on in its output mode (R68, R72). -/
theorem turn_kept (hon : s.feeder.rasterOn = true) (hn : s.feeder.nextStrip + 1 = s.frameStrips) (hr : s.feeder.layoutRead ≠ .idle) :
    Completes .frameTurn s fun t =>
      t.feeder = { s.feeder with nextStrip := 0, deferred := s.feeder.deferred ++ [.turn s.post.setup.outputMode] }
        ∧ t.frameMode = s.post.setup.outputMode ∧ Did [.raster, .frameTurn] [] [] s t := by
  have hx := exec_turn hon hn
  rw [feederTakes_of_waiting (s := s.moveRaster 0) hr] at hx
  have kept : Unchanged [.frameTurn] (s.moveRaster 0)
      { s.moveRaster 0 with feeder.deferred := (s.moveRaster 0).feeder.deferred ++ [.turn s.post.setup.outputMode] } := by
    intro p hp
    cases p <;> simp_all [same]
  refine ⟨_, hx, State.closeWork_feeder _ _, ?_, .quiet ((s.moveRaster_unchanged 0).comp kept (c := [.raster, .frameTurn]))⟩
  rw [State.frameMode_eq, State.closeWork_feeder]
  refine (if_neg hr).trans ?_
  show List.foldl FeederEvent.modeAfter _ (s.feeder.deferred ++ [_]) = _
  rw [List.foldl_append]
  rfl

/-! ## A turn kept behind the read, outside LIVE -/

/-- The frame is counted, and the turn that was kept counts the next one. -/
def State.countedTwice (s : State) (m : Nat) : State := (s.stepRamps.countFrame.turnedBlank m).stepRamps.countFrame

section
variable (due : s.post.holdoffDue = false) (ht : s.post.timer = none)
include due ht

theorem countedOnce (s' : State) (hs : s' = s.stepRamps.countFrame) :
    s'.feeder = { s.feeder with layout := rampedLayout s.feeder.layout, frameNumber := (s.feeder.frameNumber + 1) % 4294967296 }
      ∧ s'.post.holdoffDue = false ∧ s'.post.timer = none
      ∧ Unchanged [.layout, .frameNumber, .timer, .safety, .records, .arbiter] s s'
      ∧ Sends [writeOf 0x20 (({ s with feeder.layout := rampedLayout s.feeder.layout } : State).frameFields
          ((s.feeder.frameNumber + 1) % 4294967296))] [] s s' := by
  have due' : s.stepRamps.post.holdoffDue = false := due
  have changes := countFrame_untimed due' ht
  have hm := changes .moderation (by decide)
  have hf := countFrame_feeder due'
  have sent := countFrame_sends due'
  rw [stepRamps_eq] at hf sent
  rw [hs]
  refine ⟨?_, hm.2.2.trans due, hm.2.1.trans ht, s.stepRamps_unchanged.comp changes, ?_⟩
  · rw [stepRamps_eq, hf]
  · rw [stepRamps_eq]
    exact .after .same sent

end

/-- The feeder after the frame of the turn that was kept. -/
def Feeder.twice (f : Feeder) (m : Nat) : Feeder :=
  { f with
    display := .solid ⟨16, 128, 128⟩, outputMode := m
    layout := rampedLayout (if f.outputMode = m then rampedLayout f.layout else defaultLayout (rasterSize m))
    frameNumber := ((f.frameNumber + 1) % 4294967296 + 1) % 4294967296 }

section
variable (hv : s.feeder.view ≠ .live) (due : s.post.holdoffDue = false) (ht : s.post.timer = none)
include due ht

theorem countedTwice_feeder : (s.countedTwice m).feeder = s.feeder.twice m := by
  obtain ⟨h1, h2, h3, -, -⟩ := countedOnce due ht _ rfl
  obtain ⟨k1, -⟩ := countedOnce (s := s.stepRamps.countFrame.turnedBlank m) h2 h3 _ rfl
  unfold State.countedTwice
  rw [k1]
  unfold State.turnedBlank Feeder.layoutIn
  dsimp only
  rw [h1]
  rfl

theorem countedTwice_unchanged (m : Nat) :
    Unchanged [.layout, .strips, .frameNumber, .timer, .safety, .records, .arbiter] s (s.countedTwice m) := by
  obtain ⟨-, h2, h3, h4, -⟩ := countedOnce due ht _ rfl
  obtain ⟨-, -, -, k4, -⟩ := countedOnce (s := s.stepRamps.countFrame.turnedBlank m) h2 h3 _ rfl
  exact (h4.comp (State.turnedBlank_unchanged _ m) (c := [.layout, .strips, .frameNumber, .timer, .safety, .records, .arbiter])).comp k4

theorem countedTwice_waitsOn (m : Nat) : WaitsOn s (s.countedTwice m) := by
  obtain ⟨-, h2, -⟩ := countedOnce due ht _ rfl
  have due1 : s.stepRamps.post.holdoffDue = false := due
  have due2 : (s.stepRamps.countFrame.turnedBlank m).stepRamps.post.holdoffDue = false := h2
  exact ((WaitsOn.same : WaitsOn s s.stepRamps).trans (countFrame_waitsOn due1)).trans
    ((WaitsOn.same : WaitsOn _ (s.stepRamps.countFrame.turnedBlank m).stepRamps).trans (countFrame_waitsOn due2))

include hv

theorem countedTwice_sends (m : Nat) :
    Sends [writeOf 0x20 (({ s with feeder.layout := rampedLayout s.feeder.layout } : State).frameFields ((s.feeder.frameNumber + 1) % 4294967296)),
        writeOf 0x20 (({ s with feeder.layout := (s.feeder.twice m).layout } : State).frameFields (s.feeder.twice m).frameNumber)]
      [] s (s.countedTwice m) := by
  obtain ⟨h1, h2, h3, h4, h5⟩ := countedOnce due ht _ rfl
  obtain ⟨w, hw⟩ : ∃ w, w = s.stepRamps.countFrame.turnedBlank m := ⟨_, rfl⟩
  have blank : Unchanged [.layout, .strips, .frameNumber, .timer, .safety, .records, .arbiter] s w :=
    hw ▸ h4.comp (State.turnedBlank_unchanged _ m)
  have hf : w.feeder = { s.feeder with
      display := .solid ⟨16, 128, 128⟩, outputMode := m, frameNumber := (s.feeder.frameNumber + 1) % 4294967296
      layout := if s.feeder.outputMode = m then rampedLayout s.feeder.layout else defaultLayout (rasterSize m) } := by
    rw [hw]
    unfold State.turnedBlank Feeder.layoutIn
    dsimp only
    rw [h1]
  obtain ⟨-, -, -, -, k5⟩ := countedOnce (s := w) (hw ▸ h2) (hw ▸ h3) _ rfl
  have errors := blank .errors (by decide)
  have fields := frameFields_congr_blank (x := { w with feeder.layout := rampedLayout w.feeder.layout })
    (y := { s with feeder.layout := (s.feeder.twice m).layout }) (by rw [hf]; exact hv) hv blank.intake blank.monitor
    ⟨errors.1, errors.2.1⟩ (by rw [hf]; rfl) (by rw [hf]; exact ⟨rfl, rfl⟩) (s.feeder.twice m).frameNumber
  rw [hf] at k5
  dsimp only at k5
  rw [hf] at fields
  have twice : s.countedTwice m = w.stepRamps.countFrame := by rw [hw]; rfl
  rw [twice, ← fields]
  exact h5.thenOps (Sends.after (.same (by rw [hw]; rfl) (by rw [hw]; rfl) (by rw [hw]; rfl)) k5)

/-- The turn that was kept counts its frame, and the engine takes work after it (R72). -/
theorem frameTurnRest_turn (hr : s.feeder.layoutRead = .idle) (hp : s.feeder.posted = false) (m : Nat) :
    State.feederAll [.turn m] s.frameTurnRest = (s.countedTwice m).takeWork := by
  obtain ⟨h1, -⟩ := countedOnce due ht _ rfl
  have hrest : s.frameTurnRest = s.stepRamps.countFrame := if_neg hv
  show (s.frameTurnRest.feederTakes (.turn m)).takeWork = _
  rw [hrest, feederTakes_of_idle (by rw [h1]; exact hr)]
  show (s.stepRamps.countFrame.turnFrame m).takeWork = _
  rw [turnFrame_blank (by rw [h1]; exact hv), if_neg fun k => by
    rw [h1] at k
    exact Bool.false_ne_true (hp.symm.trans k.1)]
  rfl

end

end Sys2Proof.Machine
end

section
/-! SUPPORT. The turn in LIVE after its layout read (R72, R73, R74, R84). -/

namespace Sys2Proof.Machine

set_option Elab.async false

variable {s : State} {l : Layout} {slots : List Slot} {k : EventKind} {a b c m : Nat} {bytes : List Byte}

/-- The state whose sources are latched, seen from the one in which the read was answered. -/
abbrev State.showing (s : State) (l : Layout) (slots : List Slot) : State :=
  { s with feeder.layout := rampedLayout l, intake.slots := slots, intake.hold := s.newHold (rampedLayout l) }

/-- The feeder as the frame begins. -/
abbrev State.beginning (s : State) (l : Layout) (slots : List Slot) : Feeder :=
  { s.feeder with
    layoutRead := .idle, posted := false, deferred := [], layout := rampedLayout l
    latched := (rampedLayout l).panes.filterMap (s.showing l slots).latchPane
    frameNumber := (s.feeder.frameNumber + 1) % 4294967296, liveFrame := true, late := false }

/-- Strip 0 is requested, or is background at once (R70, R71). -/
theorem Feeder.requested_first (f : Feeder) :
    if (∃ p ∈ f.latched, p.y ≤ 0 ∧ 0 < p.y + p.h) then
      (f.requested 0).request = some ⟨0, !f.scanning⟩ ∧ (f.requested 0).bufferA = f.bufferA ∧ (f.requested 0).bufferB = f.bufferB
    else
      (f.requested 0).request = f.request
        ∧ (if f.scanning then (f.requested 0).bufferA else (f.requested 0).bufferB) = .solid f.layout.background
        ∧ (if f.scanning then (f.requested 0).bufferB = f.bufferB else (f.requested 0).bufferA = f.bufferA) := by
  split
  next h =>
    rw [Feeder.requested_crossed h]
    exact ⟨rfl, rfl, rfl⟩
  next h =>
    rw [Feeder.requested_uncrossed h]
    cases f.scanning <;> exact ⟨rfl, rfl, rfl⟩

section
variable (due : s.post.holdoffDue = false)
include due

/-- In LIVE the frame begins with the layout of the answer. -/
theorem resumedLive_feeder (l : Layout) (slots : List Slot) (k : EventKind) (a b c : Nat) :
    (s.resumed l slots k a b c).nextLive.feeder = (s.beginning l slots).requested 0 := by
  have first := resumed_unchanged s l slots k a b c
  have hf := resumed_feeder s l slots k a b c
  have hi := resumed_intake s l slots k a b c
  obtain ⟨y, hy⟩ : ∃ y, y = s.resumed l slots k a b c := ⟨_, rfl⟩
  rw [← hy] at first hf hi ⊢
  have due' : y.post.holdoffDue = false := (first .moderation (by decide)).2.2.trans due
  have setup : y.post.setup = s.post.setup := (first .setup (by decide)).1
  have latch : y.displaying.latchPane = (s.showing l slots).latchPane :=
    latchPane_congr (by simp only [hi, hf, State.newHold]) setup (by simp only [hf])
  rw [nextLive_feeder due', latch, hf]

theorem resumedLive_intake (l : Layout) (slots : List Slot) (k : EventKind) (a b c : Nat) :
    (s.resumed l slots k a b c).nextLive.intake = { s.intake with slots := slots, hold := s.newHold (rampedLayout l) } := by
  have due' : (s.resumed l slots k a b c).post.holdoffDue = false :=
    (resumed_unchanged s l slots k a b c .moderation (by decide)).2.2.trans due
  rw [nextLive_intake due', State.newHold, resumed_intake, resumed_feeder]
  rfl

theorem resumedLive_unchanged (l : Layout) (slots : List Slot) (k : EventKind) (a b c : Nat) :
    Unchanged [.frameTurn, .layout, .strips, .lateness, .frameNumber, .moderation, .timer, .safety, .slots, .records, .raised, .arbiter]
      s (s.resumed l slots k a b c).nextLive :=
  (resumed_unchanged s l slots k a b c).comp
    (nextLive_unchanged ((resumed_unchanged s l slots k a b c .moderation (by decide)).2.2.trans due))

theorem resumedLive_counted (l : Layout) (slots : List Slot) (k : EventKind) (a b c : Nat) :
    Counted s (s.resumed l slots k a b c).nextLive :=
  .after (resumed_unchanged s l slots k a b c)
    (nextLive_counted ((resumed_unchanged s l slots k a b c .moderation (by decide)).2.2.trans due))

theorem resumedLive_sends (l : Layout) (slots : List Slot) (k : EventKind) (a b c : Nat) :
    Sends [writeOf 0x20 ((s.showing l slots).frameFields ((s.feeder.frameNumber + 1) % 4294967296))] [(.feeder, k, a, b, c)]
      s (s.resumed l slots k a b c).nextLive := by
  have first := resumed_unchanged s l slots k a b c
  have hf := resumed_feeder s l slots k a b c
  have hi := resumed_intake s l slots k a b c
  have sent := resumed_sends s l slots k a b c
  obtain ⟨y, hy⟩ : ∃ y, y = s.resumed l slots k a b c := ⟨_, rfl⟩
  rw [← hy] at first hf hi sent ⊢
  have due' : y.post.holdoffDue = false := (first .moderation (by decide)).2.2.trans due
  have shown := shown_unchanged y
  have errors := (first .errors (by decide))
  have errors' := (shown .errors (by decide))
  have setup : y.shown.post.setup = s.post.setup := ((shown .setup (by decide)).1).trans (first .setup (by decide)).1
  have hsf : y.shown.feeder.view = s.feeder.view ∧ y.shown.feeder.layout = rampedLayout l
      ∧ (y.shown.feeder.underruns = s.feeder.underruns ∧ y.shown.feeder.faults = s.feeder.faults)
      ∧ y.shown.feeder.frameNumber = s.feeder.frameNumber := by
    rw [shown_eq]
    dsimp only
    rw [hf]
    exact ⟨rfl, rfl, ⟨rfl, rfl⟩, rfl⟩
  have hsi : y.shown.intake = (s.showing l slots).intake := by
    rw [shown_eq]
    simp only [hi, hf, State.newHold]
  obtain ⟨h1, h2, h3, h4⟩ := hsf
  have fields := frameFields_congr (y := s.showing l slots) hsi (shown.monitor.trans first.monitor) setup
    ⟨errors'.1.trans errors.1, errors'.2.1.trans errors.2.1⟩ h1 h2 h3 h4
  have next := nextLive_sends due'
  rw [fields, show y.feeder.frameNumber = s.feeder.frameNumber by rw [hf]] at next
  exact sent.trans next

/-- The read does not end the shutdown, and the engine takes work at the end of the turn. -/
theorem resumedLive_closed (hv : s.feeder.view = .live) (up : s.staysUp) (l : Layout) (slots : List Slot) (k : EventKind) (a b c : Nat)
    (hd : s.feeder.deferred = []) :
    s.closeWork (State.feederAll s.feeder.deferred (s.resumed l slots k a b c).frameTurnRest).shutdownTest
      = s.closeWork (s.resumed l slots k a b c).nextLive := by
  have hf := resumed_feeder s l slots k a b c
  have due' := (resumed_unchanged s l slots k a b c .moderation (by decide)).2.2.trans due
  have all := resumedLive_unchanged due l slots k a b c
  have waits : WaitsOn s (s.resumed l slots k a b c).nextLive :=
    (resumed_waitsOn s l slots k a b c).trans ((WaitsOn.of_unchanged (shown_unchanged _)).trans
      ((countFrame_waitsOn (by rw [shown_eq]; exact due')).trans (.of_unchanged (State.beginLiveFrame_unchanged _))))
  rw [hd, frameTurnRest_live (by rw [hf]; exact hv)]
  refine closeWork_resumed up all waits ?_ (.inr rfl)
  unfold State.entriesDone
  rw [resumedLive_feeder due, hd, show (s.resumed l slots k a b c).nextLive.control.announcements = _ from all .announcements (by decide)]
  rfl


/-- What the step leaves where the read is answered in LIVE. -/
theorem answered_live (hv : s.feeder.view = .live) (up : s.staysUp) (hd : s.feeder.deferred = []) (hx : exec .layoutReadDone s = .next (s.closeWork
      (State.feederAll s.feeder.deferred (s.resumed l slots k a b c).frameTurnRest).shutdownTest)) :
    Completes .layoutReadDone s fun t =>
      t.feeder = (s.beginning l slots).requested 0
        ∧ t.intake = { s.intake with slots := slots, hold := s.newHold (rampedLayout l) } ∧ Counted s t
        ∧ Did [.frameTurn, .layout, .strips, .lateness, .frameNumber, .moderation, .timer, .safety, .slots]
            [writeOf 0x20 ((s.showing l slots).frameFields ((s.feeder.frameNumber + 1) % 4294967296))] [(.feeder, k, a, b, c)] s t := by
  rw [resumedLive_closed due hv up _ _ _ _ _ _ hd] at hx
  exact ⟨_, hx, (State.closeWork_feeder _ _).trans (resumedLive_feeder due l slots k a b c),
    (State.closeWork_intake _ _).trans (resumedLive_intake due l slots k a b c),
    (resumedLive_counted due l slots k a b c).before (s.closeWork_unchanged _),
    (resumedLive_sends due l slots k a b c).did (resumedLive_unchanged due l slots k a b c).mono⟩

end

/-! ## In STANDBY -/

section
variable (hv : s.feeder.view = .standby) (due : s.post.holdoffDue = false) (up : s.staysUp)
include hv due up

/-- What the step leaves where the read is answered in STANDBY. -/
theorem answered_standby (he : ∀ e ∈ s.feeder.deferred, e.still) (hx : exec .layoutReadDone s = .next (s.closeWork
      (State.feederAll s.feeder.deferred (s.resumed l s.intake.slots k a b c).frameTurnRest).shutdownTest)) :
    Completes .layoutReadDone s fun t => ∃ d p,
      t.feeder = { s.feeder with
          layoutRead := .idle, posted := p, deferred := [], layout := rampedLayout l, display := d
          frameNumber := (s.feeder.frameNumber + 1) % 4294967296 }
        ∧ (p = true ↔ .takeLayout ∈ s.feeder.deferred)
        ∧ ((∃ i, .scanout i ∈ s.feeder.deferred ∧ i + 1 < stripCount s.feeder.outputMode) → d = .solid ⟨16, 128, 128⟩)
        ∧ ((∀ i, .scanout i ∉ s.feeder.deferred) → d = s.feeder.display) ∧ Counted s t
        ∧ Did [.frameTurn, .layout, .strips, .frameNumber, .moderation, .timer, .safety]
            [writeOf 0x20 (({ s with feeder.layout := rampedLayout l } : State).frameFields ((s.feeder.frameNumber + 1) % 4294967296))]
            [(.feeder, k, a, b, c)] s t := by
  rw [resumed_still hv due up he] at hx
  have hf := resumed_feeder s l s.intake.slots k a b c
  have hi := resumed_intake s l s.intake.slots k a b c
  have first := resumed_unmoved s l k a b c
  have sent := resumed_sends s l s.intake.slots k a b c
  obtain ⟨y, hy⟩ : ∃ y, y = s.resumed l s.intake.slots k a b c := ⟨_, rfl⟩
  rw [← hy] at hx hf hi first sent
  have due' : y.post.holdoffDue = false := (first .moderation (by decide)).2.2.trans due
  obtain ⟨d, p, hz, posted, blank, kept⟩ := countedOn_feeder due' he
  rw [hf] at hz posted blank kept
  have errors := first .errors (by decide)
  have field (l : Layout) (i : Nat) :
      ({ y with feeder.layout := l } : State).frameFields i = ({ s with feeder.layout := l } : State).frameFields i :=
    frameFields_congr (x := { y with feeder.layout := l }) (y := { s with feeder.layout := l }) (by rw [hi]) first.monitor
      (first .setup (by decide)).1 ⟨errors.1, errors.2.1⟩ (by rw [hf]) rfl (by rw [hf]; exact ⟨rfl, rfl⟩) (by rw [hf]) i
  have ops := sent.trans (countedOn_sends (events := s.feeder.deferred) due')
  rw [field, show y.feeder.layout = l by rw [hf], show y.feeder.frameNumber = s.feeder.frameNumber by rw [hf]] at ops
  exact ⟨_, hx, d, p, (State.closeWork_feeder _ _).trans hz, by simpa using posted, blank, kept,
    (Counted.after first (countedOn_counted due' he)).before (s.closeWork_unchanged _), ops.did (first.comp (countedOn_unchanged due' he))⟩

/-- What the step leaves where a further turn has been kept behind a read that failed (R72, R76, R163). -/
theorem unread_turn (hd : s.feeder.deferred = [.turn m]) (hr : s.feeder.layoutRead = .error bytes) (ht : s.post.timer = none) :
    Completes .layoutReadDone s fun t =>
      t.feeder = ({ s.feeder with layoutRead := .idle, posted := false, deferred := [] } : Feeder).twice m
        ∧ Did [.frameTurn, .layout, .strips, .frameNumber, .timer, .safety]
          [writeOf 0x20 (({ s with feeder.layout := rampedLayout s.feeder.layout } : State).frameFields ((s.feeder.frameNumber + 1) % 4294967296)),
            writeOf 0x20 (({ s with feeder.layout := (s.feeder.twice m).layout } : State).frameFields (s.feeder.twice m).frameNumber)]
          [(.feeder, .layoutRefused, 6, s.feeder.layout.generation, 0)] s t := by
  have hv' : s.feeder.view ≠ .live := by rw [hv]; nofun
  have hx := exec_layoutReadDone_unread hr
  have hf := resumed_feeder s s.feeder.layout s.intake.slots .layoutRefused 6 s.feeder.layout.generation 0
  have hi := resumed_intake s s.feeder.layout s.intake.slots .layoutRefused 6 s.feeder.layout.generation 0
  have first := resumed_unmoved s s.feeder.layout .layoutRefused 6 s.feeder.layout.generation 0
  have sent := resumed_sends s s.feeder.layout s.intake.slots .layoutRefused 6 s.feeder.layout.generation 0
  have waits := resumed_waitsOn s s.feeder.layout s.intake.slots .layoutRefused 6 s.feeder.layout.generation 0
  obtain ⟨y, hy⟩ : ∃ y, y = s.resumed s.feeder.layout s.intake.slots .layoutRefused 6 s.feeder.layout.generation 0 := ⟨_, rfl⟩
  rw [← hy] at hx hf hi first sent waits
  have moderation := first .moderation (by decide)
  have due' : y.post.holdoffDue = false := moderation.2.2.trans due
  have ht' : y.post.timer = none := moderation.2.1.trans ht
  have hyv : y.feeder.view ≠ .live := by rw [hf]; exact hv'
  have all : Unchanged [.frameTurn, .layout, .strips, .frameNumber, .timer, .safety, .records, .raised, .arbiter] s (y.countedTwice m) :=
    first.comp (countedTwice_unchanged due' ht' m)
  have hzf : (y.countedTwice m).feeder = y.feeder.twice m := countedTwice_feeder due' ht'
  have entries : (y.countedTwice m).entriesDone = s.entriesDone := by
    unfold State.entriesDone
    rw [hzf, hf, hd, show (y.countedTwice m).control.announcements = _ from all .announcements (by decide)]
    rfl
  rw [hd, frameTurnRest_turn hyv due' ht' (by rw [hf]) (by rw [hf]),
    closeWork_resumed up all (waits.trans (countedTwice_waitsOn due' ht' m)) entries (.inr rfl)] at hx
  have errors := first .errors (by decide)
  have field (l : Layout) (i : Nat) :
      ({ y with feeder.layout := l } : State).frameFields i = ({ s with feeder.layout := l } : State).frameFields i :=
    frameFields_congr (x := { y with feeder.layout := l }) (y := { s with feeder.layout := l }) (by rw [hi]) first.monitor
      (first .setup (by decide)).1 ⟨errors.1, errors.2.1⟩ (by rw [hf]) rfl (by rw [hf]; exact ⟨rfl, rfl⟩) (by rw [hf]) i
  have ops := sent.trans (countedTwice_sends hyv due' ht' m)
  have layout : (y.feeder.twice m).layout = (s.feeder.twice m).layout := by simp only [Feeder.twice, hf]
  have number : (y.feeder.twice m).frameNumber = (s.feeder.twice m).frameNumber := by simp only [Feeder.twice, hf]
  rw [field, field, layout, number, show y.feeder.layout = s.feeder.layout by rw [hf],
    show y.feeder.frameNumber = s.feeder.frameNumber by rw [hf]] at ops
  exact ⟨_, hx, ((State.closeWork_feeder _ _).trans hzf).trans (by rw [hf]), ops.did all.mono⟩

end

end Sys2Proof.Machine
end

section

open Sys2Proof Sys2Proof.Machine

/-- Settles O52: the answer to the record by its checks and the freeze pin, and the turn that goes on from the answer. -/
theorem layoutsAreTakenOrRefused : Obligations.LayoutsAreTakenOrRefused := by
  refine ⟨fun s hon hn hr => ?_, ?_, ?_, ?_⟩
  · obtain ⟨t, hx, hf, hm, did⟩ := turn_kept hon hn hr
    refine ⟨t, hx, ?_, ?_, hm, ?_, ?_, did⟩ <;> rw [hf]
  · intro s before m hv hd hr ht due up size once twice n fields
    obtain ⟨t, hx, hf, did⟩ := unread_turn hv due up hd hr ht
    have hlayout : (s.feeder.twice m).layout = twice := by
      show rampedLayout (if _ then _ else defaultLayout (rasterSize m)) = _
      rw [rasterSize_eq]
      rfl
    rw [hlayout] at did
    refine ⟨t, hx, ?_, ?_, ?_, ?_, ?_, ?_, ?_, ?_, did⟩
    case refine_4 => rw [hf]; exact hlayout
    all_goals rw [hf] <;> rfl
  · intro s hv he due hfree up g rest changed fields refused
    have goes (l : Layout) (k : EventKind) (a b c : Nat) (hx : exec .layoutReadDone s = .next (s.closeWork
        (State.feederAll s.feeder.deferred (s.resumed l s.intake.slots k a b c).frameTurnRest).shutdownTest)) :
        Completes .layoutReadDone s fun t =>
          rest t ∧ t.feeder.layout = rampedLayout l ∧ Did changed [fields (rampedLayout l)] [(.feeder, k, a, b, c)] s t := by
      obtain ⟨t, hx, d, p, hf, posted, blank, kept, counted, did⟩ := answered_standby hv due up he hx
      refine ⟨t, hx, ⟨?_, ?_, ?_, counted, ?_, ?_, ?_, ?_, ?_, ?_, ?_, ?_, ?_⟩, ?_, did⟩
      case refine_2 => rw [hf]; exact posted
      case refine_11 =>
        rintro ⟨i, h1, h2⟩
        rw [hf]
        refine blank ⟨i, h1, ?_⟩
        rw [stripCount_eq]
        simp only [g, rasterSize_eq] at h2
        split_ifs at h2 ⊢ <;> dsimp only at h2 <;> omega
      case refine_12 => rw [hf]; exact kept
      all_goals rw [hf]
    refine ⟨fun before hr => goes _ _ _ _ _ (exec_layoutReadDone_unread hr), ?_⟩
    intro bytes hr count generation raw rect covers shares sourced
    obtain ⟨l, hl⟩ : ∃ l, l = parseLayout bytes := ⟨_, rfl⟩
    have hcount : l.count = count := by rw [hl]; rfl
    have hgeneration : l.generation = generation := by rw [hl]; rfl
    have failed {reason pane : Nat} (h : l.failure g = some (reason, pane)) : refused reason generation pane := by
      rw [hl] at h hgeneration
      rw [← hgeneration]
      exact goes _ _ _ _ _ (exec_layoutReadDone_answered hr (resumed_failed h))
    refine ⟨fun h => failed ((failure_count (by rw [hcount]; exact h)).trans (by rw [hcount])), fun hc => ?_⟩
    have hc' : l.count ≤ 4 := by rw [hcount]; exact hc
    have hp : l.panes = (List.range count).map raw := by
      rw [← hcount]
      rw [hl] at hc' ⊢
      exact parseLayout_panes hc'
    have hrect (i : Nat) : (raw i).pane.rectOk g = true ↔ rect i := rectOk_iff
    refine ⟨fun i hi h first => failed (failure_rect hc' hp hi (Bool.eq_false_of_not_eq_true (mt (hrect i).1 h))
      fun m hm => (hrect m).2 (first m hm)), fun ok => ?_⟩
    have ok' (i : Nat) (hi : i < count) := (hrect i).2 (ok i hi)
    refine ⟨fun b hb h first => failed (failure_overlap hc' hp ok' hb h first), fun apart => ?_⟩
    have rest := failure_source hc' hp ok' apart
    have hsource (i : Nat) : (raw i).sourceOk = true ↔ sourced i := sourceOk_iff
    refine ⟨fun i hi h first => failed (rest.trans ?_), fun sources => ?_⟩
    · rw [findIdx_panes.2 ⟨hi, by simpa using mt (hsource i).1 h, fun m hm => by simpa using (hsource m).2 (first m hm)⟩]
      rfl
    have passes : l.failure g = none := by
      rw [rest, findIdx_panes_none.2 fun i hi => by simpa using (hsource i).2 (sources i hi)]
      rfl
    have frozen : l.firstFreeze = ((List.range count).map raw).findIdx? fun p => decide (p.pane.kind = .freeze) := by
      unfold RawLayout.firstFreeze
      rw [hp]
    have readFree : s.settle.readOver.intake.freezeSlot = none := by rw [readOver_intake]; exact hfree
    have same : ({ s.settle.readOver with intake.slots := s.intake.slots } : State) = s.settle.readOver := by
      rw [← readOver_intake]
    refine ⟨fun i hi h first => ?_, fun noFreeze => ?_⟩
    · have found : l.firstFreeze = some i := by
        rw [frozen]
        refine findIdx_panes.2 ⟨hi, ?_, fun m hm => ?_⟩
        · exact parsePane_freeze.trans (decide_eq_true h)
        · exact parsePane_freeze.trans (decide_eq_false (first m hm))
      have settled : s.settle.readOver.settleFreeze l = ({ s.settle.readOver with intake.slots := s.intake.slots }, some 4) := by
        rw [same]
        exact State.settleFreeze_noFrame (by rw [found]; nofun) (.inl readFree) (State.newestForFreeze_none (.inr (by rw [readOver_view, hv])))
      have answer := resumed_refused (bytes := bytes) (by rw [← hl]; exact passes) (by rw [← hl]; exact settled)
      rw [← hl, found, hgeneration] at answer
      exact goes _ _ _ _ _ (exec_layoutReadDone_answered hr answer)
    · intro layout
      have found : l.firstFreeze = none := by
        rw [frozen]
        exact findIdx_panes_none.2 fun i hi => parsePane_freeze.trans (decide_eq_false (noFreeze i hi))
      have settled : s.settle.readOver.settleFreeze l = ({ s.settle.readOver with intake.slots := s.intake.slots }, none) := by
        rw [same]
        exact settleFreeze_of_noFreeze found
      have answer := resumed_taken (bytes := bytes) (by rw [← hl]; exact passes) (by rw [← hl]; exact settled) (.inr hfree)
      have slots : ({ s.intake with slots := s.intake.slots } : Intake).unfrozen = s.intake.slots := by
        unfold Intake.unfrozen
        rw [hfree]
      have adopted : layout = rampedLayout (l.adopted s.feeder.layout) := by
        show rampedLayout _ = _
        congr 1
        rw [show l.adopted s.feeder.layout = ⟨l.generation, l.background, (l.adopted s.feeder.layout).panes⟩ from rfl, adopted_panes hp, hl]
        rfl
      rw [← hl, found, if_pos rfl, slots, hgeneration, show l.panes.length = count by rw [hp]; simp] at answer
      rw [adopted]
      exact goes _ _ _ _ _ (exec_layoutReadDone_answered hr answer)
  · intro s hv hd due hw up goesOn refused
    have goes (base : Layout) (slots : List Slot) (k : EventKind) (a b c : Nat) (hx : exec .layoutReadDone s = .next (s.closeWork
        (State.feederAll s.feeder.deferred (s.resumed base slots k a b c).frameTurnRest).shutdownTest)) :
        goesOn base slots [(.feeder, k, a, b, c)] := by
      obtain ⟨t, hx, hf, hi, counted, did⟩ := answered_live due hv up hd hx
      refine ⟨t, hx, ?_, ?_, ?_, counted, ?_, ?_, ?_, ?_, ?_, ?_, ?_, ?_, ?_, ?_, ?_, ?_, ?_, ?_, ?_, did⟩
      case refine_18 =>
        rw [hf]
        exact Feeder.requested_first (s.beginning base slots)
      case refine_7 => rw [hi]
      case refine_8 => rw [hi]; rfl
      case refine_9 => rw [hi]
      all_goals rw [hf] <;> rfl
    refine ⟨fun before hr => goes _ _ _ _ _ _ (exec_layoutReadDone_unread hr), ?_⟩
    intro bytes hr l
    refine ⟨fun reason pane h => goes _ _ _ _ _ _ (exec_layoutReadDone_answered hr (resumed_failed h)), fun passes => ?_⟩
    obtain ⟨slots, found, settles⟩ := settleFreeze_slots hw l
    have here := settles s rfl rfl rfl
    have there := settles s.settle.readOver (readOver_intake s) (readOver_view s) (readOver_context s)
    refine ⟨fun settled reason i h first kept => ?_, fun settled h => ?_⟩
    · obtain ⟨rfl, rfl⟩ := Prod.mk.inj (h.symm.trans here)
      have answer := resumed_refused passes there
      rw [show (parseLayout bytes).firstFreeze = some i from first, show slots = s.intake.slots from kept] at answer
      exact goes _ _ _ _ _ _ (exec_layoutReadDone_answered hr answer)
    · obtain ⟨rfl, rfl⟩ := Prod.mk.inj (h.symm.trans here)
      have taken := goes _ _ _ _ _ _ (exec_layoutReadDone_answered hr (resumed_taken passes there (.inl hw)))
      by_cases noFreeze : l.firstFreeze = none
      · have kept := congrArg (fun q : State × Option Nat => q.1.intake.slots) ((settleFreeze_of_noFreeze noFreeze).symm.trans here)
        rw [if_pos noFreeze, show slots = s.intake.slots from kept.symm] at taken
        rw [if_pos noFreeze]
        exact taken
      · rw [if_neg noFreeze] at taken ⊢
        exact taken

end

section
/-! SUPPORT. The end of SHUTTING: what the last entry leaves, POWERDOWN, and SAFE (R128, R148, R155, R187). -/

namespace Sys2Proof.Machine

set_option Elab.async false

variable {s t u x y z : State} {b c : Block} {m : Mode} {a changed : List Piece} {ops : List RecordOp}
  {news : List (Block × EventKind × Nat × Nat × Nat)}

/-! ## Which blocks an output makes wait (R155) -/

theorem free_iff : s.free b = true ↔ (∀ w ∈ s.port.blocked, b ∉ w.blocks) ∧ ∀ o ∈ s.port.later, b ∉ o.blocks := by
  simp [State.free, State.waiting]

/-- The blocks that waited for no room still wait for none, but for the feeder and the post port. -/
def StayFree (s t : State) : Prop := ∀ b, b ≠ .feeder → b ≠ .post → s.free b = true → t.free b = true

theorem StayFree.trans (h : StayFree s t) (k : StayFree t u) : StayFree s u := fun b hf hp hb => k b hf hp (h b hf hp hb)

theorem StayFree.same (h : t.port.blocked = s.port.blocked := by rfl) (k : t.port.later = s.port.later := by rfl) : StayFree s t := by
  intro b _ _ hb
  rwa [free_iff, h, k, ← free_iff]

theorem StayFree.of_unchanged (h : Unchanged changed s t) (hr : Piece.records ∉ changed := by decide) : StayFree s t :=
  .same (h .records hr).2.1 (h .records hr).2.2

theorem hold_stayFree {o : Output} (h : ∀ b ∈ o.blocks, b = .feeder ∨ b = .post) : StayFree s (s.hold o) := by
  intro b hf hp hb
  rw [free_iff] at hb ⊢
  refine ⟨hb.1, fun q hq => ?_⟩
  rcases List.mem_append.1 hq with hq | hq
  · exact hb.2 q hq
  · rw [List.mem_singleton.1 hq]
    exact fun k => (h b k).elim hf hp

/-- A notice to the post port makes no other block wait than the one that gives it. -/
theorem notice_stayFree (ha : b = .feeder ∨ b = .post) (op : RecordOp) : StayFree s (s.issue b .post op) := by
  unfold State.issue State.emit
  split
  · refine hold_stayFree fun c hc => ?_
    have hc : c ∈ [b] := hc
    rwa [List.mem_singleton.1 hc]
  · unfold State.put
    dsimp only
    split
    · refine hold_stayFree fun c hc => ?_
      have hc : c ∈ [Block.post] := hc
      exact .inr (List.mem_singleton.1 hc)
    · unfold State.join
      split
      · exact (StayFree.same : StayFree s { s with port.queue := s.port.queue ++ [op] }).trans (.of_unchanged (State.makeGrant_unchanged _))
      · intro c hf hp hc
        rw [free_iff] at hc ⊢
        refine ⟨fun w hw => ?_, hc.2⟩
        rcases List.mem_append.1 hw with hw | hw
        · exact hc.1 w hw
        · rw [List.mem_singleton.1 hw]
          have hblocks : (if waitsFor Block.post b = Block.post then [Block.post] else [Block.post, waitsFor Block.post b]) = [Block.post] := rfl
          dsimp only
          rw [hblocks]
          simpa using hp

theorem raise_stayFree (ha : b = .feeder ∨ b = .post) (k : EventKind) (n i j : Nat) : StayFree s (s.raise b k n i j) := by
  unfold State.raise State.emit
  split
  · refine hold_stayFree fun c hc => ?_
    have hc : c ∈ [b] := hc
    rwa [List.mem_singleton.1 hc]
  · exact .same

theorem resolveHoldoff_stayFree (s : State) : StayFree s s.resolveHoldoff := by
  unfold State.resolveHoldoff
  split
  · unfold State.signalReady State.emit
    split
    · refine StayFree.trans (.same : StayFree s { s.stopTimer with post.unsignalled := 0 }) (hold_stayFree fun c hc => ?_)
      have hc : c ∈ [Block.post] := hc
      exact .inr (List.mem_singleton.1 hc)
    · exact .same
  · exact .same

/-! ## The engine in SHUTTING (R94, R95) -/

/-- In SHUTTING, with no capture, nothing is offered to the engine. -/
theorem takeWork_shutting (hm : s.control.mode = .shutting) (hc : s.capture.context.state = .idle) : s.takeWork = s := by
  have notLive : s.control.mode ≠ .live := by rw [hm]; nofun
  exact takeWork_nothing (fun h => notLive h.1) (fun h => absurd (hc.symm.trans h.1) nofun) (fun h => notLive h.1)
    (scanOffered_of_mode notLive)

/-! ## POWERDOWN (R187) -/

/-- The part has entered POWERDOWN, and raised POWER_SAFE. -/
def State.poweredOff (s : State) : State :=
  (s.changeMode .powerdown causeShutdownDone).raise .mode .powerSafe 0 s.control.shuttingFrames s.capture.counter

theorem poweredOff_control (s : State) : s.poweredOff.control = { s.control with
    mode := .powerdown, announcements := s.control.announcements ++ announcedBlocks.map (Announcement.mk · .powerdown) } := by
  unfold State.poweredOff
  rw [State.raise_control, State.changeMode_control]
  simp

theorem poweredOff_unchanged (s : State) : Unchanged [.mode, .announcements, .records, .raised, .arbiter] s s.poweredOff :=
  (s.changeMode_kept .powerdown causeShutdownDone (by decide)).comp (State.raise_unchanged _ _ _ _ _ _)

theorem poweredOff_sends (hm : s.control.mode = .shutting) : Sends powerdownOps s.powerdownNews s s.poweredOff := by
  have sent := s.changeMode_sends .powerdown causeShutdownDone
  rw [hm] at sent
  exact sent.thenNews (State.raise_sends _ _ _ _ _ _)

/-- The test of R187 is met. -/
def State.mayEnd (s : State) : Prop :=
  s.control.mode = .shutting ∧ s.entriesDone = true ∧ s.capture.context.state = .idle ∧ s.jobs.running = none
    ∧ s.free .capture = true ∧ s.free .jobs = true

theorem shutdownTest_met (h : s.mayEnd) : s.shutdownTest = s.poweredOff := if_pos h

/-- A step whose last act ends the shutdown. -/
theorem shutdown_ends {cmd : Instr} {own : List Piece} (hx : exec cmd s = .next (s.closeWork z.shutdownTest)) (h : z.mayEnd)
    (hu : Unchanged (own ++ [.announcements] ++ .records :: closing) s z) (sent : Sends ops news s z)
    (hf : z.control.shuttingFrames = s.control.shuttingFrames ∧ z.capture.counter = s.capture.counter) :
    ∃ t, exec cmd s = .next (s.closeWork t) ∧ t.control.mode = .powerdown
      ∧ t.control.announcements = announcedBlocks.map (Announcement.mk · .powerdown) ∧ t.engine = z.engine ∧ t.feeder = z.feeder
      ∧ Did (own ++ [.mode, .announcements]) (ops ++ powerdownOps) (news ++ s.powerdownNews) s (s.closeWork t) := by
  have hm := h.1
  have done : z.control.announcements = [] := by
    have entries := h.2.1
    unfold State.entriesDone at entries
    exact of_decide_eq_true (Bool.and_eq_true .. ▸ entries).1
  have off := poweredOff_unchanged z
  have sent' := sent.trans (poweredOff_sends hm)
  rw [show z.powerdownNews = s.powerdownNews by unfold State.powerdownNews; rw [hf.1, hf.2]] at sent'
  refine ⟨z.poweredOff, by rw [hx, shutdownTest_met h], ?_, ?_, off .unit (by decide), off.feeder, sent'.did ?_⟩
  · rw [poweredOff_control]
  · rw [poweredOff_control, done]
    rfl
  · refine hu.comp off (fun p hp => ?_) (fun p hp => ?_) <;>
    · simp only [List.mem_append, List.mem_cons, List.not_mem_nil, or_false] at hp ⊢
      tauto

/-! ## The entry of SHUTTING at each block (R17, R25, R128, R148, R182) -/

/-- The last announcement is handed over. -/
theorem execModeEntry_last (ha : s.control.announcements = [⟨b, m⟩]) (ht : s.takesEntry b = true) :
    exec (.modeEntry b) s = .next (s.closeWork ((({ s with control.announcements := [] } : State).blockEntry b m).shutdownTest)) := by
  have announced : s.control.announced b = some ⟨b, m⟩ := by simp [ModeControl.announced, ha]
  have dropped : s.dropAnnouncement ⟨b, m⟩ = { s with control.announcements := [] } := by simp [State.dropAnnouncement, ha]
  show execModeEntry b s = _
  unfold execModeEntry
  rw [announced, ht, ← dropped]

/-- With no capture waiting, the capture unit marks the decisions on their way (R128). -/
theorem captureEntry_idle (hc : s.capture.context.state = .idle) :
    s.captureEntry .shutting = ({ s with capture.view := .shutting } : State).markShutting := by
  show ({ s with capture.view := .shutting } : State).markShutting.missWaiting missPower = _
  exact if_neg (by simp [State.waitingCapture, State.markShutting, hc])

/-- A pending entry is cancelled; any other stays (R148). -/
def State.cancelIfPending (s : State) (n : Nat) : State :=
  if (s.jobs.entry n).state = .pending then s.endEntry n .cancelled reasonPower else s

theorem endEntry_sends (s : State) (n : Nat) (st : JobState) (r : Nat) :
    Sends [outcomeOp n st.value r 0 255] [(.jobs, .jobEnd, n, st.value, r)] s (s.endEntry n st r) :=
  (s.writeOutcome_sends n ⟨st, r, 0, 255⟩).thenNews (State.raise_sends _ _ _ _ _ _)

theorem endEntry_entry {n k : Nat} (h : k ≠ n) (st : JobState) (r : Nat) : (s.endEntry n st r).jobs.entry k = s.jobs.entry k := by
  unfold Jobs.entry State.endEntry
  rw [State.raise_jobs, State.writeOutcome_entries, List.getD_eq_getElem?_getD, List.getD_eq_getElem?_getD, List.getElem?_set_ne h.symm]

/-- The entries of a list that are pending. -/
def Jobs.pendingOf (j : Jobs) (l : List Nat) : List Nat := l.filter fun n => decide ((j.entry n).state = .pending)

theorem cancelAll_sends (l : List Nat) (hl : l.Nodup) (s : State) :
    Sends ((s.jobs.pendingOf l).map fun n => outcomeOp n 4 12 0 255) ((s.jobs.pendingOf l).map fun n => (.jobs, .jobEnd, n, 4, 12))
      s (l.foldl State.cancelIfPending s) := by
  induction l generalizing s with
  | nil => exact .refl s
  | cons n l ih =>
    obtain ⟨hn, hl⟩ := List.nodup_cons.1 hl
    rw [List.foldl_cons]
    have rest := ih hl (s.cancelIfPending n)
    have kept : (s.cancelIfPending n).jobs.pendingOf l = s.jobs.pendingOf l := by
      refine List.filter_congr fun k hk => ?_
      unfold State.cancelIfPending
      split
      · rw [endEntry_entry (show k ≠ n by rintro rfl; exact hn hk)]
      · rfl
    rw [kept] at rest
    by_cases h : (s.jobs.entry n).state = .pending
    · have first : Sends [outcomeOp n 4 12 0 255] [(.jobs, .jobEnd, n, 4, 12)] s (s.cancelIfPending n) := by
        unfold State.cancelIfPending
        rw [if_pos h]
        exact endEntry_sends s n .cancelled reasonPower
      have cons : s.jobs.pendingOf (n :: l) = n :: s.jobs.pendingOf l := List.filter_cons_of_pos (by simpa using h)
      rw [cons]
      exact first.trans rest
    · have first : s.cancelIfPending n = s := if_neg h
      have cons : s.jobs.pendingOf (n :: l) = s.jobs.pendingOf l := List.filter_cons_of_neg (by simpa using h)
      rw [cons]
      rwa [first] at rest ⊢

/-- The pending entries are cancelled, each with its outcome and its end, in increasing order (R148). -/
theorem cancelPending_sends (s : State) :
    Sends ((s.jobs.pendingOf (List.range 16)).map fun n => outcomeOp n 4 12 0 255)
      ((s.jobs.pendingOf (List.range 16)).map fun n => (.jobs, .jobEnd, n, 4, 12)) s s.cancelPending :=
  cancelAll_sends (List.range 16) List.nodup_range s

/-- With no job running, the runner's entry voids its scan and cancels what is pending (R148). -/
theorem jobsEntry_idle (hj : s.jobs.running = none) :
    s.jobsEntry .shutting = ({ s with jobs.view := .shutting } : State).voidScan.cancelPending := by
  have still : ({ s with jobs.view := .shutting } : State).voidScan.stopJob reasonPower = ({ s with jobs.view := .shutting } : State).voidScan := by
    unfold State.stopJob
    rw [show ({ s with jobs.view := .shutting } : State).voidScan.jobs.running = none from hj]
  show (({ s with jobs.view := .shutting } : State).voidScan.stopJob reasonPower).cancelPending = _
  rw [still]

/-! ## SAFE (R187) -/

theorem exec_safeAssert (h : s.control.safeAfter = some 0) :
    exec .safeAssert s = .next (s.closeWork ({ s.settle with control.safe := true, control.safeAfter := none }.setCause .powerSafe)) := by
  have hd : s.drain State.safeReached = s.settle := State.drain_done (by simp [State.safeReached, h])
  show execSafeAssert s = _
  unfold execSafeAssert
  rw [if_pos (by rw [h]; rfl), hd]

end Sys2Proof.Machine
end

section
/-! SUPPORT. The last entry of SHUTTING at the feeder, at once or behind its layout read (R72, R89, R187). -/

namespace Sys2Proof.Machine

set_option Elab.async false

variable {s t u x y z : State} {b : Block} {m : Mode} {changed : List Piece} {ops : List RecordOp}
  {news : List (Block × EventKind × Nat × Nat × Nat)}

/-! ## The feeder's entry -/

theorem entryRest_stayFree (s : State) (m : Mode) : StayFree s (s.entryRest m) := by
  have recover : StayFree s.leftLive s.leftLive.recoverAtEntry := by
    unfold State.recoverAtEntry
    split
    · refine StayFree.trans ?_ (raise_stayFree (.inl rfl) _ _ _ _)
      unfold State.setDegraded
      split
      · exact .same
      · exact StayFree.trans (.same : StayFree s.leftLive { s.leftLive with feeder.degraded := false }) (notice_stayFree (.inl rfl) _)
    · exact .same
  exact ((StayFree.same : StayFree s s.leftLive).trans recover).trans .same

/-- In SHUTTING, with no capture, the feeder's entry begins no work. -/
theorem feederEntry_shutting (hm : s.control.mode = .shutting) (hc : s.capture.context.state = .idle) :
    s.feederEntry .shutting = (s.enteredView .shutting).entryRest .shutting := by
  have viewed := s.enteredView_unchanged .shutting
  have mode : (s.enteredView .shutting).control.mode = .shutting := (show _ = s.control.mode from viewed .mode (by decide)).trans hm
  have context : (s.enteredView .shutting).capture.context = s.capture.context := viewed .context (by decide)
  rw [feederEntry_leaves (.inr rfl) (.inl (by rw [hc]; nofun)), takeWork_shutting mode (by rw [context, hc])]

/-- The feeder has taken the entry to SHUTTING. -/
abbrev State.feederShut (s : State) : State := (s.enteredView .shutting).entryRest .shutting

theorem feederShut_unchanged (s : State) :
    Unchanged [.views, .strips, .unit, .slots, .lateness, .frameTurn, .records, .raised, .arbiter] s s.feederShut :=
  (s.enteredView_unchanged .shutting).comp (entryRest_unchanged _ .shutting)

theorem feederShut_feeder (s : State) : s.feederShut.feeder = { s.feeder with
    view := .shutting, request := none, latched := [], liveFrame := false, late := false, underrunRun := 0, cleanRun := 0
    degraded := false, posted := false } := by
  rw [State.feederShut, State.entryRest_feeder, State.enteredView_feeder]
  simp

theorem feederShut_stayFree (s : State) : StayFree s s.feederShut :=
  (StayFree.of_unchanged (s.enteredView_unchanged .shutting)).trans (entryRest_stayFree _ .shutting)

theorem feederShut_sends (s : State) :
    Sends (if s.feeder.degraded = true then [fieldWrite 0x0F 1 0] else [])
      (if s.feeder.degraded = true then [(.feeder, .displayRecovered, 1, s.feeder.frameNumber, 0)] else []) s s.feederShut := by
  have sent := entryRest_sends (s.enteredView .shutting) .shutting
  rw [State.enteredView_feeder] at sent
  exact (Sends.of_unchanged (s.enteredView_unchanged .shutting)).after sent

/-! ## The test at the last entry -/

/-- What a block's entry leaves lets the test of R187 be met. -/
theorem mayEnd_of (h : Unchanged changed s z) (hm : s.control.mode = .shutting) (ha : s.control.announcements = [])
    (hd : z.feeder.deferred.any FeederEvent.isEntry = false) (hc : s.capture.context.state = .idle) (hj : s.jobs.running = none)
    (free : z.free .capture = true ∧ z.free .jobs = true)
    (k : ∀ p ∈ [Piece.mode, .announcements, .context, .runningJob], p ∉ changed := by decide) : z.mayEnd := by
  have h1 : z.control.mode = s.control.mode := h .mode (k _ (by simp))
  have h2 : z.control.announcements = s.control.announcements := h .announcements (k _ (by simp))
  have h3 : z.capture.context = s.capture.context := h .context (k _ (by simp))
  have h4 : z.jobs.running = s.jobs.running := h .runningJob (k _ (by simp))
  refine ⟨h1.trans hm, ?_, by rw [h3, hc], h4.trans hj, free⟩
  simp [State.entriesDone, h2, ha, hd]

/-- A step that also voids a scan did what it did with the scan as the work that may begin in it. -/
theorem Did.withoutScan {own : List Piece} (h : Did (own ++ [.scan]) ops news s t) : Did own ops news s t := by
  obtain ⟨h1, h2, h3, h4, h5⟩ := h
  refine ⟨h1.mono fun p hp => ?_, fun k => h2 (by simpa using k), fun k => h3 (by simpa using k), fun k => h4 (by simpa using k), h5⟩
  rcases List.mem_append.1 hp with hp | hp
  · rcases List.mem_append.1 hp with hp | hp
    · exact List.mem_append_left _ hp
    · rw [List.mem_singleton.1 hp]
      exact List.mem_append_right _ (by decide)
  · exact List.mem_append_right _ hp

/-! ## The frame turn behind which the entry was kept -/

/-- Some record operations, no more than n, have been issued, and some events raised. -/
def SendsUpTo (n : Nat) (s t : State) : Prop := ∃ ops news, ops.length ≤ n ∧ Sends ops news s t

theorem SendsUpTo.trans {i j : Nat} (h : SendsUpTo i s t) (k : SendsUpTo j t u) : SendsUpTo (i + j) s u := by
  obtain ⟨o1, n1, l1, s1⟩ := h
  obtain ⟨o2, n2, l2, s2⟩ := k
  exact ⟨_, _, by rw [List.length_append]; omega, s1.trans s2⟩

theorem Sends.upTo (h : Sends ops news s t) {n : Nat} (k : ops.length ≤ n := by simp) : SendsUpTo n s t := ⟨_, _, k, h⟩

theorem signalReady_sends (s : State) : Sends [] [] s s.signalReady := by
  intro m hm
  rw [List.length_nil, Nat.zero_add] at hm
  have hw : ({ s.stopTimer with post.unsignalled := 0 } : State).waiting .post = false := State.not_waiting hm.1 _
  have e : s.signalReady = ({ s.stopTimer with post.unsignalled := 0 } : State).setCause .eventsReady := by
    unfold State.signalReady State.emit
    rw [hw]
    rfl
  rw [e]
  refine ⟨hm, ?_, .none rfl rfl⟩
  rw [List.append_nil]
  rfl

theorem countHoldoff_sends (s : State) : Sends [] [] s s.countHoldoff := by
  have first : Sends [] [] s s.resolveHoldoff := by
    unfold State.resolveHoldoff
    split
    · exact signalReady_sends s
    · exact .refl s
  unfold State.countHoldoff
  dsimp only
  split
  · exact first.before .same
  · exact first

theorem countHoldoff_stayFree (s : State) : StayFree s s.countHoldoff := by
  unfold State.countHoldoff
  dsimp only
  split
  · exact (resolveHoldoff_stayFree s).trans .same
  · exact resolveHoldoff_stayFree s

/-- What the counting of a frame leaves, whether or not a holdoff was due (R73, R176, R187). -/
theorem countFrame_any (s : State) :
    s.countFrame.feeder = { s.feeder with frameNumber := (s.feeder.frameNumber + 1) % 4294967296 }
      ∧ Unchanged [.frameNumber, .moderation, .cause, .timer, .safety, .records, .arbiter] s s.countFrame
      ∧ s.countFrame.control.shuttingFrames =
        (if s.control.mode = .shutting then s.control.shuttingFrames + 1 else s.control.shuttingFrames)
      ∧ SendsUpTo 1 s s.countFrame ∧ StayFree s s.countFrame := by
  have held := s.frameNumbered.countHoldoff_unchanged
  have control : s.frameNumbered.countHoldoff.control = s.control := by
    rw [held.control]
    simp [State.frameNumbered]
  have numbered : Sends [_] [] s s.frameNumbered := (s.issueWrite_sends .feeder .post [(0x20, s.frameFields _)]).before .same
  rw [s.countFrame_eq]
  refine ⟨?_, ?_, ?_, ?_, ?_⟩
  · show s.frameNumbered.countHoldoff.feeder = _
    rw [held.feeder, s.frameNumbered_feeder]
  · exact (s.frameNumbered_unchanged.comp held (c := [.frameNumber, .moderation, .cause, .records, .arbiter])).comp
      (State.countReaction_unchanged _)
  · unfold State.countReaction
    dsimp only
    rw [control]
  · exact ((numbered.before (countHoldoff_sends _)).before (Sends.same : Sends [] [] _ (State.countReaction _))).upTo
  · exact ((StayFree.trans (notice_stayFree (.inl rfl) _) .same : StayFree s s.frameNumbered).trans (countHoldoff_stayFree _)).trans .same

/-- What the rest of a frame turn leaves in SHUTTING (R72, R187). -/
theorem frameTurnRest_shutting (hm : s.control.mode = .shutting) (hc : s.capture.context.state = .idle) :
    Unchanged [.layout, .slots, .strips, .lateness, .frameNumber, .moderation, .cause, .timer, .safety, .records, .arbiter] s s.frameTurnRest
      ∧ s.frameTurnRest.control.shuttingFrames = s.control.shuttingFrames + 1
      ∧ SendsUpTo 1 s s.frameTurnRest ∧ StayFree s s.frameTurnRest := by
  by_cases hv : s.feeder.view = .live
  · have shown := shown_unchanged s
    obtain ⟨-, changes, frames, sent, free⟩ := countFrame_any s.shown
    have begun := State.beginLiveFrame_unchanged s.shown.countFrame
    have all : Unchanged [.layout, .slots, .strips, .lateness, .frameNumber, .moderation, .cause, .timer, .safety, .records, .arbiter] s s.nextLive :=
      (shown.comp changes (c := [.layout, .slots, .strips, .frameNumber, .moderation, .cause, .timer, .safety, .records, .arbiter])).comp begun
    have mode : s.nextLive.control.mode = s.control.mode := all .mode (by decide)
    have context : s.nextLive.capture.context = s.capture.context := all .context (by decide)
    rw [frameTurnRest_live hv, takeWork_shutting (mode.trans hm) (by rw [context, hc])]
    refine ⟨all, ?_, ?_, ?_⟩
    · rw [shown.control, if_pos hm] at frames
      exact (begun .safety (by decide)).2.2.trans frames
    · exact ((Sends.of_unchanged shown).upTo (n := 0)).trans (sent.trans ((Sends.of_unchanged begun).upTo (n := 0)))
    · exact (StayFree.of_unchanged shown).trans (free.trans (.of_unchanged begun))
  · obtain ⟨-, changes, frames, sent, free⟩ := countFrame_any s.stepRamps
    rw [show s.frameTurnRest = s.stepRamps.countFrame from if_neg hv]
    refine ⟨s.stepRamps_unchanged.comp changes, ?_, ?_, ?_⟩
    · exact frames.trans (if_pos hm)
    · exact ((Sends.same : Sends [] [] s s.stepRamps).upTo (n := 0)).trans sent
    · exact (StayFree.same : StayFree s s.stepRamps).trans free

end Sys2Proof.Machine
end

section
/-! SUPPORT. The last entry of SHUTTING, block by block, and behind a layout read (R72, R187). -/

namespace Sys2Proof.Machine

set_option Elab.async false

variable {s t x y z : State} {b : Block} {bytes : List Byte}

/-- What a block's entry to SHUTTING leaves: its own pieces, what it sends, and nobody else waiting. -/
structure EntryActs (s z : State) (own : List Piece) (ops : List RecordOp) (news : List (Block × EventKind × Nat × Nat × Nat)) : Prop where
  changes : Unchanged (own ++ [.records, .arbiter, .raised]) s z
  sends : Sends ops news s z
  deferred : z.feeder.deferred = s.feeder.deferred
  free : s.free .capture = true ∧ s.free .jobs = true → z.free .capture = true ∧ z.free .jobs = true

theorem StayFree.both (h : StayFree s z) (k : s.free .capture = true ∧ s.free .jobs = true) :
    z.free .capture = true ∧ z.free .jobs = true :=
  ⟨h .capture nofun nofun k.1, h .jobs nofun nofun k.2⟩

/-- An entry that issues and raises nothing. -/
theorem entryActs_quiet {own : List Piece} (h : Unchanged own s z)
    (k : ∀ p ∈ [Piece.records, .raised, .statistics, .frameTurn], p ∉ own := by decide) : EntryActs s z own [] [] :=
  ⟨h.mono fun _ hp => List.mem_append_left _ hp, .of_unchanged h (k _ (by simp)) (k _ (by simp)) (k _ (by simp)),
    (h .frameTurn (k _ (by simp))).2.2, (StayFree.of_unchanged h (k _ (by simp))).both⟩

theorem intake_entryActs (s : State) : EntryActs s (s.intakeEntry .shutting) [.views, .shape, .buffer, .slots] [] [] :=
  entryActs_quiet (s.intakeEntry_unchanged .shutting).mono

theorem monitor_entryActs (hf : s.waiting .monitor = false) :
    EntryActs s (s.monitorEntry .shutting) [.views, .pattern] [] (s.timeoutNews.map RaisedEvent.entry) := by
  rw [State.monitorEntry_eq hf (.inr (.inr rfl))]
  refine ⟨(s.settled_unchanged .shutting _).mono, fun n hn => ⟨?_, ?_, rfl, s.timeoutNews, rfl, rfl, fun e he => ?_⟩, rfl,
    StayFree.both .same⟩
  · rwa [List.length_nil, Nat.zero_add] at hn
  · rw [List.append_nil]
    rfl
  · unfold State.timeoutNews at he
    split at he
    · rw [List.mem_singleton.1 he]
    · exact absurd he List.not_mem_nil

theorem capture_entryActs (hc : s.capture.context.state = .idle) :
    EntryActs s (s.captureEntry .shutting) [.views, .decisions] [] [] := by
  rw [captureEntry_idle hc]
  refine entryActs_quiet fun p hp => ?_
  cases p <;> simp_all [same, State.markShutting]

theorem jobs_entryActs (hj : s.jobs.running = none)
    (room : s.roomFor ((s.jobs.pendingOf (List.range 16)).map fun n => outcomeOp n 4 12 0 255).length) :
    EntryActs s (s.jobsEntry .shutting) [.views, .jobEntries, .scan]
      ((s.jobs.pendingOf (List.range 16)).map fun n => outcomeOp n 4 12 0 255)
      ((s.jobs.pendingOf (List.range 16)).map fun n => (.jobs, .jobEnd, n, 4, 12)) := by
  obtain ⟨x, hx⟩ : ∃ x, x = ({ s with jobs.view := .shutting } : State).voidScan := ⟨_, rfl⟩
  have voided : Unchanged [.views, .scan] s x := by
    intro p hp
    subst hx
    cases p <;> simp_all [same, State.voidScan]
  have pending : x.jobs.pendingOf (List.range 16) = s.jobs.pendingOf (List.range 16) := by
    refine List.filter_congr fun n _ => ?_
    rw [show x.jobs.entry n = s.jobs.entry n by rw [hx]; rfl]
  have all := voided.comp x.cancelPending_unchanged (c := [.views, .jobEntries, .scan] ++ [.records, .arbiter, .raised])
  have sent := Sends.after (.of_unchanged voided) (cancelPending_sends x)
  rw [pending] at sent
  rw [jobsEntry_idle hj, ← hx]
  refine ⟨all, sent, (all .frameTurn (by decide)).2.2, fun _ => ?_⟩
  have waits := (sent 0 room).1.1
  exact ⟨by simp [State.free, State.not_waiting waits], by simp [State.free, State.not_waiting waits]⟩

theorem feeder_entryActs (s : State) :
    EntryActs s s.feederShut [.views, .strips, .lateness, .slots, .frameTurn, .unit]
      (if s.feeder.degraded = true then [fieldWrite 0x0F 1 0] else [])
      (if s.feeder.degraded = true then [(.feeder, .displayRecovered, 1, s.feeder.frameNumber, 0)] else []) :=
  ⟨(feederShut_unchanged s).mono, feederShut_sends s, by rw [feederShut_feeder], (feederShut_stayFree s).both⟩

/-- The part ends with the entry of the block that acts last. -/
theorem last_entry_ends {own : List Piece} {ops : List RecordOp} {news : List (Block × EventKind × Nat × Nat × Nat)}
    (hm : s.control.mode = .shutting) (ha : s.control.announcements = [⟨b, .shutting⟩]) (hc : s.capture.context.state = .idle)
    (hj : s.jobs.running = none) (free : s.free .capture = true ∧ s.free .jobs = true) (ht : s.takesEntry b = true)
    (hd : ∀ e ∈ s.feeder.deferred, ∀ m, e ≠ .entry m)
    (acts : EntryActs { s with control.announcements := [] } (({ s with control.announcements := [] } : State).blockEntry b .shutting) own ops news)
    (k : ∀ p ∈ [Piece.mode, .announcements, .safety, .lesson, .context, .runningJob], p ∉ own := by decide) :
    ∃ t, exec (.modeEntry b) s = .next (s.closeWork t) ∧ t.control.mode = .powerdown
      ∧ t.control.announcements = announcedBlocks.map (Announcement.mk · .powerdown)
      ∧ t.engine = (({ s with control.announcements := [] } : State).blockEntry b .shutting).engine
      ∧ Did (own ++ [.mode, .announcements]) (ops ++ powerdownOps) (news ++ s.powerdownNews) s (s.closeWork t) := by
  have hx := execModeEntry_last ha ht
  obtain ⟨d, hd'⟩ : ∃ d : State, d = { s with control.announcements := [] } := ⟨_, rfl⟩
  rw [← hd'] at hx acts ⊢
  have dropped : Unchanged [.announcements] s d := by
    intro p hp
    subst hd'
    cases p <;> simp_all [same]
  have not (p : Piece) (h : p ∈ [Piece.mode, .announcements, .safety, .lesson, .context, .runningJob]) :
      p ∉ own ++ [.records, .arbiter, .raised] := by
    intro hp
    rcases List.mem_append.1 hp with hp | hp
    · exact k p h hp
    · exact (by decide : ∀ p ∈ [Piece.mode, .announcements, .safety, .lesson, .context, .runningJob],
        p ∉ [Piece.records, .arbiter, .raised]) p h hp
  have entries : d.feeder.deferred.any FeederEvent.isEntry = false := by
    rw [List.any_eq_false]
    intro e he
    have := hd e (by rw [hd'] at he; exact he)
    cases e with
    | entry m => exact absurd rfl (this m)
    | _ => exact nofun
  have ends : (d.blockEntry b .shutting).mayEnd :=
    mayEnd_of acts.changes (by rw [hd']; exact hm) (by rw [hd']) (by rw [acts.deferred]; exact entries) (by rw [hd']; exact hc)
      (by rw [hd']; exact hj) (acts.free (by rw [hd']; exact free)) fun p hp => not p (by
        simp only [List.mem_cons, List.not_mem_nil, or_false] at hp ⊢
        tauto)
  have frames : (d.blockEntry b .shutting).control.shuttingFrames = s.control.shuttingFrames
      ∧ (d.blockEntry b .shutting).capture.counter = s.capture.counter := by
    refine ⟨(acts.changes .safety (not _ (by simp))).2.2.trans ?_, (acts.changes .lesson (not _ (by simp))).2.trans ?_⟩ <;> rw [hd']
  obtain ⟨t, h1, h2, h3, h4, -, did⟩ := shutdown_ends (own := own) hx ends
    (dropped.comp acts.changes (fun p hp => by simp_all) (fun p hp => by
      simp only [List.mem_append, List.mem_cons, List.not_mem_nil, or_false] at hp ⊢
      tauto)) ((Sends.of_unchanged dropped).after acts.sends) frames
  exact ⟨t, h1, h2, h3, h4, did⟩

/-! ## An entry kept behind the layout read -/

/-- With no capture waiting for a pin, the record is answered with some slots and some event. -/
theorem answered_somehow (hc : s.capture.context.state ≠ .waitingPin) (bytes : List Byte) :
    ∃ l slots k a b c, s.settle.readOver.applyLayout bytes = s.resumed l slots k a b c := by
  cases hf : (parseLayout bytes).failure (rasterSize s.feeder.outputMode) with
  | some q =>
    obtain ⟨reason, pane⟩ := q
    exact ⟨_, _, _, _, _, _, resumed_failed hf⟩
  | none =>
    obtain ⟨slots, found, settles⟩ := settleFreeze_slots hc (parseLayout bytes)
    have there := settles s.settle.readOver (readOver_intake s) (readOver_view s) (readOver_context s)
    cases found with
    | some reason => exact ⟨_, _, _, _, _, _, resumed_refused hf there⟩
    | none => exact ⟨_, _, _, _, _, _, resumed_taken hf there (.inl hc)⟩

theorem resumed_stayFree (s : State) (l : Layout) (slots : List Slot) (k : EventKind) (a b c : Nat) :
    StayFree s (s.resumed l slots k a b c) :=
  (StayFree.of_unchanged (s.settle_unchanged.comp s.settle.readOver_unchanged (c := [.frameTurn, .arbiter]))).trans
    (StayFree.trans (.same : StayFree s.settle.readOver { s.settle.readOver with feeder.layout := l, intake.slots := slots })
      (raise_stayFree (.inl rfl) k a b c))

section
variable (hm : s.control.mode = .shutting) (hc : s.capture.context.state = .idle)
include hm hc

/-- The turn goes on, and the feeder takes the entry that was kept. -/
theorem kept_entry (hr : s.feeder.layoutRead = .idle) :
    State.feederAll [.entry .shutting] s.frameTurnRest = s.frameTurnRest.feederShut := by
  obtain ⟨changes, -⟩ := frameTurnRest_shutting hm hc
  obtain ⟨w, hw⟩ : ∃ w, w = s.frameTurnRest := ⟨_, rfl⟩
  rw [← hw] at changes ⊢
  have mode : w.control.mode = .shutting := (show _ = s.control.mode from changes .mode (by decide)).trans hm
  have context : w.capture.context.state = .idle := by rw [show w.capture.context = _ from changes .context (by decide), hc]
  have reading : w.feeder.layoutRead = .idle := (changes .frameTurn (by decide)).2.1.trans hr
  have shut := feederShut_unchanged w
  have mode' : w.feederShut.control.mode = .shutting := (show _ = w.control.mode from shut .mode (by decide)).trans mode
  have context' : w.feederShut.capture.context.state = .idle := by
    rw [show w.feederShut.capture.context = _ from shut .context (by decide), context]
  show (w.feederTakes (.entry .shutting)).takeWork = _
  rw [feederTakes_of_idle reading]
  show (w.feederEntry .shutting).takeWork = _
  rw [feederEntry_shutting mode context, takeWork_shutting mode' context']

end

/-- The pieces named, in any order. -/
theorem Did.reordered {a c : List Piece} {ops : List RecordOp} {news : List (Block × EventKind × Nat × Nat × Nat)} (h : Did a ops news s t)
    (k : a ⊆ c ∧ c ⊆ a := by decide) : Did c ops news s t := by
  obtain ⟨h1, h2, h3, h4, h5⟩ := h
  refine ⟨h1.mono fun p hp => ?_, fun q => h2 fun r => q (k.1 r), fun q => h3 fun r => q (k.1 r), fun q => h4 fun r => q (k.1 r), h5⟩
  exact (List.mem_append.1 hp).elim (fun r => List.mem_append_left _ (k.1 r)) (List.mem_append_right _)

theorem feederShut_upTo (s : State) : SendsUpTo 1 s s.feederShut := by
  refine (feederShut_sends s).upTo ?_
  split <;> simp

/-- The part has ended behind the layout read, with no more than two operations before that of the mode. -/
theorem kept_entry_ends {l : Layout} {slots : List Slot} {k : EventKind} {a b c : Nat} (hm : s.control.mode = .shutting)
    (ha : s.control.announcements = []) (hd : s.feeder.deferred = [.entry .shutting]) (hc : s.capture.context.state = .idle)
    (hj : s.jobs.running = none) (free : s.free .capture = true ∧ s.free .jobs = true)
    (hx : exec .layoutReadDone s =
      .next (s.closeWork (State.feederAll s.feeder.deferred (s.resumed l slots k a b c).frameTurnRest).shutdownTest)) :
    ∃ w z : State, exec .layoutReadDone s = .next (s.closeWork z.poweredOff) ∧ z = w.feederShut ∧ z.control.mode = .shutting
      ∧ z.control.announcements = [] ∧ w.feeder.layoutRead = .idle ∧ w.feeder.deferred = []
      ∧ z.control.shuttingFrames = s.control.shuttingFrames + 1 ∧ z.capture.counter = s.capture.counter ∧ SendsUpTo 2 s z := by
  have first := resumed_unchanged s l slots k a b c
  have hf := resumed_feeder s l slots k a b c
  have sent := resumed_sends s l slots k a b c
  have still := resumed_stayFree s l slots k a b c
  obtain ⟨y, hy⟩ : ∃ y, y = s.resumed l slots k a b c := ⟨_, rfl⟩
  rw [← hy] at hx first hf sent still
  have mode : y.control.mode = .shutting := (show _ = s.control.mode from first .mode (by decide)).trans hm
  have context : y.capture.context.state = .idle := by rw [show y.capture.context = _ from first .context (by decide), hc]
  obtain ⟨changes, frames, rest, still'⟩ := frameTurnRest_shutting mode context
  have reading : y.frameTurnRest.feeder.layoutRead = .idle := (changes .frameTurn (by decide)).2.1.trans (by rw [hf])
  have kept : y.frameTurnRest.feeder.deferred = [] := (changes .frameTurn (by decide)).2.2.trans (by rw [hf])
  rw [hd, kept_entry mode context (by rw [hf])] at hx
  obtain ⟨w, hw⟩ : ∃ w, w = y.frameTurnRest := ⟨_, rfl⟩
  rw [← hw] at hx changes frames rest still' reading kept
  have shut := feederShut_unchanged w
  have all := (first.comp changes (c := [.frameTurn, .layout, .slots, .raised, .strips, .lateness, .frameNumber, .moderation, .cause, .timer,
    .safety, .records, .arbiter])).comp shut (c := [.frameTurn, .layout, .slots, .raised, .strips, .lateness, .frameNumber, .moderation,
    .cause, .timer, .safety, .views, .unit, .records, .arbiter])
  have none : w.feederShut.feeder.deferred = [] := by rw [feederShut_feeder]; exact kept
  have ends : w.feederShut.mayEnd :=
    mayEnd_of all hm ha (by rw [none]; rfl) hc hj ((still.trans (still'.trans (feederShut_stayFree w))).both free)
  rw [shutdownTest_met ends] at hx
  refine ⟨w, _, hx, rfl, ends.1, (show _ = s.control.announcements from all .announcements (by decide)).trans ha, reading, kept, ?_,
    (all .lesson (by decide)).2, (sent.upTo (n := 0)).trans (rest.trans (feederShut_upTo w))⟩
  rw [(shut .safety (by decide)).2.2, frames, (first .safety (by decide)).2.2]

end Sys2Proof.Machine
end

section

open Sys2Proof Sys2Proof.Machine

/-- Settles O11: the test of R187 is met at the last entry, block by block and behind a layout read; SAFE follows POWER_SAFE. -/
theorem shutdownEndsInPowerdownAndSafe : Obligations.ShutdownEndsInPowerdownAndSafe := by
  refine ⟨?_, ?_, fun s h => ?_⟩
  · intro s b hm ha hb hc hj fc fj ready hr hd cancelled ops news own room
    have ht : s.takesEntry b = true := by
      rcases ready with h | rfl
      · exact takesEntry_of_ready h
      · simp [State.takesEntry]
    obtain ⟨d, hd'⟩ : ∃ d : State, d = { s with control.announcements := [] } := ⟨_, rfl⟩
    have finish (z : State) (hz : d.blockEntry b .shutting = z) (acts : EntryActs d z own ops news)
        (k : ∀ p ∈ [Piece.mode, .announcements, .safety, .lesson, .context, .runningJob], p ∉ own)
        (withdrawn : b = .feeder → ∀ t : State, t.engine = z.engine → StripWithdrawn s (s.closeWork t)) :
        Completes (.modeEntry b) s fun t =>
          t.control.mode = .powerdown ∧ t.control.announcements = announcedBlocks.map (Announcement.mk · .powerdown)
            ∧ (b = .feeder → StripWithdrawn s t)
            ∧ Did (own ++ [.mode, .announcements]) (ops ++ powerdownOps) (news ++ s.powerdownNews) s t := by
      subst hz hd'
      obtain ⟨t, hx, h1, h2, h3, did⟩ := last_entry_ends hm ha hc hj ⟨fc, fj⟩ ht hd acts k
      refine ⟨_, hx, ?_, ?_, fun hb => withdrawn hb t h3, did⟩ <;> rw [State.closeWork_control] <;> assumption
    cases b with
    | intake => exact finish _ rfl (intake_entryActs d) (by decide) nofun
    | monitor =>
      have hf : d.waiting .monitor = false := by
        have waits : s.waiting .monitor = false := by simpa [State.free] using (ready.resolve_right nofun).1
        rw [hd']
        exact waits
      have acts := monitor_entryActs hf
      have raised : d.timeoutNews.map RaisedEvent.entry = news := by
        rw [State.timeoutNews, apply_ite (List.map _), hd']
        rfl
      rw [raised] at acts
      exact finish _ rfl acts (by decide) nofun
    | feeder =>
      have entered : d.blockEntry .feeder .shutting = d.feederShut := by
        refine (feederTakes_of_idle (by rw [hd']; exact hr rfl) _).trans ?_
        exact feederEntry_shutting (by rw [hd']; exact hm) (by rw [hd']; exact hc)
      have acts := feeder_entryActs d
      refine finish _ entered (by rw [hd'] at acts ⊢; exact acts) (by decide) fun _ t ht => ?_
      have engine : d.feederShut.engine = (d.enteredView .shutting).engine := entryRest_unchanged _ .shutting .unit (by decide)
      refine stripWithdrawn_of (m := .shutting) (y := d) (by rw [hd']) (by rw [hd']) (fun u hu => ?_) fun hn => s.closeWork_tookNext ?_
      · rw [ht, engine, hu]
      · rw [ht, engine, hn]
    | capture => exact finish _ rfl (capture_entryActs (by rw [hd']; exact hc)) (by decide) nofun
    | jobs =>
      have pending : d.jobs.pendingOf (List.range 16) = cancelled := by
        rw [hd']
        rfl
      have acts := jobs_entryActs (s := d) (by rw [hd']; exact hj) (by rw [pending, hd']; exact room rfl)
      rw [pending] at acts
      obtain ⟨t, hx, h1, h2, -, did⟩ := last_entry_ends (own := [.views, .jobEntries, .scan]) hm ha hc hj ⟨fc, fj⟩ ht hd
        (by rw [hd'] at acts; exact acts) (by decide)
      have did' : Did (own ++ [.mode, .announcements] ++ [.scan]) (ops ++ powerdownOps) (news ++ s.powerdownNews) s (s.closeWork t) :=
        did.reordered (by decide)
      refine ⟨_, hx, ?_, ?_, nofun, did'.withoutScan⟩ <;> rw [State.closeWork_control] <;> assumption
    | engine => exact finish _ rfl (entryActs_quiet (.refl _)) (by decide) nofun
    | memory => exact finish _ rfl (entryActs_quiet (.refl _)) (by decide) nofun
    | post => exact finish _ rfl (entryActs_quiet (.refl _)) (by decide) nofun
    | mode => exact absurd rfl hb
  · rintro s hm ha hd ⟨bytes, hr⟩ hc hj fc fj
    obtain ⟨l, slots, k, a, b, c, hx⟩ : ∃ l slots k a b c, exec .layoutReadDone s =
        .next (s.closeWork (State.feederAll s.feeder.deferred (s.resumed l slots k a b c).frameTurnRest).shutdownTest) := by
      rcases hr with hr | hr
      · obtain ⟨l, slots, k, a, b, c, answer⟩ := answered_somehow (s := s) (by rw [hc]; nofun) bytes
        exact ⟨l, slots, k, a, b, c, exec_layoutReadDone_answered hr answer⟩
      · exact ⟨_, _, _, _, _, _, exec_layoutReadDone_unread hr⟩
    obtain ⟨w, z, hx, rfl, mode, none, reading, kept, frames, counter, ops, news, count, sent⟩ :=
      kept_entry_ends hm ha hd hc hj ⟨fc, fj⟩ hx
    have off := poweredOff_unchanged w.feederShut
    have control := poweredOff_control w.feederShut
    have sent' := sent.trans (poweredOff_sends mode)
    obtain ⟨t, ht⟩ : ∃ t, t = w.feederShut.poweredOff := ⟨_, rfl⟩
    rw [← ht] at hx off control sent'
    have three : (ops ++ powerdownOps).length + (3 - (ops ++ powerdownOps).length) = 3 := by
      rw [List.length_append, List.length_singleton]
      omega
    have hf : (s.closeWork t).feeder = _ := (State.closeWork_feeder s t).trans (off.feeder.trans (feederShut_feeder w))
    have hi : t.intake = w.feederShut.intake := off.intake
    refine ⟨_, hx, ?_, ?_, ?_, ?_, ?_, ?_, ?_, ?_, ?_, fun room => ⟨ops, news, ?_, ?_⟩⟩
    · rw [State.closeWork_control, control]
    · rw [State.closeWork_control, control, none]
      rfl
    · rw [hf]
    · rw [hf]
      exact reading
    · rw [hf]
      exact kept
    · rw [hf]
    · rw [hf]
    · rw [State.closeWork_intake, hi, State.feederShut, entryRest_intake]
    · rw [State.closeWork_control, control]
      exact frames
    · obtain ⟨-, issued, -⟩ := sent' (3 - (ops ++ powerdownOps).length) (three.symm ▸ room)
      rw [closeWork_ops_noScan s (scanOffered_of_mode (by rw [control]; nofun)), issued, List.append_assoc]
    · obtain ⟨-, -, -, raised, hl, hn, -⟩ := sent' (3 - (ops ++ powerdownOps).length) (three.symm ▸ room)
      have ending : w.feederShut.powerdownNews = { s with control.shuttingFrames := s.control.shuttingFrames + 1 }.powerdownNews := by
        unfold State.powerdownNews
        rw [frames, counter]
      rw [State.closeWork_news, State.news, hl, List.map_append, List.append_assoc, ← ending, ← hn]
      rfl
  · have hx := exec_safeAssert h
    have settled := s.settle_unchanged
    obtain ⟨x, hx'⟩ : ∃ x, x = s.settle := ⟨_, rfl⟩
    rw [← hx'] at hx settled
    have asserted : Unchanged [.safety, .cause, .arbiter] s ({ x with control.safe := true, control.safeAfter := none }.setCause .powerSafe) := by
      refine settled.comp (b := [.safety, .cause]) fun p hp => ?_
      cases p <;> simp_all [same, State.setCause]
    refine ⟨_, hx, ?_, ?_, ?_, fun i => ?_, (Sends.of_unchanged asserted).did asserted.mono⟩
    · rw [State.closeWork_control]
      rfl
    · rw [State.closeWork_control]
      rfl
    · rw [State.closeWork_control]
      exact (settled .safety (by decide)).2.2
    · rw [State.closeWork_post]
      refine (withCause_bit _ _ _).trans ?_
      rw [show x.post.cause = s.post.cause from settled .cause (by decide)]
      rfl

end

section
/-! SUPPORT. Words with errors: a write that is merged, a read that counts or is abandoned, and the read of an abandoned strip
(R85, R102, R152, R161 to R163). -/

namespace Sys2Proof.Machine

set_option Elab.async false

variable {s s0 t x y z : State} {u v : EngineUnit} {b : EngineBurst} {g : Grant} {q : Requester} {changed : List Piece}

/-! ## A read of words with correctable errors (R162) -/

/-- The words of a read with no uncorrectable error are delivered, with those that were corrected counted. -/
theorem checkWords_counted {w n : Nat} (h : ∀ y, w ≤ y → y < w + n → y ∉ s.port.bad) :
    s.checkWords q w n = (s.counted (s.weakAmong w n), true) := by
  induction n generalizing w s with
  | zero => rfl
  | succ n ih =>
    rw [State.checkWords, if_neg (h w (Nat.le_refl _) (by omega)), State.weakAmong_succ]
    split
    · rw [ih (s := s.countCorrectable) fun y h1 h2 => h y (by omega) (by omega), State.counted_succ, Nat.add_comm]
      rfl
    · rw [ih fun y h1 h2 => h y (by omega) (by omega), Nat.zero_add]

theorem load_counted {a n : Nat} (h : ∀ y, a / 4 ≤ y → 4 * y < a + n → y ∉ s.port.bad) :
    s.load q a n = (s.counted (s.weakAmong (a / 4) ((a + n + 3) / 4 - a / 4)), some (s.mem.readBytes a n)) := by
  unfold State.load
  rw [checkWords_counted fun y h1 h2 => h y h1 (by omega)]
  rfl

theorem load_fault {a n w : Nat} (hb : w ∈ s.port.bad) (h1 : a / 4 ≤ w) (h2 : 4 * w < a + n)
    (h : ∀ y, a / 4 ≤ y → y < w → y ∉ s.port.bad) :
    s.load q a n = ((s.counted (s.weakAmong (a / 4) (w - a / 4))).reportUncorrectable q w, none) := by
  unfold State.load
  rw [checkWords_fault hb h1 (by omega) h]

/-- A word with a correctable error counts once. -/
theorem weakAmong_one {w : Nat} (h : w ∈ s.port.weak) : s.weakAmong w 1 = 1 := by
  rw [State.weakAmong_succ, if_pos h]
  rfl

theorem word_of_aligned {a : Nat} (h : a % 4 = 0) : (a + 4 + 3) / 4 - a / 4 = 1 ∧ ∀ y, a / 4 ≤ y → 4 * y < a + 4 → y = a / 4 := by
  refine ⟨by omega, fun y h1 h2 => by omega⟩

/-! ## The bytes of a word (R152) -/

/-- Byte n of the word that is made of four bytes is the n-th of them. -/
theorem ofLe_byte (m : Memory) (a : Nat) {n : Nat} (hn : n < 4) :
    (BitVec.ofNat 32 (ofLe (m.readBytes a 4))).extractLsb' (8 * n) 8 = m.read (a + n) := by
  have h0 := (m.read a).isLt
  have h1 := (m.read (a + 1)).isLt
  have h2 := (m.read (a + 2)).isLt
  have h3 := (m.read (a + 3)).isLt
  have bytes : m.readBytes a 4 = [m.read a, m.read (a + 1), m.read (a + 2), m.read (a + 3)] := by
    rw [Memory.readBytes_eq]
    rfl
  apply BitVec.eq_of_toNat_eq
  rw [bytes, BitVec.extractLsb'_toNat, BitVec.toNat_ofNat, Nat.shiftRight_eq_div_pow]
  simp only [ofLe]
  interval_cases n <;> norm_num <;> omega

/-! ## The error reported, with the engine's abandoned read left behind (R163) -/

theorem raise_atBurst (s : State) (o : Block) (k : EventKind) (n a b : Nat) : (s.raise o k n a b).atBurst = s.atBurst.raise o k n a b := by
  unfold State.raise State.emit
  by_cases h : s.waiting o = true
  · rw [if_pos h, if_pos (show s.atBurst.waiting o = true from h)]
    rfl
  · rw [if_neg h, if_neg (show ¬ s.atBurst.waiting o = true from h)]
    rfl

theorem reportUncorrectable_atBurst (s : State) (q : Requester) (w : Nat) :
    (s.reportUncorrectable q w).atBurst = s.atBurst.reportUncorrectable q w := raise_atBurst _ _ _ _ _ _

/-- What a step did that reports one uncorrectable word, with its own effect before and after it. -/
theorem did_reported {first own : List Piece} {k w : Nat} (h0 : Unchanged first s.atBurst s0)
    (rest : Unchanged (own ++ [.arbiter]) ((s0.counted k).reportUncorrectable q w) z)
    (hf : ∀ p ∈ [Piece.errors, .cause, .records, .raised, .statistics], p ∉ first := by decide)
    (hk : ∀ p ∈ [Piece.errors, .cause, .records, .raised, .statistics], p ∉ own := by decide) :
    FaultReported s (s.closeWork z) k
      ∧ Did (first ++ own ++ [.errors, .cause]) [] [(.memory, .memoryFault, q.value, 4 * w, (s.closeWork z).port.uncorrectable)] s (s.closeWork z) := by
  have counted := h0.comp (s0.counted_unchanged k) (List.subset_append_left first [.errors]) (List.subset_append_right _ _)
  have reported := State.reportUncorrectable_unchanged (s0.counted k) q w
  have sent := (((Sends.of_unchanged h0 (hf _ (by simp)) (hf _ (by simp)) (hf _ (by simp))).after
    (Sends.of_unchanged (s0.counted_unchanged k))).after (State.reportUncorrectable_sends _ q w)).before
    (.of_unchanged rest (by simpa using hk .records (by simp)) (by simpa using hk .raised (by simp)) (by simpa using hk .statistics (by simp)))
  have whole := rest.comp (s.closeWork_unchanged z) (c := own ++ takingWork) (fun p hp => by
    simp only [List.mem_append, List.mem_cons, List.not_mem_nil, or_false] at hp ⊢
    tauto) (List.subset_append_right _ _)
  obtain ⟨fault, count⟩ := faultReported_of (s := s) (h0 .errors (hf _ (by simp))) (h0 .cause (hf _ (by simp))) whole
    (by simpa using hk .errors (by simp)) (by simpa using hk .cause (by simp))
  have before : (s0.counted k).port.uncorrectable = s.port.uncorrectable := (h0 .errors (hf _ (by simp))).2.1
  rw [count, ← before]
  have together := counted.comp reported (List.subset_append_left _ [.cause, .raised, .records, .arbiter]) fun p hp => by
    simp only [List.mem_append, List.mem_cons, List.not_mem_nil, or_false] at hp ⊢
    tauto
  refine ⟨fault, Did.of_atBurst (sent.did (together.comp rest (fun p hp => ?_) fun p hp => ?_))⟩
  · simp only [List.mem_append, List.mem_cons, List.not_mem_nil, or_false] at hp ⊢
    tauto
  · simp only [List.mem_append, List.mem_cons, List.not_mem_nil, or_false] at hp ⊢
    tauto

end Sys2Proof.Machine
end

section
/-! SUPPORT. Bursts that meet words with errors: the host's, the record queue's and the engine's (R152, R155, R161 to R163). -/

namespace Sys2Proof.Machine

set_option Elab.async false

variable {s s0 t w x y z : State} {u v : EngineUnit} {b : EngineBurst} {g : Grant} {q : Requester} {changed : List Piece}
  {later : List RecordOp} {a : Nat}

/-! ## The host's burst (R152, R161) -/

/-- The bridge has ended its access with this response. -/
def State.answeredHost (s : State) (r : HostResponse) : State := { s with port.bridge := none, port.response := r }

theorem State.answeredHost_unchanged (s : State) (r : HostResponse) : Unchanged [.host] s (s.answeredHost r) := by
  intro p hp
  cases p <;> simp_all [same, State.answeredHost]

theorem exec_hostBurst (hg : s.port.grant = some g) (hw : g.who = .host) (h : s.atBurst.hostBurst = t) :
    exec (.memoryBurstComplete [] b) s = .next (s.closeWork (t.countBurst .host)) := by
  rw [exec_burst hg (t := t) (by rw [hw, ← h]; rfl), hw]

/-- The bytes of a host write in memory, before the code of the word. -/
abbrev State.hostMerged (s : State) (a : Nat) (d : Word) (en : BitVec 4) : State := { s.atBurst with mem := s.mem.writeEnabled a d en }

theorem hostBurst_write {d : Word} {en : BitVec 4} (hb : s.port.bridge = some (.write a d en)) (hen : en ≠ 0#4) :
    s.atBurst.hostBurst = ((s.hostMerged a d en).codeWord .host (decide (en = 15#4)) (a / 4)).answeredHost .done := by
  have store : s.atBurst.hostStore a d en = (s.hostMerged a d en).codeWord .host (decide (en = 15#4)) (a / 4) := if_neg hen
  unfold State.hostBurst
  rw [show s.atBurst.port.bridge = _ from hb]
  dsimp only
  rw [store]
  rfl

/-- What a host write leaves of the bridge and of memory. -/
def HostWritten (s t : State) (a : Nat) (d : Word) (en : BitVec 4) : Prop :=
  t.port.bridge = none ∧ t.port.response = .done
    ∧ (∀ n, n < 4 → t.mem.read (a + n) = if en.getLsbD n then d.extractLsb' (8 * n) 8 else s.mem.read (a + n))
    ∧ ∀ x, (x < a ∨ a + 4 ≤ x) → t.mem.read x = s.mem.read x

theorem hostWritten_of {d : Word} {en : BitVec 4} (ha : a + 4 ≤ 0x10000000) (hm : s.memoryOk)
    (h : Unchanged [.errors, .cause, .raised, .records, .arbiter] (s.hostMerged a d en) x) :
    HostWritten s (s.closeWork ((x.answeredHost .done).countBurst .host)) a d en := by
  have closed := s.closeCounted_keeps (x.answeredHost .done) .host
  obtain ⟨hb, hr⟩ := closed .host (by decide)
  have hmem (y : Nat) : (s.closeWork ((x.answeredHost .done).countBurst .host)).mem.read y = (s.mem.writeEnabled a d en).read y := by
    rw [closeCounted_mem]
    exact h .memory (by decide) y
  refine ⟨hb, hr, fun n hn => ?_, fun y hy => ?_⟩
  · rw [hmem, Memory.read_writeEnabled hm ha, Nat.add_sub_cancel_left]
    by_cases k : en.getLsbD n = true
    · rw [if_pos k, if_pos ⟨by omega, by omega, k⟩]
    · rw [if_neg k, if_neg fun c => k c.2.2]
  · rw [hmem, Memory.read_writeEnabled hm ha, if_neg fun c => by omega]

theorem hostMerged_unchanged (s : State) (a : Nat) (d : Word) (en : BitVec 4) : Unchanged [.memory] s.atBurst (s.hostMerged a d en) := by
  intro p hp
  cases p <;> simp_all [same]

/-- The errors of the words as a burst that reports none leaves them. -/
theorem closeCounted_errors (s t : State) (q : Requester) :
    (s.closeWork (t.countBurst q)).port.correctable = t.port.correctable ∧ (s.closeWork (t.countBurst q)).port.uncorrectable = t.port.uncorrectable
      ∧ (s.closeWork (t.countBurst q)).port.weak = t.port.weak ∧ (s.closeWork (t.countBurst q)).port.bad = t.port.bad :=
  s.closeCounted_keeps t q .errors (by decide)

theorem hostRead_counted (hb : s.port.bridge = some (.read a)) (ha : a % 4 = 0) (h1 : a / 4 ∉ s.port.bad) (h2 : a / 4 ∈ s.port.weak) :
    s.atBurst.hostBurst = (s.atBurst.counted 1).answeredHost (.data (BitVec.ofNat 32 (ofLe (s.mem.readBytes a 4)))) := by
  obtain ⟨one, only⟩ := word_of_aligned ha
  have hl : s.atBurst.load .host a 4 = (s.atBurst.counted 1, some (s.mem.readBytes a 4)) := by
    rw [load_counted (s := s.atBurst) fun y k1 k2 => by rw [only y k1 k2]; exact h1, one, weakAmong_one (s := s.atBurst) h2]
    rfl
  unfold State.hostBurst
  rw [show s.atBurst.port.bridge = _ from hb]
  dsimp only
  rw [hl]
  rfl

theorem hostRead_clean (hb : s.port.bridge = some (.read a)) (hc : s.cleanWords a 4) :
    s.hostBurst = s.answeredHost (.data (BitVec.ofNat 32 (ofLe (s.mem.readBytes a 4)))) := by
  unfold State.hostBurst
  rw [hb]
  dsimp only
  rw [load_clean hc]
  rfl

/-! ## A burst that ends an operation of the record queue (R155, R163) -/

theorem exec_recordBurst (hg : s.port.grant = some g) (hw : g.who = .record) (h : s.atBurst.recordBurst = t) :
    exec (.memoryBurstComplete [] b) s = .next (s.closeWork (t.countBurst .record)) := by
  rw [exec_burst hg (t := t) (by rw [hw, ← h]; rfl), hw]

/-- The operation at the head has gone, and what stood behind it follows. -/
theorem popped_ops {op : RecordOp} (hq : s.port.queue = op :: later) (h : x.port.queue = s.port.queue ∧ x.port.blocked = s.port.blocked)
    (hw : w.port.queue = x.popRecord.port.queue ∧ w.port.blocked = x.popRecord.port.blocked) :
    ∃ more, AtMostAScan more ∧ (s.closeWork (w.countBurst .record)).ops = later ++ s.port.blocked.map Wait.op ++ more := by
  have ops : (w.countBurst .record).ops = later ++ s.port.blocked.map Wait.op := by
    obtain ⟨k, e⟩ := w.countBurst_is .record
    rw [e]
    show w.port.queue ++ w.port.blocked.map Wait.op = _
    rw [hw.1, hw.2]
    show x.port.queue.tail ++ x.port.blocked.map Wait.op = _
    rw [h.1, h.2, hq]
    rfl
  rcases s.closeWork_ops (w.countBurst .record) with e | ⟨k, hk, e⟩
  · exact ⟨[], .inl rfl, by rw [e, ops, List.append_nil]⟩
  · exact ⟨_, .inr ⟨k, hk, rfl⟩, by rw [e, ops]⟩

theorem reportUncorrectable_port_rest (s : State) (q : Requester) (w : Nat) :
    (s.reportUncorrectable q w).port.queue = s.port.queue ∧ (s.reportUncorrectable q w).port.blocked = s.port.blocked
      ∧ (s.reportUncorrectable q w).port.weak = s.port.weak ∧ (s.reportUncorrectable q w).port.bad = s.port.bad
      ∧ (s.reportUncorrectable q w).mem = s.mem ∧ (s.reportUncorrectable q w).post.setupRead = s.post.setupRead := by
  unfold State.reportUncorrectable
  dsimp only
  obtain ⟨r, l, e⟩ := State.raise_is ({ s with port.uncorrectable := satInc Config.counterMax s.port.uncorrectable }.setCause .memoryFault)
    .memory .memoryFault q.value (4 * w) (satInc Config.counterMax s.port.uncorrectable)
  rw [e]
  exact ⟨rfl, rfl, rfl, rfl, rfl, rfl⟩

/-- Where nobody waits, the error is raised as it is reported (R163, R174). -/
theorem reportUncorrectable_news (h : s.noneWait) (q : Requester) (w : Nat) :
    (s.reportUncorrectable q w).news = s.news ++ [(.memory, .memoryFault, q.value, 4 * w, min 4294967295 (s.port.uncorrectable + 1))] :=
  State.raise_news _ _ _ _ _ _ (State.not_waiting (s := s) h _)

/-- One byte that stands in a word with an uncorrectable error is merged with it, and the error reported (R161, R163). -/
theorem store_byte_bad {c : Byte} (h : a / 4 ∈ s.port.bad) :
    s.store q a [c] = ({ s with mem := s.mem.writeBytes a [c] } : State).reportUncorrectable q (a / 4) := by
  have part : (decide (a ≤ 4 * (a / 4)) && decide (4 * (a / 4) + 4 ≤ a + 1)) = false := by
    rw [Bool.and_eq_false_iff, decide_eq_false_iff_not, decide_eq_false_iff_not]
    omega
  show ({ s with mem := s.mem.writeBytes a [c] } : State).codeWords q a (a + 1) (a / 4) ((a + 1 + 3) / 4 - a / 4) = _
  rw [show (a + 1 + 3) / 4 - a / 4 = 1 by omega]
  show ({ s with mem := s.mem.writeBytes a [c] } : State).codeWord q (decide (a ≤ 4 * (a / 4)) && decide (4 * (a / 4) + 4 ≤ a + 1)) (a / 4) = _
  rw [part]
  exact if_pos h

theorem recordBurst_byte_bad {c : Byte} (hq : s.port.queue = .write [(a, [c])] :: later) (h : a / 4 ∈ s.port.bad) :
    s.recordBurst = (({ s with mem := s.mem.writeBytes a [c] } : State).reportUncorrectable .record (a / 4)).popRecord := by
  unfold State.recordBurst
  rw [hq]
  dsimp only
  rw [store_byte_bad h]

section
variable (hq : s.port.queue = .read .control a [] :: later) (ha : a % 4 = 0)
include hq ha

theorem recordBurst_control_got {bytes : List Byte} (hl : s.load .record a 4 = (x, some bytes)) (h : 4 ≤ bytes.length) :
    s.recordBurst = x.popRecord.deliver .control (.got bytes) := by
  have load : s.load .record (a + 0) (min (64 - (a + 0) % 64) (4 - 0)) = (x, some bytes) := by
    rw [show min (64 - (a + 0) % 64) (4 - 0) = 4 by omega]
    exact hl
  unfold State.recordBurst State.recordReadBurst
  rw [hq]
  dsimp only [List.length_nil, readLength]
  rw [load]
  exact if_pos h

theorem recordBurst_control_error (hl : s.load .record a 4 = (x, none)) :
    s.recordBurst = x.popRecord.deliver .control (.error (s.mem.readBytes a (s.goodPrefix a))) := by
  have load : s.load .record (a + 0) (min (64 - (a + 0) % 64) (4 - 0)) = (x, none) := by
    rw [show min (64 - (a + 0) % 64) (4 - 0) = 4 by omega]
    exact hl
  unfold State.recordBurst State.recordReadBurst
  rw [hq]
  dsimp only [List.length_nil, readLength]
  rw [load]
  rfl

theorem recordBurst_control_counted (h1 : a / 4 ∉ s.port.bad) (h2 : a / 4 ∈ s.port.weak) :
    s.recordBurst = (s.counted 1).popRecord.deliver .control (.got (s.mem.readBytes a 4)) := by
  obtain ⟨one, only⟩ := word_of_aligned ha
  have hl : s.load .record a 4 = (s.counted 1, some (s.mem.readBytes a 4)) := by
    rw [load_counted fun y k1 k2 => by rw [only y k1 k2]; exact h1, one, weakAmong_one h2]
  exact recordBurst_control_got hq ha hl (by rw [Memory.readBytes_eq]; simp)

theorem recordBurst_control_bad (h : a / 4 ∈ s.port.bad) :
    s.recordBurst = (s.reportUncorrectable .record (a / 4)).popRecord.deliver .control (.error []) := by
  have hl : s.load .record a 4 = (s.reportUncorrectable .record (a / 4), none) := by
    rw [load_fault h (Nat.le_refl _) (by omega) (fun y k1 k2 => absurd k1 (by omega)), Nat.sub_self]
    rfl
  have first : s.goodPrefix a = 0 := by
    have cons : ((List.range 16).filter fun i => decide (a / 4 + i ∈ s.port.bad)).head? = some 0 := by
      rw [show List.range 16 = 0 :: (List.range 15).map Nat.succ from List.range_succ_eq_map, List.filter_cons_of_pos (by simpa using h)]
      rfl
    unfold State.goodPrefix
    rw [cons]
    show 4 * (a / 4 + 0) - a = 0
    omega
  rw [recordBurst_control_error hq ha hl, first]
  rfl

end

/-! ## The engine's read, and the read of an abandoned strip (R102, R162, R163) -/

theorem engineBurst_counted (hw : b.write = false) (h : ∀ y, b.addr / 4 ≤ y → 4 * y < b.addr + b.len → y ∉ s.port.bad) :
    s.engineBurst v b = (s.counted (s.weakAmong (b.addr / 4) ((b.addr + b.len + 3) / 4 - b.addr / 4))).setUnit (s.readBy v b) := by
  unfold State.engineBurst
  rw [if_neg (by simp [hw]), load_counted h]
  dsimp only
  rw [Memory.readBytes_eq, burstAddrs, List.zip_map']
  rfl

/-- The read of the abandoned strip meets its first uncorrectable word as an upset of the next burst (assumption log 14). -/
theorem befall_cutOff {n : Nat} (hu : s.engine.cutOff = some u) (hw : b.write = false) (hm : u.moves b = true) (hb : n ∈ s.port.bad)
    (h1 : b.addr / 4 ≤ n) (h2 : 4 * n < b.addr + b.len) (h : ∀ y, b.addr / 4 ≤ y → y < n → y ∉ s.port.bad) :
    s.befall [.cutOff b.addr b.len] = (s.atBurst.counted (s.weakAmong (b.addr / 4) (n - b.addr / 4))).reportUncorrectable .engine n := by
  have burst : b = ⟨false, b.addr, b.len⟩ := by rw [← hw]
  have made : (s.engine.cutOff.any fun u => u.moves ⟨false, b.addr, b.len⟩) = true := by
    rw [hu, ← burst]
    exact hm
  show ({ s.upset (.cutOff b.addr b.len) with engine.cutOff := none } : State) = _
  have upset : s.upset (.cutOff b.addr b.len) = { (s.load .engine b.addr b.len).1 with engine.cutOff := none } := if_pos made
  rw [upset, load_fault hb h1 h2 h]
  exact reportUncorrectable_atBurst (s.counted _) .engine n

/-! ## The strip left behind (R85, R102) -/

theorem takeWork_cutOff (s : State) : s.takeWork.engine.cutOff = s.engine.cutOff := by
  have began (x : State) (w : Work) (ps : List Part) : (x.startUnit w ps).engine.cutOff = x.engine.cutOff := by
    rw [State.startUnit, show (x.setUnit { work := w, parts := ps }).makeGrant.engine = (x.setUnit { work := w, parts := ps }).engine from
      State.makeGrant_unchanged (x.setUnit { work := w, parts := ps }) .unit (by decide)]
    rfl
  rcases s.takeWork_is with h | ⟨w, ps, h⟩ | ⟨w, ps, h⟩ | ⟨j, w, ps, -, h⟩ | ⟨-, h⟩
  · rw [h]
  · rw [h, began]
  · rw [h, began]
  · rw [h, began]
  · rw [h]
    exact congrArg Engine.cutOff (State.scanFrom_unchanged s ⟨none, [], false, []⟩ 0 .unit (by decide))

theorem closeWork_cutOff (s0 s : State) : (s0.closeWork s).engine.cutOff = s.engine.cutOff := by
  rw [State.closeWork, State.close_engine, takeWork_cutOff]

/-- A strip that underruns under the engine's grant leaves its read at the DRAM. -/
theorem underrun_cutOff {r : StripRequest} {n : Nat} {c : Bool} (hr : s.feeder.request = some r) (hu : s.engine.unit = some u)
    (hw : u.work = .strip n c) (hg : s.port.grant = some g) (he : g.who = .engine) : s.underrun.engine.cutOff = some u := by
  show s.withdrawStrip.engine.cutOff = _
  unfold State.withdrawStrip
  rw [hr]
  dsimp only
  unfold State.abandonStrip
  dsimp only
  rw [hu]
  dsimp only
  rw [hw]
  dsimp only
  rw [hg]
  exact if_pos (by simpa using he)

end Sys2Proof.Machine
end

section
/-! SUPPORT. What bursts of the host, the record queue and the engine leave behind at words with errors (R152, R161 to R163). -/

namespace Sys2Proof.Machine

set_option Elab.async false

variable {s t w x y z : State} {u v : EngineUnit} {b : EngineBurst} {g : Grant} {q : Requester} {later : List RecordOp} {a : Nat}

/-! ## A write of the host (R152, R161) -/

section
variable {d : Word} {en : BitVec 4} (hg : s.port.grant = some g) (hw : g.who = .host) (hb : s.port.bridge = some (.write a d en))
  (ha : a + 4 ≤ 0x10000000) (hm : s.memoryOk) (hen : en ≠ 0#4)
include hg hw hb ha hm hen

/-- The burst of a host write, by what the code of its word comes to. -/
theorem completes_hostWrite {P : State → Prop} (hx : (s.hostMerged a d en).codeWord .host (decide (en = 15#4)) (a / 4) = x)
    (h : P (s.closeWork ((x.answeredHost .done).countBurst .host))) :
    Completes (.memoryBurstComplete [] b) s fun t => HostWritten s t a d en ∧ P t := by
  refine ⟨_, exec_hostBurst hg hw (hostBurst_write hb hen), hostWritten_of ha hm (State.codeWord_unchanged _ _ _ _), ?_⟩
  rw [hx]
  exact h

omit hg hw hb ha hm hen in
/-- A host write that reports no error changes the bridge, memory and the errors of the words. -/
theorem did_hostWrite (hx : Unchanged [.errors] (s.hostMerged a d en) x) :
    Did [.host, .memory, .errors] [] [] s (s.closeWork ((x.answeredHost .done).countBurst .host)) := by
  have stored : Unchanged [.memory, .errors] s.atBurst x := (hostMerged_unchanged s a d en).comp hx
  exact .quietBurst (changed := [.host, .memory, .errors]) (stored.comp (x.answeredHost_unchanged .done)) _

theorem hostWrite_whole (h : en = 15#4) :
    Completes (.memoryBurstComplete [] b) s fun t =>
      HostWritten s t a d en ∧ t.port.weak = s.port.weak.erase (a / 4) ∧ t.port.bad = s.port.bad.erase (a / 4)
        ∧ t.port.correctable = s.port.correctable ∧ t.port.uncorrectable = s.port.uncorrectable
        ∧ Did [.host, .memory, .errors] [] [] s t := by
  refine completes_hostWrite hg hw hb ha hm hen (if_pos (decide_eq_true h)) ?_
  obtain ⟨e1, e2, e3, e4⟩ := closeCounted_errors s (State.answeredHost _ .done) .host
  refine ⟨e3, e4, e1, e2, did_hostWrite (d := d) (en := en) (a := a) fun p hp => ?_⟩
  cases p <;> simp_all [same]

theorem hostWrite_weak (h : en ≠ 15#4) (h1 : a / 4 ∉ s.port.bad) (h2 : a / 4 ∈ s.port.weak) :
    Completes (.memoryBurstComplete [] b) s fun t =>
      HostWritten s t a d en ∧ t.port.weak = s.port.weak.erase (a / 4) ∧ t.port.bad = s.port.bad
        ∧ t.port.correctable = min 4294967295 (s.port.correctable + 1) ∧ t.port.uncorrectable = s.port.uncorrectable
        ∧ Did [.host, .memory, .errors] [] [] s t := by
  have code : (s.hostMerged a d en).codeWord .host (decide (en = 15#4)) (a / 4)
      = { (s.hostMerged a d en).countCorrectable with port.weak := s.port.weak.erase (a / 4) } := by
    unfold State.codeWord
    rw [if_neg (by simpa using h)]
    exact (if_neg h1).trans (if_pos h2)
  refine completes_hostWrite hg hw hb ha hm hen code ?_
  obtain ⟨e1, e2, e3, e4⟩ := closeCounted_errors s (State.answeredHost _ .done) .host
  refine ⟨e3, e4, e1, e2, did_hostWrite (d := d) (en := en) (a := a) fun p hp => ?_⟩
  cases p <;> simp_all [same, State.countCorrectable]

theorem hostWrite_bad (h : en ≠ 15#4) (hbad : a / 4 ∈ s.port.bad) (ha4 : a % 4 = 0) :
    Completes (.memoryBurstComplete [] b) s fun t =>
      HostWritten s t a d en ∧ FaultReported s t 0
        ∧ Did [.host, .memory, .errors, .cause] [] [(.memory, .memoryFault, 3, a, t.port.uncorrectable)] s t := by
  have code : (s.hostMerged a d en).codeWord .host (decide (en = 15#4)) (a / 4) = (s.hostMerged a d en).reportUncorrectable .host (a / 4) := by
    unfold State.codeWord
    rw [if_neg (by simpa using h)]
    exact if_pos hbad
  refine completes_hostWrite hg hw hb ha hm hen code ?_
  have rest : Unchanged ([.host] ++ [.arbiter]) (((s.hostMerged a d en).counted 0).reportUncorrectable .host (a / 4))
      ((((s.hostMerged a d en).reportUncorrectable .host (a / 4)).answeredHost .done).countBurst .host) :=
    (State.answeredHost_unchanged _ .done).comp (State.countBurst_unchanged _ _)
  obtain ⟨fault, did⟩ := did_reported (s := s) (hostMerged_unchanged s a d en) rest
  rw [show 4 * (a / 4) = a by omega] at did
  exact ⟨fault, did.reordered⟩

end

end Sys2Proof.Machine
end

section
/-! SUPPORT. Reads and record operations at words with errors (R152, R155, R161 to R163). -/

namespace Sys2Proof.Machine

set_option Elab.async false

variable {s t w x y z : State} {u v : EngineUnit} {b : EngineBurst} {g : Grant} {q : Requester} {later : List RecordOp} {a : Nat}

/-! ## Words that are read with correctable errors (R162) -/

/-- A read of the host whose word has a correctable error is served, and the error counted. -/
theorem hostRead_weak (hg : s.port.grant = some g) (hw : g.who = .host) (hb : s.port.bridge = some (.read a)) (ha : a % 4 = 0)
    (h1 : a / 4 ∉ s.port.bad) (h2 : a / 4 ∈ s.port.weak) :
    Completes (.memoryBurstComplete [] b) s fun t =>
      t.port.bridge = none
        ∧ (∃ w : Word, t.port.response = .data w ∧ ∀ n, n < 4 → w.extractLsb' (8 * n) 8 = s.mem.read (a + n))
        ∧ t.port.correctable = min 4294967295 (s.port.correctable + 1) ∧ t.port.uncorrectable = s.port.uncorrectable
        ∧ t.port.weak = s.port.weak ∧ t.port.bad = s.port.bad ∧ Did [.host, .errors] [] [] s t := by
  refine ⟨_, exec_hostBurst hg hw (hostRead_counted hb ha h1 h2), ?_⟩
  obtain ⟨e1, e2, e3, e4⟩ := closeCounted_errors s (State.answeredHost (s.atBurst.counted 1) _) .host
  obtain ⟨hn, hr⟩ := s.closeCounted_keeps ((s.atBurst.counted 1).answeredHost _) .host .host (by decide)
  exact ⟨hn, ⟨_, hr, fun n hn => ofLe_byte s.mem a hn⟩, e1, e2, e3, e4,
    .quietBurst (changed := [.host, .errors]) ((s.atBurst.counted_unchanged 1).comp (State.answeredHost_unchanged _ _)) _⟩

/-- A read of the engine's unit with no uncorrectable word is delivered, and the words that were corrected are counted. -/
theorem engineRead_counted (hg : s.port.grant = some g) (hw : g.who = .engine) (hu : s.engine.unit = some u) (hr : b.write = false)
    (hm : u.moves b = true) (h : ∀ y, b.addr / 4 ≤ y → 4 * y < b.addr + b.len → y ∉ s.port.bad) :
    Completes (.memoryBurstComplete [] b) s fun t =>
      t.engine.unit = some { s.readBy u b with ready := (s.readBy u b).unfinished }
        ∧ t.port.correctable = s.correctableAfter (s.weakAmong (b.addr / 4) ((b.addr + b.len + 3) / 4 - b.addr / 4))
        ∧ t.port.uncorrectable = s.port.uncorrectable ∧ t.port.weak = s.port.weak ∧ t.port.bad = s.port.bad
        ∧ Did [.errors, .unit] [] [] s t := by
  refine ⟨_, exec_engineBurst hg hw hu hm (engineBurst_counted (s := s.atBurst) hr h), closeCounted_unit rfl _, ?_⟩
  obtain ⟨e1, e2, e3, e4⟩ := closeCounted_errors s (State.setUnit (s.atBurst.counted _) (s.atBurst.readBy u b)) .engine
  exact ⟨e1, e2, e3, e4, .quietBurst (changed := [.errors, .unit])
    ((s.atBurst.counted_unchanged _).comp (State.setUnit_unchanged _ _)) _⟩

/-! ## Record operations (R155, R163) -/

/-- The strip left at the DRAM is the engine's own. -/
theorem Unchanged.of_atBurst {changed : List Piece} (h : Unchanged changed s.atBurst t) (hu : Piece.unit ∈ changed) : Unchanged changed s t := by
  intro p hp
  have k := h p hp
  cases p with
  | unit => exact absurd hu hp
  | _ => exact k

/-- The words of control that a read has brought go to the port. -/
theorem delivered_control (s : State) (r : ReadState) : Unchanged [.portReads] s (s.deliver .control r) := by
  intro p hp
  cases p <;> simp_all [same, State.deliver]

/-- An operation of the record queue that reports a word, and what it has left behind, whether or not a block waits for room. -/
theorem recordBurst_reported {first own : List Piece} {v : Nat} (h0 : Unchanged first s.atBurst x)
    (rest : Unchanged own (x.reportUncorrectable .record v) w)
    (hf : ∀ p ∈ [Piece.errors, .cause, .raised, .records], p ∉ first := by decide)
    (hk : ∀ p ∈ [Piece.errors, .cause, .raised], p ∉ own := by decide) :
    FaultReported s (s.closeWork (w.countBurst .record)) 0
      ∧ (s.noneWait → (s.closeWork (w.countBurst .record)).news
          = s.news ++ [(.memory, .memoryFault, 2, 4 * v, (s.closeWork (w.countBurst .record)).port.uncorrectable)])
      ∧ Unchanged (first ++ own ++ [.errors, .cause] ++ takingWork) s (s.closeWork (w.countBurst .record)) := by
  have closed := s.closeCounted_keeps w .record
  have whole := rest.comp closed (List.subset_append_left own takingWork) (List.subset_append_right _ _)
  obtain ⟨fault, count⟩ := faultReported_of (s := s) (h0 .errors (hf _ (by simp))) (h0 .cause (hf _ (by simp)))
    (show Unchanged _ ((x.counted 0).reportUncorrectable .record v) _ from whole) (by simpa using hk .errors (by simp))
    (by simpa using hk .cause (by simp))
  refine ⟨fault, fun hn => ?_, ?_⟩
  · have before : x.port.uncorrectable = s.port.uncorrectable := (h0 .errors (hf _ (by simp))).2.1
    have waits : x.noneWait := by
      obtain ⟨-, k1, k2⟩ := h0 .records (hf _ (by simp))
      exact ⟨k1.trans hn.1, k2.trans hn.2⟩
    rw [State.closeWork_news, (w.countBurst_unchanged .record).news, rest.news (hk _ (by simp)), reportUncorrectable_news waits,
      h0.news (hf _ (by simp)), count, before]
    rfl
  · have reported := h0.comp (State.reportUncorrectable_unchanged x .record v) (List.subset_append_left first _)
      (List.subset_append_right _ [Piece.errors, .cause, .raised, .records, .arbiter])
    have all := reported.comp whole (c := first ++ own ++ [.errors, .cause] ++ takingWork)
      (fun p hp => by simp only [List.mem_append, List.mem_cons, List.not_mem_nil, or_false] at hp ⊢; tauto)
      (fun p hp => by simp only [List.mem_append, List.mem_cons, List.not_mem_nil, or_false] at hp ⊢; tauto)
    exact all.of_atBurst (List.mem_append_right _ (by simp))

/-- A record of one byte that stands in a word with an uncorrectable error is written all the same, and the error reported. -/
theorem recordWrite_bad {c : Byte} (hg : s.port.grant = some g) (hw : g.who = .record) (hq : s.port.queue = .write [(a, [c])] :: later)
    (ha : a < 0x10000000) (hm : s.memoryOk) (h : a / 4 ∈ s.port.bad) :
    Completes (.memoryBurstComplete [] b) s fun t =>
      Written s t a [c] ∧ FaultReported s t 0
        ∧ (∃ more, AtMostAScan more ∧ t.ops = later ++ s.port.blocked.map Wait.op ++ more)
        ∧ (s.noneWait → t.news = s.news ++ [(.memory, .memoryFault, 2, 4 * (a / 4), t.port.uncorrectable)])
        ∧ Unchanged (.memory :: .errors :: .cause :: .safety :: takingWork) s t := by
  refine ⟨_, exec_recordBurst hg hw (recordBurst_byte_bad (s := s.atBurst) hq h), ?_⟩
  have h0 : Unchanged [.memory] s.atBurst { s.atBurst with mem := s.mem.writeBytes a [c] } := by
    intro p hp
    cases p <;> simp_all [same]
  obtain ⟨fault, news, rest⟩ := recordBurst_reported h0 (State.popRecord_unchanged _)
  obtain ⟨queue, blocked, -, -, mem, -⟩ := reportUncorrectable_port_rest { s.atBurst with mem := s.mem.writeBytes a [c] } .record (a / 4)
  refine ⟨written_writeBytes hm (by show a + 1 ≤ Config.memTop; exact ha) ((closeCounted_mem _).trans mem), fault,
    popped_ops hq ⟨queue, blocked⟩ ⟨rfl, rfl⟩, news, rest.mono ?_⟩
  decide

/-- The read of the control words whose word has a correctable error goes on to the port, and the error is counted. -/
theorem controlRead_weak (hg : s.port.grant = some g) (hw : g.who = .record) (hq : s.port.queue = .read .control a [] :: later)
    (ha : a % 4 = 0) (h1 : a / 4 ∉ s.port.bad) (h2 : a / 4 ∈ s.port.weak) :
    Completes (.memoryBurstComplete [] b) s fun t =>
      (t.post.setupRead = s.post.setupRead ∧ t.port.weak = s.port.weak ∧ t.port.bad = s.port.bad
          ∧ ∃ more, AtMostAScan more ∧ t.ops = later ++ s.port.blocked.map Wait.op ++ more)
        ∧ t.post.controlRead = .got [s.mem.read a, s.mem.read (a + 1), s.mem.read (a + 2), s.mem.read (a + 3)]
        ∧ t.port.correctable = min 4294967295 (s.port.correctable + 1) ∧ t.port.uncorrectable = s.port.uncorrectable
        ∧ t.news = s.news ∧ Unchanged (.portReads :: .errors :: .safety :: takingWork) s t := by
  refine ⟨_, exec_recordBurst hg hw (recordBurst_control_counted (s := s.atBurst) hq ha h1 h2), ?_⟩
  obtain ⟨e1, e2, e3, e4⟩ := closeCounted_errors s ((s.atBurst.counted 1).popRecord.deliver .control (.got (s.mem.readBytes a 4))) .record
  obtain ⟨p1, p2⟩ := s.closeCounted_keeps ((s.atBurst.counted 1).popRecord.deliver .control (.got (s.mem.readBytes a 4))) .record
    .portReads (by decide)
  have own : Unchanged [.errors, .safety, .records, .arbiter, .portReads] s.atBurst
      ((s.atBurst.counted 1).popRecord.deliver .control (.got (s.mem.readBytes a 4))) :=
    have popped : Unchanged [.errors, .safety, .records, .arbiter] s.atBurst (s.atBurst.counted 1).popRecord :=
      (s.atBurst.counted_unchanged 1).comp (State.popRecord_unchanged _)
    popped.comp (delivered_control _ _)
  refine ⟨⟨p1, e3, e4, popped_ops hq ⟨rfl, rfl⟩ ⟨rfl, rfl⟩⟩, ?_, e1, e2, ?_, ?_⟩
  · rw [Memory.readBytes_eq] at p2
    exact p2
  · exact (State.closeWork_news _ _).trans ((State.countBurst_unchanged _ .record).news.trans own.news)
  · have whole := own.comp (s.closeCounted_keeps _ .record) (c := .portReads :: .errors :: .safety :: takingWork)
    exact whole.of_atBurst (by simp)

/-- The read of the control words whose word has an uncorrectable error is abandoned there, and the error reported. -/
theorem controlRead_bad (hg : s.port.grant = some g) (hw : g.who = .record) (hq : s.port.queue = .read .control a [] :: later)
    (ha : a % 4 = 0) (h : a / 4 ∈ s.port.bad) :
    Completes (.memoryBurstComplete [] b) s fun t =>
      (t.post.setupRead = s.post.setupRead ∧ t.port.weak = s.port.weak ∧ t.port.bad = s.port.bad
          ∧ ∃ more, AtMostAScan more ∧ t.ops = later ++ s.port.blocked.map Wait.op ++ more)
        ∧ t.post.controlRead = .error [] ∧ FaultReported s t 0
        ∧ (s.noneWait → t.news = s.news ++ [(.memory, .memoryFault, 2, a, t.port.uncorrectable)])
        ∧ Unchanged (.portReads :: .errors :: .cause :: .safety :: takingWork) s t := by
  refine ⟨_, exec_recordBurst hg hw (recordBurst_control_bad (s := s.atBurst) hq ha h), ?_⟩
  have own : Unchanged [.records, .safety, .arbiter, .portReads] (s.atBurst.reportUncorrectable .record (a / 4))
      ((s.atBurst.reportUncorrectable .record (a / 4)).popRecord.deliver .control (.error [])) :=
    (State.popRecord_unchanged _).comp (delivered_control _ _)
  obtain ⟨fault, news, rest⟩ := recordBurst_reported (.refl _ : Unchanged [] s.atBurst s.atBurst) own
  obtain ⟨queue, blocked, -, -, -, setup⟩ := reportUncorrectable_port_rest s.atBurst .record (a / 4)
  obtain ⟨p1, p2⟩ := s.closeCounted_keeps ((s.atBurst.reportUncorrectable .record (a / 4)).popRecord.deliver .control (.error [])) .record
    .portReads (by decide)
  rw [show 4 * (a / 4) = a by omega] at news
  refine ⟨⟨p1.trans setup, fault.2.2.2.1, fault.2.2.1, popped_ops hq ⟨queue, blocked⟩ ⟨rfl, rfl⟩⟩, p2, fault, news, rest.mono ?_⟩
  decide

end Sys2Proof.Machine
end

section
/-! SUPPORT. The read of a strip that the engine has abandoned, as the next burst completes (R102, R163, assumption log 14). -/

namespace Sys2Proof.Machine

set_option Elab.async false

variable {s t w x y z : State} {u v : EngineUnit} {b b' : EngineBurst} {g : Grant} {q : Requester} {a k n : Nat}

/-- The burst has begun, and the read of the abandoned strip has reported word n, after k words with correctable errors. -/
abbrev State.metAtCutOff (s : State) (k n : Nat) : State := (s.atBurst.counted k).reportUncorrectable .engine n

theorem metAtCutOff_unchanged (s : State) (k n : Nat) : Unchanged [.errors, .cause, .raised, .records, .arbiter] s.atBurst (s.metAtCutOff k n) :=
  (s.atBurst.counted_unchanged k).comp (State.reportUncorrectable_unchanged _ _ _)

theorem exec_cutOff_alone {ups : List Upset} (hu : s.engine.cutOff = some u) (hg : s.port.grant = none) (h : s.befall ups = x) :
    exec (.memoryBurstComplete ups b') s = .next (s.closeWork x) := by
  show execMemoryBurstComplete ups b' s = _
  unfold execMemoryBurstComplete
  rw [hg, h]
  exact if_pos (by rw [hu]; rfl)

theorem exec_cutOff_host {ups : List Upset} (hg : s.port.grant = some g) (hw : g.who = .host) (h : (s.befall ups).hostBurst = x) :
    exec (.memoryBurstComplete ups b') s = .next (s.closeWork (x.countBurst .host)) := by
  show execMemoryBurstComplete ups b' s = _
  unfold execMemoryBurstComplete
  rw [hg]
  dsimp only
  rw [hw, show (s.befall ups).burstOf .host b' = some x from congrArg some h]

/-- What follows the report keeps it, and leaves no read behind. -/
theorem cutOff_reported {own : List Piece} (rest : Unchanged (own ++ [.arbiter]) (s.metAtCutOff k n) z)
    (hk : ∀ p ∈ [Piece.errors, .cause, .records, .raised, .statistics], p ∉ own := by decide) (hu : Piece.unit ∉ own := by decide) :
    FaultReported s (s.closeWork z) k ∧ (s.closeWork z).engine.cutOff = none
      ∧ Did (own ++ [.errors, .cause]) [] [(.memory, .memoryFault, 1, 4 * n, (s.closeWork z).port.uncorrectable)] s (s.closeWork z) := by
  obtain ⟨fault, did⟩ := did_reported (first := []) (Unchanged.refl s.atBurst) rest (by simp) hk
  have engine : z.engine = s.atBurst.engine :=
    Eq.trans (rest .unit (by simpa using hu)) (metAtCutOff_unchanged s k n .unit (by decide))
  refine ⟨fault, ?_, did⟩
  rw [closeWork_cutOff, engine]
  rfl

/-- The host's read of a clean word is served behind the report. -/
theorem hostRead_metAtCutOff (hr : s.port.bridge = some (.read a)) (hc : s.cleanWords a 4) :
    (s.metAtCutOff k n).hostBurst = (s.metAtCutOff k n).answeredHost (.data (BitVec.ofNat 32 (ofLe (s.mem.readBytes a 4)))) := by
  have met := metAtCutOff_unchanged s k n
  obtain ⟨bridge, -⟩ := met .host (by decide)
  obtain ⟨-, -, weak, bad, mem, -⟩ := reportUncorrectable_port_rest (s.atBurst.counted k) .engine n
  have clean : (s.metAtCutOff k n).cleanWords a 4 := by
    unfold State.cleanWords
    rw [weak, bad]
    exact hc
  rw [hostRead_clean (bridge.trans hr) clean, mem]
  rfl

section
variable (hu : s.engine.cutOff = some u) (hw : b.write = false) (hm : u.moves b = true) (hb : n ∈ s.port.bad) (h1 : b.addr / 4 ≤ n)
  (h2 : 4 * n < b.addr + b.len) (h : ∀ y, b.addr / 4 ≤ y → y < n → y ∉ s.port.bad)
include hu hw hm hb h1 h2 h

/-- With no grant, the burst is that read alone. -/
theorem cutOff_alone (hg : s.port.grant = none) :
    Completes (.memoryBurstComplete [.cutOff b.addr b.len] b') s fun t =>
      FaultReported s t (s.weakAmong (b.addr / 4) (n - b.addr / 4)) ∧ t.engine.cutOff = none
        ∧ Did [.errors, .cause] [] [(.memory, .memoryFault, 1, 4 * n, t.port.uncorrectable)] s t := by
  refine ⟨_, exec_cutOff_alone hu hg (befall_cutOff hu hw hm hb h1 h2 h), ?_⟩
  exact cutOff_reported (own := []) (.refl _) (by simp) (by simp)

/-- Under the host's grant its read is made as well. -/
theorem cutOff_host (hg : s.port.grant = some g) (hq : g.who = .host) (hr : s.port.bridge = some (.read a)) (hc : s.cleanWords a 4) :
    Completes (.memoryBurstComplete [.cutOff b.addr b.len] b') s fun t =>
      (FaultReported s t (s.weakAmong (b.addr / 4) (n - b.addr / 4)) ∧ t.engine.cutOff = none
        ∧ Did [.host, .errors, .cause] [] [(.memory, .memoryFault, 1, 4 * n, t.port.uncorrectable)] s t)
      ∧ t.port.bridge = none
      ∧ ∃ w : Word, t.port.response = .data w ∧ ∀ n, n < 4 → w.extractLsb' (8 * n) 8 = s.mem.read (a + n) := by
  have burst := (congrArg State.hostBurst (befall_cutOff hu hw hm hb h1 h2 h)).trans (hostRead_metAtCutOff (k := _) hr hc)
  refine ⟨_, exec_cutOff_host hg hq burst, ?_⟩
  obtain ⟨bridge, response⟩ := s.closeCounted_keeps (State.answeredHost _ _) .host .host (by decide)
  refine ⟨?_, bridge, _, response, fun n hn => ofLe_byte s.mem a hn⟩
  exact cutOff_reported (own := [.host]) ((State.answeredHost_unchanged _ _).comp (State.countBurst_unchanged _ _))

end

end Sys2Proof.Machine
end

section
/-! SUPPORT. A strip that underruns while the engine reads for it (R85, R102). -/

namespace Sys2Proof.Machine

set_option Elab.async false

variable {s t x y z : State} {u v : EngineUnit} {g : Grant} {r : StripRequest} {k n : Nat} {c : Bool}

/-- What changes neither the engine nor the counts of strips keeps the read that was left, and the counts. -/
theorem Unchanged.cutOff {changed : List Piece} (h : Unchanged changed s t) (hu : Piece.unit ∉ changed := by decide) :
    t.engine.cutOff = s.engine.cutOff := by
  have engine : t.engine = s.engine := h .unit hu
  rw [engine]

/-- After its first three steps a turn in LIVE keeps the read that the missed strip left. -/
theorem turnedLive_cutOff (s : State) (m : Nat) : (s.turnedLive m).engine.cutOff = s.beginScanout.engine.cutOff := by
  unfold State.turnedLive
  rw [(State.readOutputMode_unchanged _ m).cutOff, takeWork_cutOff, (State.judge_unchanged _).cutOff, takeWork_cutOff]

theorem nextLive_kept (s : State) : Unchanged [.layout, .slots, .strips, .frameNumber, .moderation, .cause, .timer, .safety, .records, .arbiter,
    .lateness] s s.nextLive := by
  have counted := (shown_unchanged s).comp (countFrame_any s.shown).2.1
    (c := [.layout, .slots, .strips, .frameNumber, .moderation, .cause, .timer, .safety, .records, .arbiter, .lateness])
  exact counted.comp (State.beginLiveFrame_unchanged _)

section
variable (hon : s.feeder.rasterOn = true) (hi : s.feeder.layoutRead = .idle) (hv : s.feeder.view = .live) (hl : s.feeder.liveFrame = true)
  (hr : s.feeder.request = some r) (hu : s.engine.unit = some u) (hw : u.work = .strip n c) (hg : s.port.grant = some g) (he : g.who = .engine)
include hv hl hr hu hw hg he

/-- The strip that the raster has come to underruns, and leaves its read at the DRAM. -/
theorem missed_cutOff (k : Nat) : (s.moveRaster k).beginScanout.engine.cutOff = some u := by
  rw [beginScanout_underrun (s := s.moveRaster k) hv hl (by show s.feeder.request.isSome = true; rw [hr]; rfl)]
  exact underrun_cutOff (s := s.moveRaster k) hr hu hw hg he

include hon hi

theorem scanout_cutOff (hn : s.feeder.nextStrip = k) (hk : k + 1 < s.frameStrips) (ht : exec (.stripScanoutStart k) s = .next t) :
    t.engine.cutOff = some u := by
  have hk' : k + 1 < stripCount (s.moveRaster (k + 1)).feeder.outputMode := by rwa [frameStrips_of_idle hi] at hk
  have hx := exec_scanout hon hn hk
  rw [feederTakes_of_idle (s := s.moveRaster (k + 1)) hi,
    show (s.moveRaster (k + 1)).feederEvent (.scanout k) = _ from stripScanout_live hk' hv hl, ht] at hx
  rw [Host.Outcome.next.inj hx, closeWork_cutOff, (State.requestStrip_unchanged _ _).cutOff]
  exact missed_cutOff hv hl hr hu hw hg he (k + 1)

/-- At the frame turn the last strip underruns, and its read is left too. -/
theorem turn_underrun (hn : s.feeder.nextStrip + 1 = s.frameStrips) :
    Completes .frameTurn s fun t =>
      t.feeder.underruns = min 4294967295 (s.feeder.underruns + 1) ∧ t.feeder.faults = s.feeder.faults ∧ t.engine.cutOff = some u := by
  have turn := liveTurn_of hon hn hi hv fun h => absurd h (by rw [hl]; decide)
  refine ⟨_, turn.next, ?_⟩
  generalize hd : (s.moveRaster 0).turnedLive s.post.setup.outputMode = e at turn
  have cut : e.engine.cutOff = some u := by
    rw [← hd, turnedLive_cutOff]
    exact missed_cutOff hv hl hr hu hw hg he 0
  have missed : s.feeder.missed = true := by simp [Feeder.missed, hl, hr]
  have counts : e.feeder.underruns = min 4294967295 (s.feeder.underruns + 1) ∧ e.feeder.faults = s.feeder.faults := by
    rw [turn.feeder]
    exact ⟨if_pos missed, rfl⟩
  have rest {z : State} {changed : List Piece} (h : Unchanged changed e z) (k1 : Piece.unit ∉ changed) (k2 : Piece.stripCounts ∉ changed) :
      (s.closeWork z).feeder.underruns = min 4294967295 (s.feeder.underruns + 1) ∧ (s.closeWork z).feeder.faults = s.feeder.faults
        ∧ (s.closeWork z).engine.cutOff = some u := by
    obtain ⟨e1, e2⟩ := h .stripCounts k2
    rw [State.closeWork_feeder, closeWork_cutOff, h.cutOff k1]
    exact ⟨e1.trans counts.1, e2.trans counts.2, cut⟩
  split
  · exact rest (layoutAsked_unchanged e) (by decide) (by decide)
  · exact rest (nextLive_kept e) (by decide) (by decide)

end

end Sys2Proof.Machine
end

section
open Sys2Proof Sys2Proof.Machine

/-- Settles O25: writes merge with what the word holds or make it whole, reads count or are abandoned, and an underrun's read ends as an
upset of a later burst. -/
theorem memoryErrorsAreCountedAndReported : Obligations.MemoryErrorsAreCountedAndReported := by
  refine ⟨fun s g b a d en hg hw hb ha4 ha hm hen => ⟨?_, ?_, ?_⟩, fun s g b a c later hg hw hq ha hm h => recordWrite_bad hg hw hq ha hm h,
    fun s g b a hg hw hb ha h1 h2 => hostRead_weak hg hw hb ha h1 h2, fun s g u b hg hw hu hr hm h => engineRead_counted hg hw hu hr hm h,
    fun s g b a later hg hw hq ha => ⟨fun h1 h2 => controlRead_weak hg hw hq ha h1 h2, fun h => controlRead_bad hg hw hq ha h⟩, ?_, ?_⟩
  · exact fun h => hostWrite_whole hg hw hb ha hm hen h
  · exact fun h hbad => hostWrite_bad hg hw hb ha hm hen h hbad ha4
  · exact fun h h1 h2 => hostWrite_weak hg hw hb ha hm hen h h1 h2
  · intro s g u r n c hon hi hv hl hr hu hw hg he
    have strips : s.frameStrips = if s.feeder.outputMode = 0 then 90 else if s.feeder.outputMode = 1 then 135 else 150 := by
      rw [frameStrips_of_idle hi, stripCount_eq]
    refine ⟨fun k hn hk => ?_, fun hn => turn_underrun hon hi hv hl hr hu hw hg he (hn.trans strips.symm)⟩
    have hk' : k + 1 < s.frameStrips := strips ▸ hk
    obtain ⟨t, ht, -, -, display, -, -, underruns, faults, late, -, -, -, -, gone, did⟩ :=
      (((stripsAreScannedOutAndRequested s k).2 hon hn hk').2 hi).2 hv hl |>.2 r hr
    exact ⟨t, ht, ⟨underruns, faults, scanout_cutOff hon hi hv hl hr hu hw hg he hn hk' ht⟩, late, display,
      gone.1 (.inr ⟨u, n, c, hu, hw⟩), did.reordered⟩
  · intro s u b b' x hu hw hm hb h1 h2 h
    exact ⟨fun hg => cutOff_alone hu hw hm hb h1 h2 h hg, fun g a hg hq hr _ hc => cutOff_host hu hw hm hb h1 h2 h hg hq hr hc⟩

end
